-- ==== Sys2Proof/Word.lean ====
section
/-! DEFINITION. The word types of the block (R6): bytes, 64-bit words, microwords and control-store words. -/

namespace Sys2Proof

/-- One byte of bank memory. -/
abbrev Byte := BitVec 8

/-- A register or a bank word: every register of the block is 64 bits wide (R6). -/
abbrev Word := BitVec 64

/-- The data bits of a microword (R25). -/
abbrev Micro := BitVec 192

/-- A stored control-store word: 192 data bits and 16 check bits (R21). -/
abbrev Stored := BitVec 208

/-- A sparse table: keys in rising order, and no entry equal to what an unlisted key reads as. -/
abbrev Table (α : Type) := List (Nat × α)

end Sys2Proof
end

