-- ==== Sys2Proof/Syntax.lean ====
section
/-! DEFINITION. The commands of the block: one constructor per row of spec/opcode_table.json.
Operands that name a unit are bounded numbers, operands that carry bits are bit vectors of the width the chapter gives
them, so a term of this type already names units that exist. The operands are the model's (the table gives none):
NOTES.md and notes/assumptions/3.md say how a row that is one field of a microword or of an engine instruction carries
that field's operands. -/

namespace Sys2Proof

/-- The users of a bank's Port B, in the fixed priority of R174 (march engine first, host window last). -/
inductive PortBUser where
  | march | queueManager | dma | hostWindow
  deriving DecidableEq, Repr

/-- One access presented on Port B in a BCLK: up to one 16-byte line (R174). `enables` has one bit per byte of the line
and only matters for a write. -/
structure PortBRequest where
  user : PortBUser
  line : BitVec 14
  isWrite : Bool
  enables : BitVec 16
  data : BitVec 128
  deriving DecidableEq, Repr

/-- The shadowed geometry registers of the beam (R217). -/
inductive GeomReg where
  | geom | hact | vact | sync
  deriving DecidableEq, Repr

/-- The demands that raise a domain (R365), in the order the rule lists them. -/
inductive DemandKind where
  | contextEvent | contextCommand | bankAccess | sliceRequest | dmaPacing | dmaStart | hostBurst | interruptRaise | wakeSideband
  deriving DecidableEq, Repr

/-- A stitch frame as it stands at a port (R297, R298): the two header words, the payload bytes, the number of data
blocks seen, and the CRC-32 that follows the payload. -/
structure Frame where
  word0 : BitVec 64
  word1 : BitVec 64
  payload : List (BitVec 8)
  blocks : Nat
  crc : BitVec 32
  deriving DecidableEq, Repr

/-- A block as it arrives at a stitch port (R293). -/
structure StitchBlock where
  port : Fin 4
  bits : BitVec 64
  deriving DecidableEq, Repr

/-- An access at the register window: its 32-bit word's address, RG_ADDR[23:2], and its byte enables (R329). -/
structure RegAccess where
  addr : BitVec 22
  be : BitVec 4
  deriving DecidableEq, Repr

/-- A sound port and the level of its SNDs_READY (R341). -/
structure SoundAsk where
  port : Fin 8
  ready : Bool
  deriving DecidableEq, Repr

/-- A GPIO port's request to read: its word, and whether its OP is the reserved code 7 in place of READ (R348). -/
structure GpioAsk where
  word : Fin 4
  reserved : Bool
  deriving DecidableEq, Repr

/-- The commands of the block. -/
inductive Instr where
  /-- MICROWORD_ISSUE (R58). -/
  | microwordIssue (q : Fin 32)
  /-- MICROWORD_COMMIT (R58). -/
  | microwordCommit (c : Fin 1024)
  /-- CONT (R28). -/
  | cont (c : Fin 1024)
  /-- JUMP (R28). -/
  | jump (c : Fin 1024) (target : BitVec 14)
  /-- BRT (R28). -/
  | brt (c : Fin 1024) (cond : BitVec 6) (cpol : Bool) (target : BitVec 14)
  /-- BRF (R28). -/
  | brf (c : Fin 1024) (cond : BitVec 6) (cpol : Bool) (target : BitVec 14)
  /-- CALL (R30). -/
  | call (c : Fin 1024) (target : BitVec 14)
  /-- CALLC (R28). -/
  | callc (c : Fin 1024) (cond : BitVec 6) (cpol : Bool) (target : BitVec 14)
  /-- RET (R31). -/
  | ret (c : Fin 1024) (cond : BitVec 6) (cpol : Bool)
  /-- DISP (R134). -/
  | disp (c : Fin 1024)
  /-- TDISP (R33). -/
  | tdisp (c : Fin 1024) (width : BitVec 6) (areg : BitVec 4) (shamt : BitVec 6) (target : BitVec 14)
  /-- LOOP (R32). -/
  | loop (c : Fin 1024) (cpol : Bool) (target : BitVec 14)
  /-- WAIT (R34). -/
  | wait (c : Fin 1024) (cond : BitVec 6) (cpol : Bool) (poll : Bool) (target : BitVec 14)
  /-- PARK (R35). -/
  | park (c : Fin 1024) (target : BitVec 14)
  /-- ALU_OPERATION (R43). -/
  | aluOperation (c : Fin 1024) (aluop : BitVec 6) (areg : BitVec 4) (bsel : BitVec 3) (breg : BitVec 4) (dsel : BitVec 3) (dreg : BitVec 4) (flagw : BitVec 4) (imm : BitVec 64)
  /-- SHIFTER_OPERATION (R44). -/
  | shifterOperation (c : Fin 1024) (shop : BitVec 4) (shamt : BitVec 6) (areg : BitVec 4) (bsel : BitVec 3) (breg : BitVec 4) (dsel : BitVec 3) (dreg : BitVec 4) (flagw : BitVec 4) (imm : BitVec 64)
  /-- PREDICATE_WRITE (R55). -/
  | predicateWrite (c : Fin 1024) (pset : BitVec 4) (cond : BitVec 6) (cpol : Bool)
  /-- MUL (R74). -/
  | mul (c : Fin 1024) (areg : BitVec 4) (bsel : BitVec 3) (breg : BitVec 4) (dsel : BitVec 3) (dreg : BitVec 4) (imm : BitVec 64)
  /-- MULHS (R74). -/
  | mulhs (c : Fin 1024) (areg : BitVec 4) (bsel : BitVec 3) (breg : BitVec 4) (dsel : BitVec 3) (dreg : BitVec 4) (imm : BitVec 64)
  /-- MULHU (R74). -/
  | mulhu (c : Fin 1024) (areg : BitVec 4) (bsel : BitVec 3) (breg : BitVec 4) (dsel : BitVec 3) (dreg : BitVec 4) (imm : BitVec 64)
  /-- MULW (R74). -/
  | mulw (c : Fin 1024) (areg : BitVec 4) (bsel : BitVec 3) (breg : BitVec 4) (dsel : BitVec 3) (dreg : BitVec 4) (imm : BitVec 64)
  /-- MULWU (R74). -/
  | mulwu (c : Fin 1024) (areg : BitVec 4) (bsel : BitVec 3) (breg : BitVec 4) (dsel : BitVec 3) (dreg : BitVec 4) (imm : BitVec 64)
  /-- DIVS (R77). -/
  | divs (c : Fin 1024) (areg : BitVec 4) (bsel : BitVec 3) (breg : BitVec 4) (imm : BitVec 64)
  /-- DIVU (R77). -/
  | divu (c : Fin 1024) (areg : BitVec 4) (bsel : BitVec 3) (breg : BitVec 4) (imm : BitVec 64)
  /-- RDQ (R78). -/
  | rdq (c : Fin 1024) (dsel : BitVec 3) (dreg : BitVec 4)
  /-- RDR (R78). -/
  | rdr (c : Fin 1024) (dsel : BitVec 3) (dreg : BitVec 4)
  /-- RDH (R76). -/
  | rdh (c : Fin 1024) (dsel : BitVec 3) (dreg : BitVec 4)
  /-- DIVIDE_COMPLETE (R77). -/
  | divideComplete (c : Fin 1024)
  /-- LD64 (R48). -/
  | ld64 (c : Fin 1024) (memar : BitVec 2) (amod : BitVec 3) (step : BitVec 16)
  /-- LD32 (R48). -/
  | ld32 (c : Fin 1024) (memar : BitVec 2) (amod : BitVec 3) (step : BitVec 16)
  /-- LD16 (R48). -/
  | ld16 (c : Fin 1024) (memar : BitVec 2) (amod : BitVec 3) (step : BitVec 16)
  /-- LD8 (R48). -/
  | ld8 (c : Fin 1024) (memar : BitVec 2) (amod : BitVec 3) (step : BitVec 16)
  /-- LD32S (R48). -/
  | ld32s (c : Fin 1024) (memar : BitVec 2) (amod : BitVec 3) (step : BitVec 16)
  /-- LD16S (R48). -/
  | ld16s (c : Fin 1024) (memar : BitVec 2) (amod : BitVec 3) (step : BitVec 16)
  /-- LD8S (R48). -/
  | ld8s (c : Fin 1024) (memar : BitVec 2) (amod : BitVec 3) (step : BitVec 16)
  /-- ST64 (R48). -/
  | st64 (c : Fin 1024) (areg : BitVec 4) (memar : BitVec 2) (amod : BitVec 3) (step : BitVec 16)
  /-- ST32 (R48). -/
  | st32 (c : Fin 1024) (areg : BitVec 4) (memar : BitVec 2) (amod : BitVec 3) (step : BitVec 16)
  /-- ST16 (R48). -/
  | st16 (c : Fin 1024) (areg : BitVec 4) (memar : BitVec 2) (amod : BitVec 3) (step : BitVec 16)
  /-- ST8 (R48). -/
  | st8 (c : Fin 1024) (areg : BitVec 4) (memar : BitVec 2) (amod : BitVec 3) (step : BitVec 16)
  /-- AADD (R177). -/
  | aadd (c : Fin 1024) (areg : BitVec 4) (memar : BitVec 2) (amod : BitVec 3) (step : BitVec 16)
  /-- ASWP (R177). -/
  | aswp (c : Fin 1024) (areg : BitVec 4) (memar : BitVec 2) (amod : BitVec 3) (step : BitVec 16)
  /-- SIGNAL (R51). -/
  | signal (c : Fin 1024) (event : BitVec 12)
  /-- WADD (R101). -/
  | wadd (c : Fin 1024) (event : BitVec 12)
  /-- WDEL (R101). -/
  | wdel (c : Fin 1024) (event : BitVec 12)
  /-- WCLR (R101). -/
  | wclr (c : Fin 1024)
  /-- UADD (R101). -/
  | uadd (c : Fin 1024) (event : BitVec 12)
  /-- UDEL (R101). -/
  | udel (c : Fin 1024) (event : BitVec 12)
  /-- CONSUME (R101). -/
  | consume (c : Fin 1024) (event : BitVec 12)
  /-- DOORBELL (R343). -/
  | doorbell (c : Fin 1024)
  /-- PRESS (R400). -/
  | press (c : Fin 1024)
  /-- BLITGO (R342). -/
  | blitgo (c : Fin 1024)
  /-- COLREC (R52). -/
  | colrec (c : Fin 1024) (code : BitVec 10) (areg : BitVec 4) (breg : BitVec 4)
  /-- FAULT (R52). -/
  | fault (c : Fin 1024) (cls : BitVec 4) (areg : BitVec 4) (breg : BitVec 4)
  /-- LD0 (R54). -/
  | ld0 (c : Fin 1024) (bsel : BitVec 3) (breg : BitVec 4) (imm : BitVec 64)
  /-- LD1 (R54). -/
  | ld1 (c : Fin 1024) (bsel : BitVec 3) (breg : BitVec 4) (imm : BitVec 64)
  /-- DEC0 (R54). -/
  | dec0 (c : Fin 1024)
  /-- DEC1 (R54). -/
  | dec1 (c : Fin 1024)
  /-- CONTROL_STORE_READ (R22). -/
  | controlStoreRead (c : Fin 1024)
  /-- CONTEXT_READY (R87). -/
  | contextReady (c : Fin 1024)
  /-- SCRUB_WRITEBACK (R22). -/
  | scrubWriteback (q : Fin 32)
  /-- CTX_START (R89). -/
  | ctxStart (c : Fin 1024)
  /-- CTX_RESUME (R91). -/
  | ctxResume (c : Fin 1024)
  /-- CTX_STOP (R90). -/
  | ctxStop (c : Fin 1024)
  /-- SPINE_ASSERTION (R99). -/
  | spineAssertion (line : BitVec 12)
  /-- DECODE_COMPLETE (R132). -/
  | decodeComplete (c : Fin 1024)
  /-- FRONT_END_LINE_FETCH (R173). -/
  | frontEndLineFetch (c : Fin 1024)
  /-- OSTK_WRITE (R151). -/
  | ostkWrite (c : Fin 1024) (k : Fin 8) (value : BitVec 64)
  /-- PORT_A_REQUEST_STEP (R172). -/
  | portARequestStep (c : Fin 1024)
  /-- PORT_A_WRITE_STEP (R171). -/
  | portAWriteStep (n : Fin 128)
  /-- BANK_READ_LATCH_FILL (R172). -/
  | bankReadLatchFill (c : Fin 1024)
  /-- PORT_B_ACCESS (R174). -/
  | portBAccess (n : Fin 128) (presented : List PortBRequest)
  /-- ECC_WRITEBACK (R179). -/
  | eccWriteback (n : Fin 128)
  /-- OWNERSHIP_HANDOVER (R183). -/
  | ownershipHandover (n : Fin 128) (owner : BitVec 6)
  /-- HANDOVER_COMPLETE (R183). -/
  | handoverComplete (n : Fin 128)
  /-- MARCH_START_DESTRUCTIVE (R186). -/
  | marchStartDestructive (n : Fin 128) (gap : BitVec 8)
  /-- MARCH_START_PRESERVING (R186). -/
  | marchStartPreserving (n : Fin 128) (gap : BitVec 8)
  /-- MARCH_ABORT (R186). -/
  | marchAbort (n : Fin 128) (gap : BitVec 8)
  /-- MARCH_ACCESS (R187). -/
  | marchAccess (n : Fin 128)
  /-- INJ_WRITE (R191). -/
  | injWrite (n : Fin 128) (value : BitVec 64)
  /-- QUEUE_GRANT (R205). -/
  | queueGrant (k : Fin 16)
  /-- PUSH (R200). -/
  | push (n : BitVec 14)
  /-- POP (R200). -/
  | pop (n : BitVec 14)
  /-- PEEK (R200). -/
  | peek (n : BitVec 14)
  /-- PUSHIF (R200). -/
  | pushif (n : BitVec 14)
  /-- POPIF (R200). -/
  | popif (n : BitVec 14)
  /-- WMARM (R208). -/
  | wmarm (n : BitVec 14)
  /-- ELEMENT_ACCESS_COMPLETE (R199). -/
  | elementAccessComplete (n : BitVec 14)
  /-- QD_CFG_WRITE (R195). -/
  | qdCfgWrite (n : BitVec 14) (value : BitVec 64)
  /-- QD_PTR_WRITE (R195). -/
  | qdPtrWrite (n : BitVec 14) (value : BitVec 64)
  /-- QD_LOW_HALF_READ (R197). -/
  | qdLowHalfRead (n : BitVec 14) (ptr : Bool)
  /-- BEAM_TICK (R215). -/
  | beamTick
  /-- BEAM_RUN_START (R218). -/
  | beamRunStart
  /-- BEAM_RUN_STOP (R218). -/
  | beamRunStop
  /-- TICKDIV_WRITE (R216). -/
  | tickdivWrite (value : BitVec 64)
  /-- GEOMETRY_WRITE (R217). -/
  | geometryWrite (which : GeomReg) (value : BitVec 64)
  /-- LEAD_WRITE (R225). -/
  | leadWrite (value : BitVec 64)
  /-- TIMER_COUNT_EVENT (R228). -/
  | timerCountEvent (t : Fin 256)
  /-- CMPPRE_WRITE (R230). -/
  | cmppreWrite (t : Fin 256) (value : BitVec 32)
  /-- TIMER_COUNT_WRITE (R219). -/
  | timerCountWrite (t : Fin 256) (value : BitVec 32)
  /-- ACTION_START_TIMER (R236). -/
  | actionStartTimer (t : Fin 256)
  /-- ACTION_STOP_TIMER (R236). -/
  | actionStopTimer (t : Fin 256)
  /-- ACTION_DMA_PACING_STEP (R236). -/
  | actionDmaPacingStep (t : Fin 256)
  /-- ACTION_CONVERTER_TRIGGER (R236). -/
  | actionConverterTrigger (t : Fin 256)
  /-- GSTART (R234). -/
  | gstart (groups : BitVec 8)
  /-- KEEPER_TIMER_STEP (R239). -/
  | keeperTimerStep (k : Fin 8)
  /-- DMA_SET_START (R244). -/
  | dmaSetStart (n : Fin 64) (setB : Bool) (ctl : BitVec 64)
  /-- DMA_BURST (R250). -/
  | dmaBurst (n : Fin 64)
  /-- DMA_SET_COMPLETE (R245). -/
  | dmaSetComplete (n : Fin 64)
  /-- RETRY_DELAY_END (R257). -/
  | retryDelayEnd (n : Fin 64)
  /-- DMA_QUEUE_RETRY (R243). -/
  | dmaQueueRetry (n : Fin 64)
  /-- DMA_STOP (R260). -/
  | dmaStop (n : Fin 64)
  /-- DMA_ABORT (R260). -/
  | dmaAbort (n : Fin 64)
  /-- DMA_RESUME (R260). -/
  | dmaResume (n : Fin 64)
  /-- CLRREQ (R248). -/
  | clrreq (n : Fin 64)
  /-- HM_GRANT (R333). -/
  | hmGrant
  /-- HM_RESPONSE_BEAT (R333). -/
  | hmResponseBeat (tag : Fin 32) (isWrite : Bool) (data : BitVec 256) (last : Bool) (fail : Bool)
  /-- HOST_MASTER_TIMEOUT (R333). -/
  | hostMasterTimeout (tag : Fin 32)
  /-- ENGINE_EDGE (R266). -/
  | engineEdge (e : Fin 32)
  /-- OUT (R268). -/
  | pioOut (e : Fin 32) (dst : BitVec 3) (n : BitVec 5)
  /-- IN (R268). -/
  | pioIn (e : Fin 32) (src : BitVec 3) (n : BitVec 5)
  /-- WAITP (R271). -/
  | waitp (e : Fin 32) (pol : Bool) (rel : Bool) (pin : BitVec 7)
  /-- WAITE (R271). -/
  | waite (e : Fin 32) (latch : Bool) (sib : Bool) (event : BitVec 12)
  /-- SETP (R270). -/
  | setp (e : Fin 32) (dst : BitVec 2) (value : BitVec 10)
  /-- PULL (R269). -/
  | pull (e : Fin 32) (whenDrained : Bool) (noWait : Bool)
  /-- PIO_PUSH (R269). -/
  | pioPush (e : Fin 32) (whenFull : Bool) (noWait : Bool)
  /-- MOV (R270). -/
  | mov (e : Fin 32) (dst : BitVec 3) (src : BitVec 3) (opn : BitVec 2)
  /-- JCNT (R272). -/
  | jcnt (e : Fin 32) (regY : Bool) (target : BitVec 6)
  /-- JCOND (R272). -/
  | jcond (e : Fin 32) (cond : BitVec 4) (target : BitVec 6)
  /-- MARK (R273). -/
  | mark (e : Fin 32) (m : Bool)
  /-- IDLE (R267). -/
  | idle (e : Fin 32)
  /-- TXQ_WRITE (R274). -/
  | txqWrite (e : Fin 32) (value : BitVec 32)
  /-- RXQ_READ (R274). -/
  | rxqRead (e : Fin 32)
  /-- TX_FEED_ACCESS (R276). -/
  | txFeedAccess (e : Fin 32)
  /-- RX_FEED_ACCESS (R276). -/
  | rxFeedAccess (e : Fin 32)
  /-- ENGINE_ENABLE (R277). -/
  | engineEnable (e : Fin 32)
  /-- ENGINE_DISABLE (R277). -/
  | engineDisable (e : Fin 32)
  /-- RELOAD (R279). -/
  | reload (e : Fin 32)
  /-- CLRQ (R290). -/
  | clrq (e : Fin 32)
  /-- CLRLAT (R290). -/
  | clrlat (e : Fin 32)
  /-- GROUP_START (R278). -/
  | groupStart (g : Fin 4) (engines : BitVec 8)
  /-- GROUP_STOP (R278). -/
  | groupStop (g : Fin 4) (engines : BitVec 8)
  /-- DIVSYNC (R278). -/
  | divsync (g : Fin 4) (engines : BitVec 8)
  /-- IMEM_WRITE (R279). -/
  | imemWrite (e : Fin 32) (idx : Fin 64) (value : BitVec 32)
  /-- SHIFTCFG_WRITE (R275). -/
  | shiftcfgWrite (e : Fin 32) (value : BitVec 64)
  /-- PIN_EVENT (R286). -/
  | pinEvent (n : Fin 128) (level : Bool)
  /-- PIN_FUNCTION_SWITCH (R288). -/
  | pinFunctionSwitch (n : Fin 128) (cfg : BitVec 64)
  /-- PIN_SWITCH_SETTLED (R288). -/
  | pinSwitchSettled (n : Fin 128)
  /-- GPIO_READ (R287). -/
  | gpioRead (k : Fin 8) (ask : GpioAsk)
  /-- GPIO_SET (R287). -/
  | gpioSet (k : Fin 8) (word : Fin 4) (mask : BitVec 32)
  /-- GPIO_CLR (R287). -/
  | gpioClr (k : Fin 8) (word : Fin 4) (mask : BitVec 32)
  /-- GPIO_TOG (R287). -/
  | gpioTog (k : Fin 8) (word : Fin 4) (mask : BitVec 32)
  /-- GPIO_OESET (R287). -/
  | gpioOeset (k : Fin 8) (word : Fin 4) (mask : BitVec 32)
  /-- GPIO_OECLR (R287). -/
  | gpioOeclr (k : Fin 8) (word : Fin 4) (mask : BitVec 32)
  /-- GPIOSET (R292). -/
  | gpiosetWrite (k : Fin 4) (value : BitVec 32)
  /-- GPIOCLR (R292). -/
  | gpioclrWrite (k : Fin 4) (value : BitVec 32)
  /-- GPIOTOG (R292). -/
  | gpiotogWrite (k : Fin 4) (value : BitVec 32)
  /-- LINK_ENABLE (R295). -/
  | linkEnable (p : Fin 4)
  /-- RETRAIN (R295). -/
  | retrain (p : Fin 4)
  /-- LINK_LOSS (R295). -/
  | linkLoss (p : Fin 4)
  /-- ALIGNMENT_COMPLETE (R295). -/
  | alignmentComplete (p : Fin 4)
  /-- IDLE_BLOCK (R294). -/
  | idleBlock (block : StitchBlock)
  /-- STOMP (R299). -/
  | stomp (p : Fin 4)
  /-- START (R297). -/
  | startBlock (p : Fin 4) (frame : Frame)
  /-- ECHOREQ (R296). -/
  | echoreq (p : Fin 4) (t1 : BitVec 32)
  /-- ECHORSP (R296). -/
  | echorsp (p : Fin 4) (t1 : BitVec 32) (turn : BitVec 16) (crc : BitVec 8)
  /-- CREDIT (R300). -/
  | credit (p : Fin 4) (vcA : Fin 16) (freedA : BitVec 12) (vcB : Fin 16) (freedB : BitVec 12)
  /-- BEAM_MARKER (R314). -/
  | beamMarker (p : Fin 4) (tick : BitVec 14) (line : BitVec 14) (phase : BitVec 13) (frame : BitVec 6) (hold : Bool)
  /-- ALIGN (R294). -/
  | align (p : Fin 4)
  /-- ECHO_INTERVAL (R296). -/
  | echoInterval (p : Fin 4)
  /-- WRITE (R306). -/
  | write (p : Fin 4) (frame : Frame)
  /-- QPUSH (R306). -/
  | qpush (p : Fin 4) (frame : Frame)
  /-- EVENT (R306). -/
  | event (p : Fin 4) (frame : Frame)
  /-- LINEAHEAD (R318). -/
  | lineahead (p : Fin 4) (frame : Frame)
  /-- DELIVERY_PUSH_RETRY (R306). -/
  | deliveryPushRetry (p : Fin 4)
  /-- PRESS_FRAME (R320). -/
  | pressFrame (p : Fin 4) (frame : Frame)
  /-- HELLO (R309). -/
  | hello (p : Fin 4) (payload : BitVec 64)
  /-- WALLSYNC (R316). -/
  | wallsync (p : Fin 4) (word0 : BitVec 64) (word1 : BitVec 64)
  /-- ENUM (R310). -/
  | enum (p : Fin 4) (next : BitVec 16) (epoch : BitVec 16)
  /-- ENUMDONE (R310). -/
  | enumdone (p : Fin 4) (next : BitVec 16)
  /-- ENUMREJ (R310). -/
  | enumrej (p : Fin 4)
  /-- ROUTEANN (R307). -/
  | routeann (p : Fin 4) (src : BitVec 16) (reqenum : Bool)
  /-- REJOIN (R323). -/
  | rejoin (p : Fin 4) (code : BitVec 2)
  /-- FRAME_SELECT (R303). -/
  | frameSelect (p : Fin 4)
  /-- CREDIT_STARVATION (R301). -/
  | creditStarvation (p : Fin 4) (vc : Fin 16) (forwarded : Bool)
  /-- MARKER_TIMEOUT (R321). -/
  | markerTimeout
  /-- ENUM_COMMAND (R310). -/
  | enumCommand
  /-- RHO_ENABLE_CHANGE (R322). -/
  | rhoEnableChange (enable : Bool)
  /-- WPRESS (R320). -/
  | wpress (value : BitVec 64)
  /-- STITCH_WAKE_SIDEBAND (R367). -/
  | stitchWakeSideband (p : Fin 4)
  /-- REGISTER_WRITE (R411). -/
  | registerWrite (addr : BitVec 22) (be : BitVec 4) (data : BitVec 32)
  /-- PAIRED_LOW_HALF_WRITE (R413). -/
  | pairedLowHalfWrite (addr : BitVec 21) (data : BitVec 32)
  /-- UNLISTED_PAGE_ACCESS (R408). -/
  | unlistedPageAccess (access : RegAccess) (isWrite : Bool)
  /-- ACCESS_TIMEOUT (R330). -/
  | accessTimeout (addr : BitVec 22) (isWrite : Bool)
  /-- BANK_WINDOW_ACCESS (R332). -/
  | bankWindowAccess (addr : BitVec 23) (isWrite : Bool) (be : BitVec 4) (data : BitVec 32)
  /-- BANK_WINDOW_TIMEOUT (R332). -/
  | bankWindowTimeout (addr : BitVec 23) (isWrite : Bool)
  /-- HOST_DOORBELL (R331). -/
  | hostDoorbell (value : BitVec 6)
  /-- LP_RECORD_PRESENT (R339). -/
  | lpRecordPresent (p : Fin 16)
  /-- LP_READY (R339). -/
  | lpReady (p : Fin 16)
  /-- SAMPLE_TICK (R340). -/
  | sampleTick (k : Fin 8)
  /-- SOUND_RECORD_PRESENT (R341). -/
  | soundRecordPresent (snd : SoundAsk)
  /-- SOUND_UNDERRUN (R341). -/
  | soundUnderrun (k : Fin 8) (channel : Fin 8)
  /-- BLIT_ACCEPTANCE (R342). -/
  | blitAcceptance
  /-- BLIT_COMMAND_PRESENT (R342). -/
  | blitCommandPresent
  /-- BL_DONE (R344). -/
  | blDone
  /-- BLITGO_TIMEOUT (R343). -/
  | blitgoTimeout (c : Fin 1024)
  /-- PWRFAIL_TAKEN (R346). -/
  | pwrfailTaken
  /-- PWRFAIL_GLITCH (R346). -/
  | pwrfailGlitch
  /-- FLUSH_PORT_TRANSFER (R347). -/
  | flushPortTransfer
  /-- RAISE (R350). -/
  | raise (source : BitVec 11)
  /-- INTERRUPT_OFFER (R351). -/
  | interruptOffer
  /-- IV_ACK (R352). -/
  | ivAck (k : Fin 8)
  /-- IV_EOI (R352). -/
  | ivEoi (k : Fin 8)
  /-- CLRACT (R356). -/
  | clract (k : Fin 8)
  /-- MARCHTDR_UPDATE (R349). -/
  | marchtdrUpdate (value : BitVec 32)
  /-- TDR_CAPTURE (R349). -/
  | tdrCapture (sel : BitVec 2)
  /-- SCANTDR_UPDATE (R349). -/
  | scantdrUpdate
  /-- FSW_GO (R359). -/
  | fswGo (value : BitVec 64)
  /-- SYNTHESISER_LOCK (R359). -/
  | synthesiserLock
  /-- FCLK_SWITCH (R359). -/
  | fclkSwitch
  /-- FSW_ABORT (R360). -/
  | fswAbort
  /-- SCLK_LOST (R361). -/
  | sclkLost
  /-- DOMAIN_REQUEST_WRITE (R364). -/
  | domainRequestWrite (d : Fin 196) (req : BitVec 2) (auto : Bool) (lowret : Bool)
  /-- DOMAIN_LOWER (R364). -/
  | domainLower (d : Fin 196)
  /-- DEMAND_WAKE (R365). -/
  | demandWake (d : Fin 196) (kind : DemandKind)
  /-- DOMAIN_EXIT_COMPLETE (R363). -/
  | domainExitComplete (d : Fin 196)
  /-- KEEP_EXPIRY (R370). -/
  | keepExpiry (d : Fin 196)
  /-- FCLK_STOP (R371). -/
  | fclkStop
  /-- FCLK_RESTART (R371). -/
  | fclkRestart
  /-- PWRFAIL_EDGE_LATCH (R372). -/
  | pwrfailEdgeLatch
  /-- KRST_N_RELEASE (R374). -/
  | krstRelease
  /-- RST_N_RELEASE (R418). -/
  | rstRelease
  /-- MODE_WRITE (R376). -/
  | modeWrite (mode : BitVec 2)
  /-- TEST_MODE_CHANGE (R376). -/
  | testModeChange (level : Bool)
  /-- WATCHDOG_FIRE (R377). -/
  | watchdogFire
  /-- CST_WORD_COMMIT (R378). -/
  | cstWordCommit (q : Fin 32) (data2 : BitVec 64)
  /-- LOAD (R379). -/
  | load (q : Fin 32)
  /-- FOLIO_LOAD_COMPLETE (R379). -/
  | folioLoadComplete (q : Fin 32)
  /-- SCRUB_READ (R381). -/
  | scrubRead (q : Fin 32)
  /-- FOLIO_RELOAD_COMPLETE (R382). -/
  | folioReloadComplete (q : Fin 32)
  /-- RECORD_WRITE (R389). -/
  | recordWrite
  /-- SCLK_REFILL (R392). -/
  | sclkRefill (code : BitVec 10)
  /-- FREEZE (R393). -/
  | freeze
  /-- THAW (R393). -/
  | thaw
  /-- RDSEQ_WRITE (R394). -/
  | rdseqWrite (value : BitVec 48)
  /-- COL_FLUSH (R395). -/
  | colFlush
  /-- FLUSH_PUSH (R395). -/
  | flushPush
  /-- AUTH_WRITE (R398). -/
  | authWrite (value : BitVec 32)
  /-- CLEAR_WRITE (R398). -/
  | clearWrite (value : BitVec 32)
  /-- SEQBASE_WRITE (R399). -/
  | seqbaseWrite (value : BitVec 48)
  /-- DEFAULT_BASE (R399). -/
  | defaultBase
  /-- PRESS_TRIG (R400). -/
  | pressTrig
  /-- PRESS_ARM (R401). -/
  | pressArm
  /-- PRESS_LATCH (R402). -/
  | pressLatch
  /-- DOMAIN_ENTRY_COMPLETE (R363). -/
  | domainEntryComplete (d : Fin 196)
  /-- FCLK_RESTART_LOCK (R371). -/
  | fclkRestartLock
  /-- PWRFAIL_EDGE_GLITCH (R372). -/
  | pwrfailEdgeGlitch
  /-- RESET_ASSERTED (R373). -/
  | resetAsserted (cold : Bool)
  /-- PWRFAIL_FALL (R346). -/
  | pwrfailFall
  /-- DESCRIPTOR_WRITEBACK (R198). -/
  | descriptorWriteback (k : Fin 16)
  /-- EVENT_OUT_FALL (R283). -/
  | eventOutFall (n : Fin 128)
  deriving DecidableEq, Repr

end Sys2Proof
end

