-- ==== Sys2Proof/Decode.lean ====
section
/-! DEFINITION. The commands that words spell. The rows of spec/opcode_table.json give no bits: a command reaches the block as a signal,
an event or a register write, never as a word. No word spells one. -/

namespace Sys2Proof

/-- The command a table word spells: none, since no row of the table gives bits. -/
def decodeTableWord (_nbits _w : Nat) : Option Instr := none

end Sys2Proof
end

