-- ==== Sys2Proof/Machine/Bits.lean ====
section
/-! DEFINITION. Bit-field helpers shared by every family. Fields are read as numbers. -/

namespace Sys2Proof.Machine

/-- Bits [lo + width - 1 : lo] of a number. -/
def nfld (n lo width : Nat) : Nat := (n >>> lo) % 2 ^ width

/-- Bits [lo + width - 1 : lo] of a bit vector, as a number. -/
def fld {w : Nat} (x : BitVec w) (lo width : Nat) : Nat := nfld x.toNat lo width

/-- Bit `i` of a bit vector. -/
def bit {w : Nat} (x : BitVec w) (i : Nat) : Bool := x.getLsbD i

/-- The mask of a field. -/
def fmask (w lo width : Nat) : BitVec w := BitVec.ofNat w (2 ^ width - 1) <<< lo

/-- The bit vector with the field replaced by the low bits of `v`. -/
def setFld {w : Nat} (x : BitVec w) (lo width v : Nat) : BitVec w :=
  (x &&& ~~~ fmask w lo width) ||| ((BitVec.ofNat w v <<< lo) &&& fmask w lo width)

/-- 1 for true, 0 for false. -/
def b2n (b : Bool) : Nat := if b then 1 else 0

/-- A number's low `n` bits as a signed value. -/
def sval (n v : Nat) : Int := (BitVec.ofNat n v).toInt

/-- An integer's residue as a 64-bit word. -/
def wordOfInt (i : Int) : Word := BitVec.ofInt 64 i

/-- The low `n` bits of `v` sign-extended to 64 bits. -/
def sext (n v : Nat) : Word := (BitVec.ofNat n v).signExtend 64

/-- The bits of `x` in reverse order over `n` positions (bit k goes to n - 1 - k). -/
def revBits (n x : Nat) : Nat :=
  (List.range n).foldl (fun acc k => acc + (if x.testBit k then 2 ^ (n - 1 - k) else 0)) 0

/-- How many of the low `n` bits of `x` are 1. -/
def popBits (n x : Nat) : Nat := (List.range n).foldl (fun acc k => acc + (if x.testBit k then 1 else 0)) 0

/-- Bytes of a number, least significant first (R6). -/
def bytesOf (count : Nat) (v : Nat) : List Byte := (List.range count).map (fun i => BitVec.ofNat 8 (v >>> (8 * i)))

/-- The number that little-endian bytes spell (R6). -/
def ofBytes : List Byte → Nat
  | [] => 0
  | b :: bs => b.toNat + 256 * ofBytes bs

/-- The parity of the bits of `x` below `n`. -/
def parity (n x : Nat) : Bool := popBits n x % 2 == 1

/-- The least of a list of numbers, or `d` of the empty list. -/
def minD (d : Nat) : List Nat → Nat
  | [] => d
  | x :: xs => xs.foldl Nat.min x

end Sys2Proof.Machine
end

