-- ==== Sys2Proof/Machine/Flags.lean ====
section
/-! DEFINITION. What the datapath computes (R43-R46, R62-R81): the ALU with the C and V it offers, the shifter and bit-field
unit, multiply, divide, and the N and Z of a result. Everything is computed exactly on numbers and narrowed at the end. -/

namespace Sys2Proof.Machine

/-- What the ALU gives: the result zero-extended, the C and V it offers (none: offers none), whether it offers flags at all, and
whether DSEL may write (CMP and TST suppress it). -/
structure AluOut where
  res : Nat
  c : Option Bool
  v : Option Bool
  offers : Bool
  writes : Bool
  deriving DecidableEq, Repr

/-- Whether an exact signed value overflows `n` bits. -/
def sovf (n : Nat) (x : Int) : Bool := decide (x < -(2 ^ (n - 1) : Int)) || decide ((2 ^ (n - 1) : Int) ≤ x)

/-- An exact signed value clamped to `n` bits (R70), as an unsigned number. -/
def sclamp (n : Nat) (x : Int) : Nat :=
  if x < -(2 ^ (n - 1) : Int) then 2 ^ (n - 1) else if (2 ^ (n - 1) : Int) ≤ x then 2 ^ (n - 1) - 1 else (x % (2 ^ n : Int)).toNat

/-- A sum with carry in (R68): result, carry out, signed overflow. -/
def aluAdd (n a b cin : Nat) : AluOut :=
  ⟨(a + b + cin) % 2 ^ n, some (decide (2 ^ n ≤ a + b + cin)), some (sovf n (sval n a + sval n b + cin)), true, true⟩

/-- A difference with borrow in (R68): C is 1 when no borrow is needed. -/
def aluSub (n a b bin : Nat) : AluOut :=
  ⟨(a + 2 ^ n * 2 - b - bin) % 2 ^ n, some (decide (b + bin ≤ a)), some (sovf n (sval n a - sval n b - bin)), true, true⟩

/-- A result that keeps C and V (R68): it offers their values from before the word. -/
def aluKeep (r : Nat) (c v : Bool) : AluOut := ⟨r, some c, some v, true, true⟩

/-- The ALU operation of code `op` (0 to 31) at width `n` on operands below 2^n (R43, R68, R70). `c` and `v` are C and V before the word. -/
def aluAt (op n a b : Nat) (c v : Bool) : AluOut :=
  let keep := fun (r : Nat) => aluKeep r c v
  match op with
  | 0 => keep a
  | 1 => keep b
  | 2 => aluAdd n a b 0
  | 3 => aluAdd n a b (b2n c)
  | 4 => aluSub n a b 0
  | 5 => aluSub n a b (1 - b2n c)
  | 6 => aluSub n b a 0
  | 7 => aluSub n 0 a 0
  | 8 => keep (a &&& b)
  | 9 => keep (a ||| b)
  | 10 => keep (a ^^^ b)
  | 11 => keep (a &&& (2 ^ n - 1 - b))
  | 12 => keep (a ||| (2 ^ n - 1 - b))
  | 13 => keep (2 ^ n - 1 - (a ^^^ b))
  | 14 => keep (2 ^ n - 1 - a)
  | 15 => { aluSub n a b 0 with writes := false }
  | 16 => { keep (a &&& b) with writes := false }
  | 17 => keep (if sval n b < sval n a then b else a)
  | 18 => keep (if sval n a < sval n b then b else a)
  | 19 => keep (if b < a then b else a)
  | 20 => keep (if a < b then b else a)
  | 21 => { keep (if sval n a < 0 then 2 ^ n - a else a) with v := some (decide (a = 2 ^ (n - 1))) }
  | 22 => { aluAdd n a b 0 with res := sclamp n (sval n a + sval n b) }
  | 23 => { aluSub n a b 0 with res := sclamp n (sval n a - sval n b) }
  | 24 => { aluAdd n a b 0 with res := Nat.min (a + b) (2 ^ n - 1), v := some (decide (2 ^ n ≤ a + b)) }
  | 25 => { aluSub n a b 0 with res := a - b, v := some (decide (a < b)) }
  | 26 => aluAdd n a 1 0
  | 27 => aluSub n a 1 0
  | _ => keep (if c then a else b)

/-- The ALU (R43): code 0 and the reserved codes pass A and offer no flags; codes from 0x20 work on bits [31:0]. -/
def alu (op : Nat) (a b : Word) (c v : Bool) : AluOut :=
  if op = 0 ∨ 29 ≤ op % 32 then ⟨a.toNat, none, none, false, true⟩
  else if 32 ≤ op then aluAt (op - 32) 32 (a.toNat % 2 ^ 32) (b.toNat % 2 ^ 32) c v
  else aluAt op 64 a.toNat b.toNat c v

/-- A shift or rotate of an `n`-bit input by `k` (R71; at width `n` the thresholds are `n`, R81): the result, and the C it
offers, none for an amount of 0. Kinds: 0 left, 1 logical right, 2 arithmetic right, 3 rotate right. -/
def shiftAt (n kind x k : Nat) : Nat × Option Bool :=
  if k = 0 then (x, none)
  else
    let top := x.testBit (n - 1)
    match kind with
    | 0 => if k < n then ((x <<< k) % 2 ^ n, some (x.testBit (n - k))) else (0, some (k == n && x.testBit 0))
    | 1 => if k < n then (x >>> k, some (x.testBit (k - 1))) else (0, some (k == n && top))
    | 2 =>
      let sign := if top then 2 ^ n - 1 else 0
      if k < n then ((x >>> k) + (sign - sign >>> k), some (x.testBit (k - 1)))
      else (sign, some (k == n && top))
    | _ =>
      let r := k % n
      ((x >>> r) + (x <<< (n - r)) % 2 ^ n * (if r = 0 then 0 else 1),
        some (if k < n then x.testBit (k - 1) else k == n && top))

/-- A W-bit field at position P (R72): bits above 63 read as zero. -/
def extu (x p w : Nat) : Nat := (x >>> p) % 2 ^ w

/-- The same field sign-extended from its bit W - 1 (R72). -/
def exts (x p w : Nat) : Nat := (sext w (extu x p w)).toNat

/-- The low W bits of the input placed at P in the base; bits above 63 are discarded (R72). -/
def insertField (base x p w : Nat) : Nat := (setFld (BitVec.ofNat 64 base) p w x).toNat

/-- Leading zeros of an `n`-bit value, 0 to n (R73, R143). -/
def clz (n x : Nat) : Nat := if x = 0 then n else n - 1 - Nat.log2 x

/-- Bytes reversed over `n` bits (R73, R143). -/
def bswap (n x : Nat) : Nat := ofBytes (bytesOf (n / 8) x).reverse

/-- The shifter and bit-field unit (R44, R71-R73): result and the C it offers. `x` is the ALU result, `b` the B operand,
`p` SHAMT, `w` the field width, `base` INS's base. -/
def shifter (op x p : Nat) (b : Word) (w base : Nat) : Nat × Option Bool :=
  match op with
  | 0 => (x, none)
  | 9 => (extu x p w, none)
  | 10 => (exts x p w, none)
  | 11 => (insertField base x p w, none)
  | 12 => (clz 64 x, none)
  | 13 => (popBits 64 x, none)
  | 14 => (revBits 64 x, none)
  | 15 => (bswap 64 x, none)
  | op => if op ≤ 4 then shiftAt 64 (op - 1) x p else shiftAt 64 (op - 5) x (fld b 0 8)

/-- A product (R74): low and high halves. Codes 2 and 4 read the operands as signed. -/
def product (op : Nat) (a b : Word) : Word × Word :=
  if op = 2 ∨ op = 4 then
    let p := a.toInt * b.toInt
    (BitVec.ofInt 64 p, BitVec.ofInt 64 (p / 2 ^ 64))
  else
    let p := a.toNat * b.toNat
    (BitVec.ofNat 64 p, BitVec.ofNat 64 (p / 2 ^ 64))

/-- A divide at width `n` on operands below 2^n (R79, R81): quotient and remainder. -/
def divideAt (n : Nat) (signed : Bool) (a b : Nat) : Nat × Nat :=
  if signed then
    if b = 0 then (if sval n a < 0 then 2 ^ (n - 1) else 2 ^ (n - 1) - 1, a)
    else ((BitVec.ofInt n (Int.tdiv (sval n a) (sval n b))).toNat, (BitVec.ofInt n (Int.tmod (sval n a) (sval n b))).toNat)
  else if b = 0 then (2 ^ n - 1, a) else (a / b, a % b)

/-- A divide of 64-bit operands (R79). -/
def divide (signed : Bool) (a b : Word) : Word × Word :=
  let r := divideAt 64 signed a.toNat b.toNat
  (BitVec.ofNat 64 r.1, BitVec.ofNat 64 r.2)

/-- The divide of the most negative value by -1 (R69, R79). -/
def divOverflows (signed : Bool) (a b : Word) : Bool := signed && a == BitVec.ofNat 64 (2 ^ 63) && b == BitVec.allOnes 64

/-- N and Z of a result (R45): from bits [31:0] when `w32`. -/
def flagN (w32 : Bool) (x : Nat) : Bool := x.testBit (if w32 then 31 else 63)
def flagZ (w32 : Bool) (x : Nat) : Bool := x % 2 ^ (if w32 then 32 else 64) == 0

/-- What a word's ALU and shifter give before the multiply/divide unit (R62): the result, whether DSEL may write it, and
the flags offered. -/
structure DpOut where
  res : Nat
  writes : Bool
  n : Option Bool
  z : Option Bool
  c : Option Bool
  v : Option Bool
  deriving DecidableEq, Repr

/-- The ALU and shifter of one word (R45, R62, R63). -/
def datapath (aluop shop shamt width base : Nat) (a b : Word) (c v : Bool) : DpOut :=
  let o := alu aluop a b c v
  let sh := shifter shop o.res shamt b width base
  let w32 := shop == 0 && decide (32 ≤ aluop)
  let offered := o.offers || shop != 0
  ⟨sh.1, o.writes, if offered then some (flagN w32 sh.1) else none, if offered then some (flagZ w32 sh.1) else none,
    sh.2.or o.c, o.v⟩

end Sys2Proof.Machine
end

