-- ==== Sys2Proof/Machine/Micro.lean ====
section
/-! DEFINITION. The microword's fields (R25, R27) and what can be read off a word alone: its cycle length (R47), its
reserved encodings (R26), its access size (R48, R49). -/

namespace Sys2Proof.Machine

/-! The fields of R25. -/
def mSeq (w : Micro) : Nat := fld w 188 4
def mCond (w : Micro) : Nat := fld w 182 6
def mCpol (w : Micro) : Bool := bit w 181
def mTarget (w : Micro) : BitVec 14 := w.extractLsb' 167 14
def mCl (w : Micro) : Nat := fld w 165 2
def mPoll (w : Micro) : Bool := bit w 164
def mGuard (w : Micro) : Nat := fld w 160 4
def mAluop (w : Micro) : Nat := fld w 154 6
def mAreg (w : Micro) : Nat := fld w 150 4
def mBreg (w : Micro) : Nat := fld w 146 4
def mBsel (w : Micro) : Nat := fld w 143 3
def mDreg (w : Micro) : Nat := fld w 139 4
def mDsel (w : Micro) : Nat := fld w 136 3
def mShop (w : Micro) : Nat := fld w 132 4
def mShamt (w : Micro) : Nat := fld w 126 6
def mFlagw (w : Micro) : Nat := fld w 122 4
def mMduop (w : Micro) : Nat := fld w 118 4
def mMemop (w : Micro) : Nat := fld w 114 4
def mMemar (w : Micro) : Nat := fld w 112 2
def mAmod (w : Micro) : Nat := fld w 109 3
def mQop (w : Micro) : Nat := fld w 105 4
def mQsrc (w : Micro) : Bool := bit w 104
def mEvop (w : Micro) : Nat := fld w 100 4
def mXop (w : Micro) : Nat := fld w 96 4
def mLcop (w : Micro) : Nat := fld w 93 3
def mPset (w : Micro) : Nat := fld w 89 4
def mMbz (w : Micro) : Nat := fld w 64 25
def mImm (w : Micro) : Word := w.extractLsb' 0 64

/-! The slices of IMM (R27). -/
def iQueue (w : Micro) : Nat := fld w 0 14
def iEvent (w : Micro) : BitVec 12 := w.extractLsb' 16 12
def iClass (w : Micro) : Nat := fld w 32 4
def iCode (w : Micro) : Nat := fld w 32 10
def iWidth (w : Micro) : Nat := if fld w 42 6 = 0 then 64 else fld w 42 6
def iStep (w : Micro) : BitVec 16 := w.extractLsb' 48 16

/-- Whether SEQ names a form that uses the condition (R28). -/
def seqUsesCond (q : Nat) : Bool := q == 2 || q == 3 || q == 5 || q == 6 || q == 10

/-- Whether a condition code is reserved (R37). -/
def condReserved (c : Nat) : Bool := decide (58 ≤ c ∧ c ≤ 62)

/-- Whether a word evaluates its COND at all: for its sequencing, or for PSET (R29, R55). -/
def mUsesCond (w : Micro) : Bool := seqUsesCond (mSeq w) || decide (2 ≤ mPset w)

/-- The least cycle length of a multiply or divide operation (R47). -/
def minCl (mduop : Nat) : Nat := if mduop = 1 ∨ mduop = 2 ∨ mduop = 3 then 2 else if mduop = 4 ∨ mduop = 5 then 4 else 1

/-- The cycle length a word executes with (R47). -/
def effCl (w : Micro) : Nat := Nat.max (mCl w + 1) (minCl (mMduop w))

/-- The access size of a bank operation in bytes; 8 for NONE (R48, R49). -/
def memSize (memop : Nat) : Nat :=
  match memop with
  | 2 => 4 | 3 => 2 | 4 => 1 | 5 => 4 | 6 => 2 | 7 => 1 | 9 => 4 | 10 => 2 | 11 => 1 | _ => 8

/-- MEMOP kinds (R48). -/
def memIsLoad (m : Nat) : Bool := decide (1 ≤ m ∧ m ≤ 7)
def memIsStore (m : Nat) : Bool := decide (8 ≤ m ∧ m ≤ 11)
def memIsAtomic (m : Nat) : Bool := m == 12 || m == 13
def memFills (m : Nat) : Bool := memIsLoad m || memIsAtomic m
def memActs (m : Nat) : Bool := memFills m || memIsStore m

/-- Whether an ALU code is reserved (R43). -/
def aluReserved (a : Nat) : Bool := decide (29 ≤ a % 32)

/-- Whether an event operation takes its number from the B operand, and the operation it then performs (R51). -/
def evFromB (e : Nat) : Bool := decide (9 ≤ e ∧ e ≤ 14)
def evBase (e : Nat) : Nat :=
  match e with
  | 9 => 1 | 10 => 2 | 11 => 3 | 12 => 5 | 13 => 6 | 14 => 7 | 8 => 0 | 15 => 0 | e => e

/-- The event number an event operation names (R51). -/
def evNumber (w : Micro) (b : Word) : BitVec 12 := if evFromB (mEvop w) then b.extractLsb' 0 12 else iEvent w

/-- Whether an event operation names an event it may not (R51): SIGNAL outside 0x400 to 0x7FF, any operation from 0xC80 on. WCLR needs
no event, and the spec does not say whether its IMM[27:16] names one: DESIGN CHOICE, it clears the mask uncounted whatever stands
there (log entry 62). -/
def evRefused (op : Nat) (ev : BitVec 12) : Bool :=
  op != 0 && op != 4 && (decide (0xC80 ≤ ev.toNat) || (op == 1 && !decide (0x400 ≤ ev.toNat ∧ ev.toNat ≤ 0x7FF)))

/-- Whether the LOOP and LCOP of a word name the same counter (R54). -/
def lcConflict (w : Micro) : Bool :=
  mSeq w == 9 && (if mCpol w then mLcop w == 2 || mLcop w == 4 else mLcop w == 1 || mLcop w == 3)

/-- Whether an encoding of the word is reserved, or its CL is below what R47 asks (R26, R29, R33, R47, R54, R55). -/
def encReserved (w : Micro) : Bool :=
  decide (12 ≤ mSeq w) ||
  ((seqUsesCond (mSeq w) || decide (2 ≤ mPset w)) && condReserved (mCond w)) ||
  (mSeq w == 8 && !decide (1 ≤ mCond w ∧ mCond w ≤ 14)) ||
  mPset w == 1 || aluReserved (mAluop w) || decide (5 ≤ mDsel w) || decide (11 ≤ mMduop w) ||
  decide (mCl w + 1 < minCl (mMduop w)) || decide (14 ≤ mMemop w) || mAmod w == 7 || decide (7 ≤ mQop w) ||
  mEvop w == 8 || mEvop w == 15 || decide (6 ≤ mXop w) || decide (5 ≤ mLcop w) || lcConflict w || mMbz w != 0

/-- Whether a word names an operation that its own values forbid (R51, R52): an event operation on an event it may not name, a
FAULT of another class. -/
def nameRefused (w : Micro) (b : Word) : Bool :=
  evRefused (evBase (mEvop w)) (evNumber w b) || (mXop w == 5 && !(iClass w == 2 || iClass w == 3))

/-- Whether a word whose guard passes names an operation that cannot take place and is counted (R42, R51, R52): a DSEL write
to a read-only or reserved special register, or an operation that its own values forbid. -/
def opRefused (w : Micro) (b : Word) : Bool :=
  (mDsel w == 4 && mAluop w % 32 != 15 && mAluop w % 32 != 16 && (mDreg w == 0 || decide (12 ≤ mDreg w))) || nameRefused w b

end Sys2Proof.Machine
end

