-- ==== Sys2Proof/Machine/RegTable.lean ====
section
/-! DEFINITION. The register tables of the chapters, one list per kind of page: offset, fields with access, reset value
and legal values (R406, R407, R409, and each chapter's own table). A register listed here has its home in `State.regs`;
registers whose value is a view of typed state (a context's latches, the beam position) are not listed here. -/

namespace Sys2Proof.Machine

/-- Access kinds of a register field (R410). -/
inductive Access where
  | rw | ro | wo | w1c | w1s
  deriving DecidableEq, Repr

/-- One field: position, access, reset value, legal ranges (empty: every value is legal). -/
structure FieldSpec where
  lo : Nat
  width : Nat
  acc : Access
  reset : Nat
  ok : List (Nat × Nat)
  deriving DecidableEq, Repr

/-- One register or array of registers of a page. -/
structure RegSpec where
  off : Nat
  stride : Nat
  count : Nat
  paired : Bool
  fields : List FieldSpec
  deriving DecidableEq, Repr

/-- The kinds of register pages (R407). -/
inductive PageKind where
  | blk | pwr | prs | col | int | intk | intsrc | qui | cst | qmg | qsl | qd | dma | bnk | beam | tmr | pio | piog | pin | sti | rho | bnd | ctx
  deriving DecidableEq, Repr

/-- BLK.ERRCNT (15 R409, R416). -/
def blkRErrcnt32 : RegSpec := ⟨32, 0, 1, false,
  ([⟨0, 32, .rw, 0, []⟩])⟩

/-- BLK.REJCNT (15 R416). -/
def blkRRejcnt40 : RegSpec := ⟨40, 0, 1, false,
  ([⟨0, 32, .rw, 0, []⟩])⟩

/-- BLK.MODE (13 R376). -/
def blkRMode256 : RegSpec := ⟨256, 0, 1, false,
  ([⟨0, 2, .rw, 0, []⟩])⟩

/-- BLK.UNLIST (15 R416). -/
def blkRUnlist280 : RegSpec := ⟨280, 0, 1, false,
  ([⟨0, 12, .ro, 0, []⟩, ⟨12, 1, .ro, 0, []⟩])⟩

/-- BLK.GSTART (08 R234). -/
def blkRGstart384 : RegSpec := ⟨384, 0, 1, false,
  ([⟨0, 8, .wo, 0, []⟩])⟩

/-- The registers of a BLK page. -/
def blkRegs : List RegSpec := [blkRErrcnt32, blkRRejcnt40, blkRMode256, blkRUnlist280, blkRGstart384]

/-- PWR.ERRCNT (15 R409). -/
def pwrRErrcnt32 : RegSpec := ⟨32, 0, 1, false,
  ([⟨0, 32, .rw, 0, []⟩])⟩

/-- PWR.REJCNT (15 R409). -/
def pwrRRejcnt40 : RegSpec := ⟨40, 0, 1, false,
  ([⟨0, 32, .rw, 0, []⟩])⟩

/-- PWR.CTRL (13 R385). -/
def pwrRCtrl8 : RegSpec := ⟨8, 0, 1, false,
  ([⟨0, 1, .rw, 0, []⟩])⟩

/-- PWR.STATUS (13 R385). -/
def pwrRStatus16 : RegSpec := ⟨16, 0, 1, false,
  ([⟨0, 1, .ro, 1, []⟩, ⟨1, 1, .ro, 0, []⟩, ⟨2, 1, .ro, 0, []⟩, ⟨3, 1, .w1c, 0, []⟩, ⟨4, 1, .w1c, 0, []⟩, ⟨5, 1, .w1c, 0, []⟩, ⟨6, 1, .w1c, 0, []⟩])⟩

/-- PWR.EVEN (13 R385). -/
def pwrREven24 : RegSpec := ⟨24, 0, 1, false,
  ([⟨0, 12, .rw, 1024, [(1024, 2047)]⟩, ⟨12, 1, .rw, 0, []⟩, ⟨13, 1, .rw, 0, []⟩, ⟨14, 1, .rw, 0, []⟩])⟩

/-- PWR.LOCK (13 R385). -/
def pwrRLock48 : RegSpec := ⟨48, 0, 1, false,
  ([⟨0, 1, .w1s, 0, []⟩, ⟨1, 1, .w1s, 0, []⟩])⟩

/-- PWR.LW (13 R385). -/
def pwrRLw64 : RegSpec := ⟨64, 0, 1, false,
  ([⟨0, 32, .rw, 0, []⟩, ⟨32, 8, .ro, 0, []⟩])⟩

/-- PWR.WDOG (13 R385). -/
def pwrRWdog72 : RegSpec := ⟨72, 0, 1, false,
  ([⟨0, 12, .rw, 1024, [(0, 3199)]⟩, ⟨12, 1, .rw, 0, []⟩, ⟨16, 16, .rw, 32768, [(1, 65535)]⟩])⟩

/-- PWR.IDLEDLY (13 R385). -/
def pwrRIdledly256 : RegSpec := ⟨256, 0, 1, false,
  ([⟨0, 24, .rw, 4096, []⟩])⟩

/-- PWR.FSW (13 R385). -/
def pwrRFsw264 : RegSpec := ⟨264, 0, 1, true,
  ([⟨0, 10, .rw, 0, []⟩, ⟨10, 12, .rw, 897, [(0, 3199)]⟩, ⟨22, 1, .rw, 0, []⟩, ⟨23, 1, .rw, 0, []⟩, ⟨24, 1, .wo, 0, []⟩, ⟨25, 1, .wo, 0, []⟩])⟩

/-- PWR.FSWTICK (13 R385). -/
def pwrRFswtick272 : RegSpec := ⟨272, 0, 1, true,
  ([⟨0, 40, .rw, 134217728, []⟩])⟩

/-- PWR.DOM (13 R364, R385). -/
def pwrRDom512 : RegSpec := ⟨512, 8, 25, false,
  ([⟨0, 2, .rw, 0, []⟩, ⟨2, 1, .rw, 0, []⟩, ⟨3, 1, .rw, 0, []⟩, ⟨4, 2, .ro, 0, []⟩, ⟨6, 1, .ro, 0, []⟩, ⟨7, 1, .w1c, 0, []⟩, ⟨8, 2, .rw, 0, []⟩, ⟨10, 1, .rw, 0, []⟩, ⟨11, 1, .rw, 0, []⟩, ⟨12, 2, .ro, 0, []⟩, ⟨14, 1, .ro, 0, []⟩, ⟨15, 1, .w1c, 0, []⟩, ⟨16, 2, .rw, 0, []⟩, ⟨18, 1, .rw, 0, []⟩, ⟨19, 1, .rw, 0, []⟩, ⟨20, 2, .ro, 0, []⟩] ++
   [⟨22, 1, .ro, 0, []⟩, ⟨23, 1, .w1c, 0, []⟩, ⟨24, 2, .rw, 0, []⟩, ⟨26, 1, .rw, 0, []⟩, ⟨27, 1, .rw, 0, []⟩, ⟨28, 2, .ro, 0, []⟩, ⟨30, 1, .ro, 0, []⟩, ⟨31, 1, .w1c, 0, []⟩, ⟨32, 2, .rw, 0, []⟩, ⟨34, 1, .rw, 0, []⟩, ⟨35, 1, .rw, 0, []⟩, ⟨36, 2, .ro, 0, []⟩, ⟨38, 1, .ro, 0, []⟩, ⟨39, 1, .w1c, 0, []⟩, ⟨40, 2, .rw, 0, []⟩, ⟨42, 1, .rw, 0, []⟩] ++
   [⟨43, 1, .rw, 0, []⟩, ⟨44, 2, .ro, 0, []⟩, ⟨46, 1, .ro, 0, []⟩, ⟨47, 1, .w1c, 0, []⟩, ⟨48, 2, .rw, 0, []⟩, ⟨50, 1, .rw, 0, []⟩, ⟨51, 1, .rw, 0, []⟩, ⟨52, 2, .ro, 0, []⟩, ⟨54, 1, .ro, 0, []⟩, ⟨55, 1, .w1c, 0, []⟩, ⟨56, 2, .rw, 0, []⟩, ⟨58, 1, .rw, 0, []⟩, ⟨59, 1, .rw, 0, []⟩, ⟨60, 2, .ro, 0, []⟩, ⟨62, 1, .ro, 0, []⟩, ⟨63, 1, .w1c, 0, []⟩])⟩

/-- PWR.WAKE (13 R367). -/
def pwrRWake1024 : RegSpec := ⟨1024, 8, 64, true,
  ([⟨0, 3, .rw, 0, [(0, 6)]⟩, ⟨3, 1, .rw, 0, []⟩, ⟨4, 1, .rw, 0, []⟩, ⟨8, 8, .rw, 0, []⟩, ⟨16, 8, .rw, 0, []⟩, ⟨24, 12, .rw, 0, []⟩, ⟨36, 14, .rw, 0, []⟩, ⟨50, 14, .rw, 0, []⟩])⟩

/-- PWR.KCTRL (08 R239). -/
def pwrRKctrl3072 : RegSpec := ⟨3072, 32, 8, false,
  ([⟨0, 1, .rw, 0, []⟩, ⟨1, 1, .rw, 0, []⟩, ⟨2, 1, .rw, 0, []⟩, ⟨3, 1, .w1c, 0, []⟩])⟩

/-- PWR.KCOUNT (08 R239). -/
def pwrRKcount3080 : RegSpec := ⟨3080, 32, 8, false,
  ([⟨0, 32, .rw, 0, []⟩])⟩

/-- PWR.KCMP (08 R239). -/
def pwrRKcmp3088 : RegSpec := ⟨3088, 32, 8, false,
  ([⟨0, 32, .rw, 4294967295, []⟩])⟩

/-- PWR.KINT (08 R239). -/
def pwrRKint3096 : RegSpec := ⟨3096, 32, 8, false,
  ([⟨0, 32, .rw, 0, []⟩])⟩

/-- The registers of a PWR page. -/
def pwrRegs : List RegSpec := [pwrRErrcnt32, pwrRRejcnt40, pwrRCtrl8, pwrRStatus16, pwrREven24, pwrRLock48, pwrRLw64, pwrRWdog72, pwrRIdledly256, pwrRFsw264, pwrRFswtick272, pwrRDom512, pwrRWake1024, pwrRKctrl3072, pwrRKcount3080, pwrRKcmp3088, pwrRKint3096]

/-- PRS.ERRCNT (15 R409). -/
def prsRErrcnt32 : RegSpec := ⟨32, 0, 1, false,
  ([⟨0, 32, .rw, 0, []⟩])⟩

/-- PRS.REJCNT (15 R409). -/
def prsRRejcnt40 : RegSpec := ⟨40, 0, 1, false,
  ([⟨0, 32, .rw, 0, []⟩])⟩

/-- PRS.CTRL (14 R405). -/
def prsRCtrl8 : RegSpec := ⟨8, 0, 1, false,
  ([⟨0, 1, .rw, 0, []⟩, ⟨1, 1, .wo, 0, []⟩, ⟨2, 1, .wo, 0, []⟩, ⟨3, 1, .rw, 0, []⟩, ⟨8, 1, .rw, 1, []⟩, ⟨9, 1, .rw, 0, []⟩, ⟨10, 1, .rw, 0, []⟩, ⟨11, 1, .rw, 0, []⟩, ⟨12, 1, .rw, 1, []⟩])⟩

/-- PRS.STATUS (14 R405). -/
def prsRStatus16 : RegSpec := ⟨16, 0, 1, false,
  ([⟨0, 1, .ro, 1, []⟩, ⟨1, 1, .w1c, 0, []⟩])⟩

/-- PRS.EVEN (14 R405). -/
def prsREven24 : RegSpec := ⟨24, 0, 1, false,
  ([⟨0, 12, .rw, 1024, [(1024, 2047)]⟩, ⟨12, 1, .rw, 0, []⟩])⟩

/-- PRS.LOCK (14 R405). -/
def prsRLock48 : RegSpec := ⟨48, 0, 1, false,
  ([⟨0, 1, .w1s, 0, []⟩])⟩

/-- PRS.PSEQ (14 R405). -/
def prsRPseq56 : RegSpec := ⟨56, 0, 1, false,
  ([⟨0, 48, .ro, 0, []⟩, ⟨48, 4, .ro, 0, []⟩])⟩

/-- PRS.MISS (14 R405). -/
def prsRMiss64 : RegSpec := ⟨64, 0, 1, false,
  ([⟨0, 32, .rw, 0, []⟩, ⟨32, 32, .rw, 0, []⟩])⟩

/-- PRS.PEVSRC (14 R405). -/
def prsRPevsrc256 : RegSpec := ⟨256, 0, 1, false,
  ([⟨0, 12, .rw, 1024, [(0, 3199)]⟩])⟩

/-- PRS.PBCMP (14 R405). -/
def prsRPbcmp264 : RegSpec := ⟨264, 0, 1, false,
  ([⟨0, 5, .rw, 0, []⟩])⟩

/-- PRS.PFCLS (14 R405). -/
def prsRPfcls272 : RegSpec := ⟨272, 0, 1, false,
  ([⟨1, 9, .rw, 0, []⟩])⟩

/-- The registers of a PRS page. -/
def prsRegs : List RegSpec := [prsRErrcnt32, prsRRejcnt40, prsRCtrl8, prsRStatus16, prsREven24, prsRLock48, prsRPseq56, prsRMiss64, prsRPevsrc256, prsRPbcmp264, prsRPfcls272]

/-- COL.ERRCNT (15 R409). -/
def colRErrcnt32 : RegSpec := ⟨32, 0, 1, false,
  ([⟨0, 32, .rw, 0, []⟩])⟩

/-- COL.REJCNT (15 R409). -/
def colRRejcnt40 : RegSpec := ⟨40, 0, 1, false,
  ([⟨0, 32, .rw, 0, []⟩])⟩

/-- COL.CTRL (14 R404). -/
def colRCtrl8 : RegSpec := ⟨8, 0, 1, false,
  ([⟨0, 1, .rw, 0, []⟩, ⟨1, 1, .wo, 0, []⟩])⟩

/-- COL.STATUS (14 R404). -/
def colRStatus16 : RegSpec := ⟨16, 0, 1, false,
  ([⟨0, 1, .ro, 0, []⟩, ⟨1, 1, .ro, 0, []⟩, ⟨2, 1, .ro, 0, []⟩, ⟨3, 1, .w1c, 0, []⟩, ⟨4, 1, .w1c, 0, []⟩, ⟨5, 1, .ro, 0, []⟩, ⟨6, 1, .ro, 0, []⟩])⟩

/-- COL.EVEN (14 R404). -/
def colREven24 : RegSpec := ⟨24, 0, 1, false,
  ([⟨0, 12, .rw, 1024, [(1024, 2047)]⟩, ⟨12, 1, .rw, 0, []⟩, ⟨13, 1, .rw, 0, []⟩, ⟨14, 1, .rw, 0, []⟩])⟩

/-- COL.LOCK (14 R404). -/
def colRLock48 : RegSpec := ⟨48, 0, 1, false,
  ([⟨0, 1, .w1s, 0, []⟩])⟩

/-- COL.SEQ (14 R404). -/
def colRSeq56 : RegSpec := ⟨56, 0, 1, false,
  ([⟨0, 48, .ro, 0, []⟩])⟩

/-- COL.FLSEQ (14 R404). -/
def colRFlseq64 : RegSpec := ⟨64, 0, 1, false,
  ([⟨0, 48, .ro, 0, []⟩])⟩

/-- COL.PUSHSEQ (14 R404). -/
def colRPushseq72 : RegSpec := ⟨72, 0, 1, false,
  ([⟨0, 48, .ro, 0, []⟩])⟩

/-- COL.SUPTOT (14 R404). -/
def colRSuptot80 : RegSpec := ⟨80, 0, 1, false,
  ([⟨0, 32, .rw, 0, []⟩, ⟨32, 32, .rw, 0, []⟩])⟩

/-- COL.OVWR (14 R404). -/
def colROvwr88 : RegSpec := ⟨88, 0, 1, false,
  ([⟨0, 32, .rw, 0, []⟩, ⟨32, 16, .rw, 0, []⟩, ⟨48, 16, .rw, 0, []⟩])⟩

/-- COL.FRZ (14 R404). -/
def colRFrz96 : RegSpec := ⟨96, 0, 1, false,
  ([⟨0, 32, .ro, 0, []⟩, ⟨32, 32, .ro, 0, []⟩])⟩

/-- COL.FLWM (14 R404). -/
def colRFlwm256 : RegSpec := ⟨256, 0, 1, false,
  ([⟨0, 13, .rw, 0, [(0, 4096)]⟩])⟩

/-- COL.FLCLS (14 R404). -/
def colRFlcls264 : RegSpec := ⟨264, 0, 1, false,
  ([⟨1, 9, .rw, 511, []⟩])⟩

/-- COL.AUTH (14 R404). -/
def colRAuth272 : RegSpec := ⟨272, 0, 1, false,
  ([⟨0, 32, .wo, 0, []⟩])⟩

/-- COL.CLEAR (14 R404). -/
def colRClear280 : RegSpec := ⟨280, 0, 1, false,
  ([⟨0, 32, .wo, 0, []⟩])⟩

/-- COL.SEQBASE (14 R404). -/
def colRSeqbase288 : RegSpec := ⟨288, 0, 1, true,
  ([⟨0, 48, .rw, 0, []⟩])⟩

/-- COL.RDSEQ (14 R404). -/
def colRRdseq296 : RegSpec := ⟨296, 0, 1, true,
  ([⟨0, 48, .rw, 0, []⟩])⟩

/-- COL.RDSTAT (14 R404). -/
def colRRdstat304 : RegSpec := ⟨304, 0, 1, false,
  ([⟨0, 1, .ro, 0, []⟩, ⟨1, 1, .ro, 0, []⟩])⟩

/-- COL.RDREC (14 R404). -/
def colRRdrec312 : RegSpec := ⟨312, 8, 4, false,
  ([⟨0, 64, .ro, 0, []⟩])⟩

/-- COL.RATE (14 R392, R404). -/
def colRRate512 : RegSpec := ⟨512, 8, 256, false,
  ([⟨0, 8, .rw, 16, []⟩, ⟨8, 4, .rw, 15, []⟩, ⟨12, 2, .rw, 2, [(0, 2)]⟩, ⟨16, 8, .rw, 16, []⟩, ⟨24, 4, .rw, 15, []⟩, ⟨28, 2, .rw, 2, [(0, 2)]⟩, ⟨32, 8, .rw, 16, []⟩, ⟨40, 4, .rw, 15, []⟩, ⟨44, 2, .rw, 2, [(0, 2)]⟩, ⟨48, 8, .rw, 16, []⟩, ⟨56, 4, .rw, 15, []⟩, ⟨60, 2, .rw, 2, [(0, 2)]⟩])⟩

/-- COL.SUPP (14 R404). -/
def colRSupp2560 : RegSpec := ⟨2560, 8, 128, false,
  ([⟨0, 8, .rw, 0, []⟩, ⟨8, 8, .rw, 0, []⟩, ⟨16, 8, .rw, 0, []⟩, ⟨24, 8, .rw, 0, []⟩, ⟨32, 8, .rw, 0, []⟩, ⟨40, 8, .rw, 0, []⟩, ⟨48, 8, .rw, 0, []⟩, ⟨56, 8, .rw, 0, []⟩])⟩

/-- The registers of a COL page. -/
def colRegs : List RegSpec := [colRErrcnt32, colRRejcnt40, colRCtrl8, colRStatus16, colREven24, colRLock48, colRSeq56, colRFlseq64, colRPushseq72, colRSuptot80, colROvwr88, colRFrz96, colRFlwm256, colRFlcls264, colRAuth272, colRClear280, colRSeqbase288, colRRdseq296, colRRdstat304, colRRdrec312, colRRate512, colRSupp2560]

/-- INT.ERRCNT (15 R409). -/
def intRErrcnt32 : RegSpec := ⟨32, 0, 1, false,
  ([⟨0, 32, .rw, 0, []⟩])⟩

/-- INT.REJCNT (15 R409). -/
def intRRejcnt40 : RegSpec := ⟨40, 0, 1, false,
  ([⟨0, 32, .rw, 0, []⟩])⟩

/-- INT.CTRL (12 R356). -/
def intRCtrl8 : RegSpec := ⟨8, 0, 1, false,
  ([⟨0, 1, .rw, 0, []⟩])⟩

/-- INT.LOCK (12 R356). -/
def intRLock48 : RegSpec := ⟨48, 0, 1, false,
  ([⟨0, 1, .w1s, 0, []⟩])⟩

/-- INT.RAISE (12 R356). -/
def intRRaise256 : RegSpec := ⟨256, 0, 1, false,
  ([⟨0, 11, .wo, 0, []⟩])⟩

/-- INT.MERGECNT (12 R356). -/
def intRMergecnt264 : RegSpec := ⟨264, 0, 1, false,
  ([⟨0, 32, .rw, 0, []⟩])⟩

/-- The registers of a INT page. -/
def intRegs : List RegSpec := [intRErrcnt32, intRRejcnt40, intRCtrl8, intRLock48, intRRaise256, intRMergecnt264]

/-- INTK.ERRCNT (15 R409). -/
def intkRErrcnt32 : RegSpec := ⟨32, 0, 1, false,
  ([⟨0, 32, .rw, 0, []⟩])⟩

/-- INTK.REJCNT (15 R409). -/
def intkRRejcnt40 : RegSpec := ⟨40, 0, 1, false,
  ([⟨0, 32, .rw, 0, []⟩])⟩

/-- INTK.CTRL (12 R356). -/
def intkRCtrl8 : RegSpec := ⟨8, 0, 1, false,
  ([⟨0, 1, .rw, 0, []⟩, ⟨4, 4, .rw, 0, []⟩])⟩

/-- INTK.STATUS (12 R356). -/
def intkRStatus16 : RegSpec := ⟨16, 0, 1, false,
  ([⟨0, 4, .ro, 0, []⟩, ⟨4, 1, .ro, 0, []⟩, ⟨16, 16, .ro, 0, []⟩, ⟨32, 11, .ro, 0, []⟩])⟩

/-- INTK.ACKCNT (12 R356). -/
def intkRAckcnt256 : RegSpec := ⟨256, 0, 1, false,
  ([⟨0, 32, .rw, 0, []⟩])⟩

/-- INTK.WDRCNT (12 R356). -/
def intkRWdrcnt264 : RegSpec := ⟨264, 0, 1, false,
  ([⟨0, 32, .rw, 0, []⟩])⟩

/-- INTK.CLRACT (12 R356). -/
def intkRClract272 : RegSpec := ⟨272, 0, 1, false,
  ([⟨0, 1, .wo, 0, []⟩])⟩

/-- The registers of a INTK page. -/
def intkRegs : List RegSpec := [intkRErrcnt32, intkRRejcnt40, intkRCtrl8, intkRStatus16, intkRAckcnt256, intkRWdrcnt264, intkRClract272]

/-- INTSRC.ERRCNT (15 R409). -/
def intsrcRErrcnt32 : RegSpec := ⟨32, 0, 1, false,
  ([⟨0, 32, .rw, 0, []⟩])⟩

/-- INTSRC.REJCNT (15 R409). -/
def intsrcRRejcnt40 : RegSpec := ⟨40, 0, 1, false,
  ([⟨0, 32, .rw, 0, []⟩])⟩

/-- INTSRC.SRC (12 R356). -/
def intsrcRSrc256 : RegSpec := ⟨256, 8, 256, true,
  ([⟨0, 32, .rw, 0, []⟩, ⟨32, 4, .rw, 0, []⟩, ⟨40, 8, .rw, 0, []⟩, ⟨48, 1, .w1c, 0, []⟩, ⟨49, 1, .ro, 0, []⟩])⟩

/-- The registers of a INTSRC page. -/
def intsrcRegs : List RegSpec := [intsrcRErrcnt32, intsrcRRejcnt40, intsrcRSrc256]

/-- QUI.ERRCNT (15 R409). -/
def quiRErrcnt32 : RegSpec := ⟨32, 0, 1, false,
  ([⟨0, 32, .rw, 0, []⟩])⟩

/-- QUI.REJCNT (15 R409). -/
def quiRRejcnt40 : RegSpec := ⟨40, 0, 1, false,
  ([⟨0, 32, .rw, 0, []⟩])⟩

/-- QUI.LOCK (04 R97, 05 R140). -/
def quiRLock48 : RegSpec := ⟨48, 0, 1, false,
  ([⟨0, 1, .w1s, 0, []⟩, ⟨1, 1, .w1s, 0, []⟩])⟩

/-- QUI.RSVCNT (02 R61). -/
def quiRRsvcnt256 : RegSpec := ⟨256, 0, 1, false,
  ([⟨0, 32, .rw, 0, []⟩, ⟨32, 14, .ro, 0, []⟩])⟩

/-- QUI.CSERR (02 R61). -/
def quiRCserr264 : RegSpec := ⟨264, 0, 1, false,
  ([⟨0, 32, .rw, 0, []⟩, ⟨32, 16, .rw, 0, []⟩, ⟨48, 14, .ro, 0, []⟩])⟩

/-- QUI.SEQERR (02 R61). -/
def quiRSeqerr272 : RegSpec := ⟨272, 0, 1, false,
  ([⟨0, 16, .rw, 0, []⟩, ⟨16, 16, .rw, 0, []⟩, ⟨32, 16, .rw, 0, []⟩, ⟨48, 16, .rw, 0, []⟩])⟩

/-- QUI.RRSTART (04 R96). -/
def quiRRrstart280 : RegSpec := ⟨280, 0, 1, false,
  ([⟨0, 5, .ro, 0, []⟩])⟩

/-- QUI.FECNT (05 R151). -/
def quiRFecnt288 : RegSpec := ⟨288, 0, 1, false,
  ([⟨0, 16, .rw, 0, []⟩, ⟨16, 16, .rw, 0, []⟩, ⟨32, 16, .rw, 0, []⟩])⟩

/-- QUI.SLOT (04 R94). -/
def quiRSlot512 : RegSpec := ⟨512, 8, 64, false,
  ([⟨0, 2, .rw, 0, [(0, 2)]⟩, ⟨2, 5, .rw, 0, []⟩, ⟨7, 1, .rw, 1, []⟩, ⟨8, 3, .rw, 0, []⟩])⟩

/-- The registers of a QUI page. -/
def quiRegs : List RegSpec := [quiRErrcnt32, quiRRejcnt40, quiRLock48, quiRRsvcnt256, quiRCserr264, quiRSeqerr272, quiRRrstart280, quiRFecnt288, quiRSlot512]

/-- CST.ERRCNT (15 R409). -/
def cstRErrcnt32 : RegSpec := ⟨32, 0, 1, false,
  ([⟨0, 32, .rw, 0, []⟩])⟩

/-- CST.REJCNT (15 R409). -/
def cstRRejcnt40 : RegSpec := ⟨40, 0, 1, false,
  ([⟨0, 32, .rw, 0, []⟩])⟩

/-- CST.CTRL (13 R385). -/
def cstRCtrl8 : RegSpec := ⟨8, 0, 1, false,
  ([⟨0, 1, .rw, 0, []⟩, ⟨1, 1, .rw, 0, []⟩, ⟨2, 1, .rw, 0, []⟩, ⟨3, 1, .wo, 0, []⟩])⟩

/-- CST.STATUS (13 R385). -/
def cstRStatus16 : RegSpec := ⟨16, 0, 1, false,
  ([⟨0, 1, .ro, 0, []⟩, ⟨1, 1, .ro, 0, []⟩, ⟨2, 1, .w1c, 0, []⟩, ⟨3, 5, .ro, 0, []⟩])⟩

/-- CST.EVEN (13 R385). -/
def cstREven24 : RegSpec := ⟨24, 0, 1, false,
  ([⟨0, 12, .rw, 1024, [(1024, 2047)]⟩, ⟨12, 1, .rw, 0, []⟩, ⟨13, 1, .rw, 0, []⟩])⟩

/-- CST.LOCK (13 R385). -/
def cstRLock48 : RegSpec := ⟨48, 0, 1, false,
  ([⟨0, 1, .w1s, 0, []⟩, ⟨1, 1, .w1s, 0, []⟩])⟩

/-- CST.ADDR (13 R385). -/
def cstRAddr256 : RegSpec := ⟨256, 0, 1, false,
  ([⟨0, 14, .rw, 4096, []⟩])⟩

/-- CST.DATA (13 R385). -/
def cstRData264 : RegSpec := ⟨264, 8, 3, false,
  ([⟨0, 64, .rw, 0, []⟩])⟩

/-- CST.IMG (13 R385). -/
def cstRImg288 : RegSpec := ⟨288, 0, 1, false,
  ([⟨0, 25, .rw, 0, []⟩, ⟨32, 5, .rw, 8, [(8, 31)]⟩, ⟨40, 5, .rw, 1, [(1, 24)]⟩])⟩

/-- CST.SCRUB (13 R385). -/
def cstRScrub296 : RegSpec := ⟨296, 0, 1, false,
  ([⟨0, 16, .rw, 256, [(1, 65535)]⟩, ⟨32, 14, .ro, 4096, []⟩])⟩

/-- CST.RLCNT (13 R385). -/
def cstRRlcnt304 : RegSpec := ⟨304, 0, 1, false,
  ([⟨0, 16, .rw, 0, []⟩, ⟨16, 16, .rw, 0, []⟩, ⟨32, 16, .rw, 0, []⟩])⟩

/-- CST.FOLBAD (13 R385). -/
def cstRFolbad312 : RegSpec := ⟨312, 0, 1, false,
  ([⟨8, 24, .w1c, 0, []⟩])⟩

/-- The registers of a CST page. -/
def cstRegs : List RegSpec := [cstRErrcnt32, cstRRejcnt40, cstRCtrl8, cstRStatus16, cstREven24, cstRLock48, cstRAddr256, cstRData264, cstRImg288, cstRScrub296, cstRRlcnt304, cstRFolbad312]

/-- QMG.ERRCNT (15 R409). -/
def qmgRErrcnt32 : RegSpec := ⟨32, 0, 1, false,
  ([⟨0, 32, .rw, 0, []⟩])⟩

/-- QMG.REJCNT (15 R409). -/
def qmgRRejcnt40 : RegSpec := ⟨40, 0, 1, false,
  ([⟨0, 32, .rw, 0, []⟩])⟩

/-- QMG.LOCK (07 R211). -/
def qmgRLock48 : RegSpec := ⟨48, 0, 1, false,
  ([⟨0, 1, .w1s, 0, []⟩])⟩

/-- QMG.DERR (07 R211). -/
def qmgRDerr256 : RegSpec := ⟨256, 0, 1, false,
  ([⟨0, 32, .rw, 0, []⟩, ⟨32, 32, .rw, 0, []⟩])⟩

/-- QMG.DLOG (07 R211). -/
def qmgRDlog264 : RegSpec := ⟨264, 0, 1, false,
  ([⟨0, 14, .ro, 0, []⟩, ⟨14, 1, .ro, 0, []⟩, ⟨15, 8, .ro, 0, []⟩])⟩

/-- The registers of a QMG page. -/
def qmgRegs : List RegSpec := [qmgRErrcnt32, qmgRRejcnt40, qmgRLock48, qmgRDerr256, qmgRDlog264]

/-- QSL.ERRCNT (15 R409). -/
def qslRErrcnt32 : RegSpec := ⟨32, 0, 1, false,
  ([⟨0, 32, .rw, 0, []⟩])⟩

/-- QSL.REJCNT (15 R409). -/
def qslRRejcnt40 : RegSpec := ⟨40, 0, 1, false,
  ([⟨0, 32, .rw, 0, []⟩])⟩

/-- QSL.STATUS (07 R212). -/
def qslRStatus16 : RegSpec := ⟨16, 0, 1, false,
  ([⟨0, 1, .w1c, 0, []⟩, ⟨1, 1, .w1c, 0, []⟩, ⟨2, 1, .w1c, 0, []⟩, ⟨3, 1, .w1c, 0, []⟩])⟩

/-- QSL.EVEN (07 R212). -/
def qslREven24 : RegSpec := ⟨24, 0, 1, false,
  ([⟨0, 12, .rw, 1024, [(1024, 2047)]⟩, ⟨12, 1, .rw, 0, []⟩, ⟨13, 1, .rw, 0, []⟩, ⟨14, 1, .rw, 0, []⟩, ⟨15, 1, .rw, 0, []⟩])⟩

/-- QSL.OVF (07 R212). -/
def qslROvf256 : RegSpec := ⟨256, 0, 1, false,
  ([⟨0, 32, .rw, 0, []⟩, ⟨32, 32, .rw, 0, []⟩])⟩

/-- QSL.REF (07 R212). -/
def qslRRef264 : RegSpec := ⟨264, 0, 1, false,
  ([⟨0, 32, .rw, 0, []⟩, ⟨32, 32, .rw, 0, []⟩])⟩

/-- QSL.LAST (07 R212). -/
def qslRLast272 : RegSpec := ⟨272, 0, 1, false,
  ([⟨0, 14, .ro, 0, []⟩, ⟨16, 3, .ro, 0, []⟩, ⟨20, 6, .ro, 0, []⟩])⟩

/-- QSL.MAXWAIT (07 R212). -/
def qslRMaxwait280 : RegSpec := ⟨280, 0, 1, false,
  ([⟨0, 16, .rw, 0, []⟩])⟩

/-- The registers of a QSL page. -/
def qslRegs : List RegSpec := [qslRErrcnt32, qslRRejcnt40, qslRStatus16, qslREven24, qslROvf256, qslRRef264, qslRLast272, qslRMaxwait280]

/-- QD.CFG (07 R194). -/
def qdRCfg0 : RegSpec := ⟨0, 16, 256, true,
  ([⟨0, 22, .rw, 0, []⟩, ⟨24, 5, .rw, 6, [(6, 20)]⟩, ⟨32, 6, .rw, 63, [(0, 31), (63, 63)]⟩, ⟨40, 10, .rw, 0, []⟩, ⟨63, 1, .rw, 0, []⟩])⟩

/-- QD.PTR (07 R194). -/
def qdRPtr8 : RegSpec := ⟨8, 16, 256, true,
  ([⟨0, 18, .rw, 0, []⟩, ⟨18, 18, .rw, 0, []⟩, ⟨36, 18, .rw, 0, []⟩, ⟨54, 1, .rw, 0, []⟩, ⟨55, 1, .rw, 0, []⟩, ⟨63, 1, .ro, 0, []⟩])⟩

/-- The registers of a QD page. -/
def qdRegs : List RegSpec := [qdRCfg0, qdRPtr8]

/-- DMA.ERRCNT (15 R409). -/
def dmaRErrcnt32 : RegSpec := ⟨32, 0, 1, false,
  ([⟨0, 32, .rw, 0, []⟩])⟩

/-- DMA.REJCNT (15 R409). -/
def dmaRRejcnt40 : RegSpec := ⟨40, 0, 1, false,
  ([⟨0, 32, .rw, 0, []⟩])⟩

/-- DMA.CTRL (09 R261). -/
def dmaRCtrl8 : RegSpec := ⟨8, 0, 1, false,
  ([⟨0, 1, .wo, 0, []⟩, ⟨1, 1, .wo, 0, []⟩, ⟨2, 1, .wo, 0, []⟩, ⟨3, 1, .wo, 0, []⟩])⟩

/-- DMA.STATUS (09 R261). -/
def dmaRStatus16 : RegSpec := ⟨16, 0, 1, false,
  ([⟨0, 3, .ro, 0, []⟩, ⟨3, 1, .ro, 0, []⟩, ⟨4, 1, .ro, 0, []⟩, ⟨5, 1, .w1c, 0, []⟩, ⟨6, 1, .w1c, 0, []⟩, ⟨7, 1, .w1c, 0, []⟩, ⟨8, 1, .w1c, 0, []⟩, ⟨12, 4, .ro, 0, []⟩, ⟨16, 4, .ro, 0, []⟩])⟩

/-- DMA.EVEN (09 R261). -/
def dmaREven24 : RegSpec := ⟨24, 0, 1, false,
  ([⟨0, 1, .rw, 0, []⟩])⟩

/-- DMA.LOCK (09 R261). -/
def dmaRLock48 : RegSpec := ⟨48, 0, 1, false,
  ([⟨0, 1, .w1s, 0, []⟩])⟩

/-- DMA.CURSRC (09 R261). -/
def dmaRCursrc64 : RegSpec := ⟨64, 0, 1, false,
  ([⟨0, 64, .ro, 0, []⟩])⟩

/-- DMA.CURDST (09 R261). -/
def dmaRCurdst72 : RegSpec := ⟨72, 0, 1, false,
  ([⟨0, 64, .ro, 0, []⟩])⟩

/-- DMA.REMAIN (09 R261). -/
def dmaRRemain80 : RegSpec := ⟨80, 0, 1, false,
  ([⟨0, 32, .ro, 0, []⟩])⟩

/-- DMA.SRC (09 R261). -/
def dmaRSrc256 : RegSpec := ⟨256, 32, 2, true,
  ([⟨0, 64, .rw, 0, []⟩])⟩

/-- DMA.DST (09 R261). -/
def dmaRDst264 : RegSpec := ⟨264, 32, 2, true,
  ([⟨0, 64, .rw, 0, []⟩])⟩

/-- DMA.COUNT (09 R261). -/
def dmaRCount272 : RegSpec := ⟨272, 32, 2, true,
  ([⟨0, 32, .rw, 0, []⟩])⟩

/-- DMA.CTL (09 R261). -/
def dmaRCtl280 : RegSpec := ⟨280, 32, 2, true,
  ([⟨0, 1, .rw, 0, []⟩, ⟨1, 1, .rw, 0, []⟩, ⟨2, 1, .rw, 0, []⟩, ⟨3, 1, .rw, 0, []⟩, ⟨4, 1, .rw, 0, []⟩, ⟨5, 1, .rw, 0, []⟩, ⟨6, 1, .rw, 0, []⟩, ⟨8, 5, .rw, 6, []⟩, ⟨16, 2, .rw, 0, [(0, 2)]⟩, ⟨18, 12, .rw, 1024, [(0, 3199)]⟩, ⟨30, 5, .rw, 6, [(3, 24)]⟩, ⟨35, 4, .rw, 0, []⟩, ⟨39, 2, .rw, 0, []⟩])⟩

/-- DMA.ERRADDR (09 R261). -/
def dmaRErraddr320 : RegSpec := ⟨320, 0, 1, false,
  ([⟨0, 64, .ro, 0, []⟩])⟩

/-- DMA.ERRINFO (09 R261). -/
def dmaRErrinfo328 : RegSpec := ⟨328, 0, 1, false,
  ([⟨0, 3, .ro, 0, []⟩, ⟨3, 1, .ro, 0, []⟩])⟩

/-- DMA.POISCNT (09 R261). -/
def dmaRPoiscnt336 : RegSpec := ⟨336, 0, 1, false,
  ([⟨0, 32, .rw, 0, []⟩])⟩

/-- The registers of a DMA page. -/
def dmaRegs : List RegSpec := [dmaRErrcnt32, dmaRRejcnt40, dmaRCtrl8, dmaRStatus16, dmaREven24, dmaRLock48, dmaRCursrc64, dmaRCurdst72, dmaRRemain80, dmaRSrc256, dmaRDst264, dmaRCount272, dmaRCtl280, dmaRErraddr320, dmaRErrinfo328, dmaRPoiscnt336]

/-- BNK.ERRCNT (15 R409). -/
def bnkRErrcnt32 : RegSpec := ⟨32, 0, 1, false,
  ([⟨0, 32, .rw, 0, []⟩])⟩

/-- BNK.REJCNT (15 R409). -/
def bnkRRejcnt40 : RegSpec := ⟨40, 0, 1, false,
  ([⟨0, 32, .rw, 0, []⟩])⟩

/-- BNK.CTRL (06 R190). -/
def bnkRCtrl8 : RegSpec := ⟨8, 0, 1, false,
  ([⟨0, 1, .rw, 1, []⟩])⟩

/-- BNK.STATUS (06 R190). -/
def bnkRStatus16 : RegSpec := ⟨16, 0, 1, false,
  ([⟨0, 1, .ro, 0, []⟩, ⟨1, 1, .ro, 0, []⟩, ⟨2, 1, .w1c, 0, []⟩, ⟨3, 1, .w1c, 0, []⟩, ⟨4, 1, .w1c, 0, []⟩, ⟨5, 1, .w1c, 0, []⟩, ⟨6, 1, .w1c, 0, []⟩, ⟨7, 1, .w1c, 0, []⟩])⟩

/-- BNK.EVEN (06 R190). -/
def bnkREven24 : RegSpec := ⟨24, 0, 1, false,
  ([⟨0, 12, .rw, 1024, [(1024, 2047)]⟩, ⟨12, 1, .rw, 0, []⟩, ⟨13, 1, .rw, 0, []⟩, ⟨14, 1, .rw, 0, []⟩, ⟨15, 1, .rw, 0, []⟩])⟩

/-- BNK.LOCK (06 R190). -/
def bnkRLock48 : RegSpec := ⟨48, 0, 1, false,
  ([⟨0, 1, .w1s, 0, []⟩, ⟨1, 1, .w1s, 0, []⟩])⟩

/-- BNK.OWN (06 R190). -/
def bnkROwn56 : RegSpec := ⟨56, 0, 1, false,
  ([⟨0, 6, .rw, 63, [(0, 35), (63, 63)]⟩, ⟨6, 1, .ro, 0, []⟩])⟩

/-- BNK.ECCCNT (06 R190). -/
def bnkREcccnt64 : RegSpec := ⟨64, 0, 1, false,
  ([⟨0, 32, .rw, 0, []⟩, ⟨32, 32, .rw, 0, []⟩])⟩

/-- BNK.ECCLOG (06 R190). -/
def bnkREcclog72 : RegSpec := ⟨72, 0, 1, false,
  ([⟨0, 15, .ro, 0, []⟩, ⟨16, 8, .ro, 0, []⟩, ⟨24, 1, .ro, 0, []⟩])⟩

/-- BNK.VIOL (06 R190). -/
def bnkRViol80 : RegSpec := ⟨80, 0, 1, false,
  ([⟨0, 32, .rw, 0, []⟩, ⟨32, 6, .ro, 63, []⟩, ⟨38, 15, .ro, 0, []⟩])⟩

/-- BNK.PBSTALL (06 R190). -/
def bnkRPbstall88 : RegSpec := ⟨88, 0, 1, false,
  ([⟨0, 16, .rw, 0, []⟩, ⟨16, 16, .rw, 0, []⟩, ⟨32, 16, .rw, 0, []⟩])⟩

/-- BNK.COLL (06 R190). -/
def bnkRColl96 : RegSpec := ⟨96, 0, 1, false,
  ([⟨0, 32, .rw, 0, []⟩])⟩

/-- BNK.NDROP (06 R190). -/
def bnkRNdrop104 : RegSpec := ⟨104, 0, 1, false,
  ([⟨0, 32, .rw, 0, []⟩])⟩

/-- BNK.MARCH (06 R190). -/
def bnkRMarch256 : RegSpec := ⟨256, 0, 1, false,
  ([⟨0, 2, .wo, 0, []⟩, ⟨8, 8, .rw, 0, []⟩])⟩

/-- BNK.MSTAT (06 R190). -/
def bnkRMstat264 : RegSpec := ⟨264, 0, 1, false,
  ([⟨0, 2, .ro, 0, []⟩, ⟨2, 1, .ro, 0, []⟩, ⟨16, 32, .rw, 0, []⟩])⟩

/-- BNK.MFAIL (06 R190). -/
def bnkRMfail272 : RegSpec := ⟨272, 0, 1, false,
  ([⟨0, 14, .ro, 0, []⟩, ⟨14, 8, .ro, 0, []⟩, ⟨24, 8, .ro, 0, []⟩, ⟨32, 4, .ro, 0, []⟩])⟩

/-- BNK.REPAIRSUM (06 R190). -/
def bnkRRepairsum280 : RegSpec := ⟨280, 0, 1, false,
  ([⟨0, 64, .ro, 0, []⟩])⟩

/-- BNK.INJ (06 R191). -/
def bnkRInj352 : RegSpec := ⟨352, 0, 1, false,
  ([⟨0, 8, .rw, 0, []⟩, ⟨8, 6, .rw, 0, []⟩, ⟨14, 1, .rw, 0, []⟩, ⟨15, 1, .w1s, 0, []⟩])⟩

/-- The registers of a BNK page. -/
def bnkRegs : List RegSpec := [bnkRErrcnt32, bnkRRejcnt40, bnkRCtrl8, bnkRStatus16, bnkREven24, bnkRLock48, bnkROwn56, bnkREcccnt64, bnkREcclog72, bnkRViol80, bnkRPbstall88, bnkRColl96, bnkRNdrop104, bnkRMarch256, bnkRMstat264, bnkRMfail272, bnkRRepairsum280, bnkRInj352]

/-- BEAM.ERRCNT (15 R409). -/
def beamRErrcnt32 : RegSpec := ⟨32, 0, 1, false,
  ([⟨0, 32, .rw, 0, []⟩])⟩

/-- BEAM.REJCNT (15 R409). -/
def beamRRejcnt40 : RegSpec := ⟨40, 0, 1, false,
  ([⟨0, 32, .rw, 0, []⟩])⟩

/-- BEAM.CTRL (08 R237). -/
def beamRCtrl8 : RegSpec := ⟨8, 0, 1, false,
  ([⟨0, 1, .rw, 0, []⟩, ⟨1, 1, .rw, 0, []⟩, ⟨2, 3, .rw, 0, []⟩, ⟨5, 1, .rw, 0, []⟩])⟩

/-- BEAM.STATUS (08 R237). -/
def beamRStatus16 : RegSpec := ⟨16, 0, 1, false,
  ([⟨0, 1, .ro, 0, []⟩, ⟨1, 1, .ro, 0, []⟩, ⟨2, 1, .w1c, 0, []⟩])⟩

/-- BEAM.EVEN (08 R237). -/
def beamREven24 : RegSpec := ⟨24, 0, 1, false,
  ([⟨0, 1, .rw, 1, []⟩, ⟨1, 1, .rw, 1, []⟩, ⟨2, 1, .rw, 0, []⟩, ⟨3, 1, .rw, 0, []⟩, ⟨4, 1, .rw, 0, []⟩, ⟨5, 1, .rw, 0, []⟩, ⟨16, 16, .rw, 0, []⟩])⟩

/-- BEAM.TICKDIV (08 R237). -/
def beamRTickdiv256 : RegSpec := ⟨256, 0, 1, true,
  ([⟨0, 24, .rw, 0, []⟩, ⟨24, 16, .rw, 8, [(4, 65535)]⟩])⟩

/-- BEAM.DIVTRIM (08 R237). -/
def beamRDivtrim264 : RegSpec := ⟨264, 0, 1, false,
  ([⟨0, 24, .rw, 0, []⟩])⟩

/-- BEAM.GEOM (08 R237). -/
def beamRGeom272 : RegSpec := ⟨272, 0, 1, false,
  ([⟨0, 14, .rw, 16383, []⟩, ⟨16, 14, .rw, 16383, []⟩])⟩

/-- BEAM.HACT (08 R237). -/
def beamRHact280 : RegSpec := ⟨280, 0, 1, false,
  ([⟨0, 14, .rw, 0, []⟩, ⟨16, 15, .rw, 16384, []⟩])⟩

/-- BEAM.VACT (08 R237). -/
def beamRVact288 : RegSpec := ⟨288, 0, 1, false,
  ([⟨0, 14, .rw, 0, []⟩, ⟨16, 15, .rw, 16384, []⟩])⟩

/-- BEAM.SYNC (08 R237). -/
def beamRSync296 : RegSpec := ⟨296, 0, 1, true,
  ([⟨0, 14, .rw, 0, []⟩, ⟨16, 14, .rw, 0, []⟩, ⟨30, 1, .rw, 0, []⟩, ⟨32, 14, .rw, 0, []⟩, ⟨48, 14, .rw, 0, []⟩, ⟨62, 1, .rw, 0, []⟩])⟩

/-- BEAM.LEAD (08 R237). -/
def beamRLead304 : RegSpec := ⟨304, 0, 1, false,
  ([⟨0, 4, .rw, 0, []⟩, ⟨4, 4, .rw, 0, []⟩, ⟨8, 4, .rw, 0, []⟩, ⟨12, 4, .rw, 0, []⟩, ⟨16, 4, .rw, 0, []⟩, ⟨20, 4, .rw, 0, []⟩, ⟨24, 4, .rw, 0, []⟩, ⟨28, 4, .rw, 0, []⟩, ⟨32, 4, .rw, 0, []⟩, ⟨36, 4, .rw, 0, []⟩, ⟨40, 4, .rw, 0, []⟩, ⟨44, 4, .rw, 0, []⟩, ⟨48, 4, .rw, 0, []⟩, ⟨52, 4, .rw, 0, []⟩, ⟨56, 4, .rw, 0, []⟩, ⟨60, 4, .rw, 0, []⟩])⟩

/-- BEAM.BCMP (08 R237). -/
def beamRBcmp512 : RegSpec := ⟨512, 8, 32, false,
  ([⟨0, 14, .rw, 0, []⟩, ⟨16, 14, .rw, 0, []⟩, ⟨30, 2, .rw, 0, []⟩])⟩

/-- The registers of a BEAM page. -/
def beamRegs : List RegSpec := [beamRErrcnt32, beamRRejcnt40, beamRCtrl8, beamRStatus16, beamREven24, beamRTickdiv256, beamRDivtrim264, beamRGeom272, beamRHact280, beamRVact288, beamRSync296, beamRLead304, beamRBcmp512]

/-- TMR.ERRCNT (15 R409). -/
def tmrRErrcnt32 : RegSpec := ⟨32, 0, 1, false,
  ([⟨0, 32, .rw, 0, []⟩])⟩

/-- TMR.REJCNT (15 R409). -/
def tmrRRejcnt40 : RegSpec := ⟨40, 0, 1, false,
  ([⟨0, 32, .rw, 0, []⟩])⟩

/-- TMR.COUNT (08 R238). -/
def tmrRCount128 : RegSpec := ⟨128, 8, 16, false,
  ([⟨0, 32, .rw, 0, []⟩])⟩

/-- TMR.CFG (08 R238). -/
def tmrRCfg256 : RegSpec := ⟨256, 64, 16, true,
  ([⟨0, 1, .rw, 0, []⟩, ⟨1, 1, .rw, 0, []⟩, ⟨2, 1, .rw, 0, []⟩, ⟨3, 1, .rw, 0, []⟩, ⟨4, 3, .rw, 0, [(0, 5)]⟩, ⟨7, 1, .rw, 0, []⟩, ⟨8, 1, .rw, 0, []⟩, ⟨9, 1, .rw, 0, []⟩, ⟨10, 1, .rw, 0, []⟩, ⟨12, 16, .rw, 0, []⟩, ⟨28, 12, .rw, 1024, [(0, 3199)]⟩, ⟨40, 3, .rw, 0, [(0, 5)]⟩, ⟨43, 1, .rw, 0, []⟩, ⟨44, 8, .rw, 0, []⟩, ⟨52, 3, .rw, 0, []⟩, ⟨55, 1, .rw, 0, []⟩])⟩

/-- TMR.TOP (08 R238). -/
def tmrRTop264 : RegSpec := ⟨264, 64, 16, false,
  ([⟨0, 32, .rw, 4294967295, []⟩])⟩

/-- TMR.CMP (08 R238). -/
def tmrRCmp272 : RegSpec := ⟨272, 64, 16, false,
  ([⟨0, 32, .ro, 0, []⟩])⟩

/-- TMR.CMPPRE (08 R238). -/
def tmrRCmppre280 : RegSpec := ⟨280, 64, 16, false,
  ([⟨0, 32, .rw, 0, []⟩])⟩

/-- TMR.INTERVAL (08 R238). -/
def tmrRInterval288 : RegSpec := ⟨288, 64, 16, false,
  ([⟨0, 32, .rw, 0, []⟩])⟩

/-- TMR.CAPTURE (08 R238). -/
def tmrRCapture296 : RegSpec := ⟨296, 64, 16, false,
  ([⟨0, 32, .ro, 0, []⟩])⟩

/-- TMR.AUX (08 R238). -/
def tmrRAux304 : RegSpec := ⟨304, 64, 16, false,
  ([⟨0, 12, .rw, 1024, [(0, 3199)]⟩, ⟨12, 3, .rw, 0, [(0, 4)]⟩, ⟨15, 1, .rw, 0, []⟩, ⟨16, 8, .rw, 0, []⟩])⟩

/-- TMR.TSTAT (08 R238). -/
def tmrRTstat312 : RegSpec := ⟨312, 64, 16, false,
  ([⟨0, 1, .ro, 0, []⟩, ⟨1, 1, .ro, 0, []⟩, ⟨2, 1, .ro, 0, []⟩, ⟨3, 1, .ro, 0, []⟩, ⟨4, 1, .w1c, 0, []⟩, ⟨5, 1, .w1c, 0, []⟩, ⟨6, 1, .w1c, 0, []⟩, ⟨7, 1, .w1c, 0, []⟩, ⟨8, 1, .w1c, 0, []⟩])⟩

/-- The registers of a TMR page. -/
def tmrRegs : List RegSpec := [tmrRErrcnt32, tmrRRejcnt40, tmrRCount128, tmrRCfg256, tmrRTop264, tmrRCmp272, tmrRCmppre280, tmrRInterval288, tmrRCapture296, tmrRAux304, tmrRTstat312]

/-- PIO.ERRCNT (15 R409). -/
def pioRErrcnt32 : RegSpec := ⟨32, 0, 1, false,
  ([⟨0, 32, .rw, 0, []⟩])⟩

/-- PIO.REJCNT (15 R409). -/
def pioRRejcnt40 : RegSpec := ⟨40, 0, 1, false,
  ([⟨0, 32, .rw, 0, []⟩])⟩

/-- PIO.CTRL (10 R290). -/
def pioRCtrl8 : RegSpec := ⟨8, 0, 1, false,
  ([⟨0, 1, .rw, 0, []⟩, ⟨1, 1, .wo, 0, []⟩, ⟨2, 1, .wo, 0, []⟩, ⟨3, 1, .wo, 0, []⟩])⟩

/-- PIO.EVEN (10 R290). -/
def pioREven24 : RegSpec := ⟨24, 0, 1, false,
  ([⟨0, 2, .rw, 0, []⟩])⟩

/-- PIO.CLKDIV (10 R290). -/
def pioRClkdiv256 : RegSpec := ⟨256, 0, 1, false,
  ([⟨0, 8, .rw, 0, []⟩, ⟨8, 16, .rw, 1, [(1, 65535)]⟩])⟩

/-- PIO.EXECCFG (10 R290). -/
def pioRExeccfg264 : RegSpec := ⟨264, 0, 1, false,
  ([⟨0, 6, .rw, 0, []⟩, ⟨8, 6, .rw, 63, []⟩])⟩

/-- PIO.PINMAP (10 R290). -/
def pioRPinmap272 : RegSpec := ⟨272, 0, 1, true,
  ([⟨0, 7, .rw, 0, []⟩, ⟨8, 6, .rw, 32, [(1, 32)]⟩, ⟨16, 7, .rw, 0, []⟩, ⟨24, 7, .rw, 0, []⟩, ⟨32, 4, .rw, 0, [(0, 10)]⟩, ⟨40, 7, .rw, 0, []⟩, ⟨48, 7, .rw, 0, []⟩])⟩

/-- PIO.SHIFTCFG (10 R290). -/
def pioRShiftcfg280 : RegSpec := ⟨280, 0, 1, false,
  ([⟨0, 1, .rw, 0, []⟩, ⟨1, 1, .rw, 0, []⟩, ⟨2, 1, .rw, 0, []⟩, ⟨3, 1, .rw, 0, []⟩, ⟨4, 5, .rw, 0, []⟩, ⟨9, 5, .rw, 0, []⟩, ⟨14, 2, .rw, 0, [(0, 2)]⟩])⟩

/-- PIO.TXQ (10 R290). -/
def pioRTxq288 : RegSpec := ⟨288, 0, 1, false,
  ([⟨0, 32, .wo, 0, []⟩])⟩

/-- PIO.RXQ (10 R290). -/
def pioRRxq296 : RegSpec := ⟨296, 0, 1, false,
  ([⟨0, 32, .ro, 0, []⟩])⟩

/-- PIO.RSVCNT (10 R290). -/
def pioRRsvcnt304 : RegSpec := ⟨304, 0, 1, false,
  ([⟨0, 32, .rw, 0, []⟩, ⟨32, 6, .ro, 0, []⟩])⟩

/-- PIO.EVLATCH (10 R290). -/
def pioREvlatch312 : RegSpec := ⟨312, 0, 1, false,
  ([⟨0, 12, .rw, 1024, [(0, 3199)]⟩, ⟨12, 1, .rw, 0, []⟩, ⟨13, 1, .w1c, 0, []⟩])⟩

/-- PIO.TXFEED (10 R290). -/
def pioRTxfeed320 : RegSpec := ⟨320, 0, 1, true,
  ([⟨0, 22, .rw, 0, []⟩, ⟨22, 5, .rw, 0, []⟩, ⟨27, 1, .rw, 0, []⟩, ⟨32, 18, .ro, 0, []⟩])⟩

/-- PIO.RXFEED (10 R290). -/
def pioRRxfeed328 : RegSpec := ⟨328, 0, 1, true,
  ([⟨0, 22, .rw, 0, []⟩, ⟨22, 5, .rw, 0, []⟩, ⟨27, 1, .rw, 0, []⟩, ⟨32, 18, .ro, 0, []⟩])⟩

/-- PIO.IMEM (10 R290). -/
def pioRImem512 : RegSpec := ⟨512, 8, 64, false,
  ([⟨0, 32, .rw, 0, []⟩])⟩

/-- The registers of a PIO page. -/
def pioRegs : List RegSpec := [pioRErrcnt32, pioRRejcnt40, pioRCtrl8, pioREven24, pioRClkdiv256, pioRExeccfg264, pioRPinmap272, pioRShiftcfg280, pioRTxq288, pioRRxq296, pioRRsvcnt304, pioREvlatch312, pioRTxfeed320, pioRRxfeed328, pioRImem512]

/-- PIOG.ERRCNT (15 R409). -/
def piogRErrcnt32 : RegSpec := ⟨32, 0, 1, false,
  ([⟨0, 32, .rw, 0, []⟩])⟩

/-- PIOG.REJCNT (15 R409). -/
def piogRRejcnt40 : RegSpec := ⟨40, 0, 1, false,
  ([⟨0, 32, .rw, 0, []⟩])⟩

/-- PIOG.START (10 R291). -/
def piogRStart256 : RegSpec := ⟨256, 0, 1, false,
  ([⟨0, 8, .wo, 0, []⟩])⟩

/-- PIOG.STOP (10 R291). -/
def piogRStop264 : RegSpec := ⟨264, 0, 1, false,
  ([⟨0, 8, .wo, 0, []⟩])⟩

/-- PIOG.DIVSYNC (10 R291). -/
def piogRDivsync272 : RegSpec := ⟨272, 0, 1, false,
  ([⟨0, 8, .wo, 0, []⟩])⟩

/-- The registers of a PIOG page. -/
def piogRegs : List RegSpec := [piogRErrcnt32, piogRRejcnt40, piogRStart256, piogRStop264, piogRDivsync272]

/-- PIN.ERRCNT (15 R409). -/
def pinRErrcnt32 : RegSpec := ⟨32, 0, 1, false,
  ([⟨0, 32, .rw, 0, []⟩])⟩

/-- PIN.REJCNT (15 R409). -/
def pinRRejcnt40 : RegSpec := ⟨40, 0, 1, false,
  ([⟨0, 32, .rw, 0, []⟩])⟩

/-- PIN.GPIOOUT (10 R292). -/
def pinRGpioout64 : RegSpec := ⟨64, 0, 1, false,
  ([⟨0, 32, .rw, 0, []⟩])⟩

/-- PIN.GPIOOE (10 R292). -/
def pinRGpiooe72 : RegSpec := ⟨72, 0, 1, false,
  ([⟨0, 32, .rw, 0, []⟩])⟩

/-- PIN.GPIOSET (10 R292). -/
def pinRGpioset80 : RegSpec := ⟨80, 0, 1, false,
  ([⟨0, 32, .wo, 0, []⟩])⟩

/-- PIN.GPIOCLR (10 R292). -/
def pinRGpioclr88 : RegSpec := ⟨88, 0, 1, false,
  ([⟨0, 32, .wo, 0, []⟩])⟩

/-- PIN.GPIOTOG (10 R292). -/
def pinRGpiotog96 : RegSpec := ⟨96, 0, 1, false,
  ([⟨0, 32, .wo, 0, []⟩])⟩

/-- PIN.EVSTAT (10 R292). -/
def pinREvstat104 : RegSpec := ⟨104, 0, 1, false,
  ([⟨0, 32, .w1c, 0, []⟩])⟩

/-- PIN.CFG (10 R292). -/
def pinRCfg256 : RegSpec := ⟨256, 8, 32, true,
  ([⟨0, 3, .rw, 0, [(0, 6)]⟩, ⟨4, 5, .rw, 0, []⟩, ⟨9, 1, .rw, 0, []⟩, ⟨10, 1, .rw, 0, []⟩, ⟨11, 2, .rw, 0, [(0, 2)]⟩, ⟨13, 1, .rw, 0, []⟩, ⟨14, 2, .rw, 0, [(0, 2)]⟩, ⟨16, 8, .rw, 0, []⟩, ⟨24, 2, .rw, 0, []⟩, ⟨28, 12, .rw, 1024, [(0, 3199)]⟩, ⟨63, 1, .ro, 0, []⟩])⟩

/-- The registers of a PIN page. -/
def pinRegs : List RegSpec := [pinRErrcnt32, pinRRejcnt40, pinRGpioout64, pinRGpiooe72, pinRGpioset80, pinRGpioclr88, pinRGpiotog96, pinREvstat104, pinRCfg256]

/-- STI.ERRCNT (15 R409). -/
def stiRErrcnt32 : RegSpec := ⟨32, 0, 1, false,
  ([⟨0, 32, .rw, 0, []⟩])⟩

/-- STI.REJCNT (15 R409). -/
def stiRRejcnt40 : RegSpec := ⟨40, 0, 1, false,
  ([⟨0, 32, .rw, 0, []⟩])⟩

/-- STI.CTRL (11 R326). -/
def stiRCtrl8 : RegSpec := ⟨8, 0, 1, false,
  ([⟨0, 1, .rw, 0, []⟩, ⟨1, 1, .wo, 0, []⟩, ⟨2, 1, .rw, 0, []⟩])⟩

/-- STI.STATUS (11 R326). -/
def stiRStatus16 : RegSpec := ⟨16, 0, 1, false,
  ([⟨0, 3, .ro, 0, []⟩, ⟨3, 1, .ro, 0, []⟩, ⟨4, 1, .ro, 0, []⟩, ⟨8, 1, .w1c, 0, []⟩, ⟨9, 1, .w1c, 0, []⟩, ⟨10, 1, .w1c, 0, []⟩, ⟨11, 1, .w1c, 0, []⟩])⟩

/-- STI.EVEN (11 R326). -/
def stiREven24 : RegSpec := ⟨24, 0, 1, false,
  ([⟨0, 1, .rw, 0, []⟩, ⟨1, 1, .rw, 0, []⟩, ⟨2, 1, .rw, 0, []⟩, ⟨3, 1, .rw, 0, []⟩])⟩

/-- STI.LOCK (11 R326). -/
def stiRLock48 : RegSpec := ⟨48, 0, 1, false,
  ([⟨0, 1, .w1s, 0, []⟩])⟩

/-- STI.LINKINFO (11 R326). -/
def stiRLinkinfo56 : RegSpec := ⟨56, 0, 1, false,
  ([⟨0, 16, .ro, 65535, []⟩, ⟨16, 2, .ro, 0, []⟩, ⟨18, 1, .ro, 0, []⟩, ⟨19, 2, .ro, 0, []⟩, ⟨21, 1, .ro, 0, []⟩, ⟨22, 1, .ro, 0, []⟩, ⟨32, 16, .ro, 0, []⟩])⟩

/-- STI.HOPDLY (11 R326). -/
def stiRHopdly64 : RegSpec := ⟨64, 0, 1, false,
  ([⟨0, 32, .ro, 0, []⟩, ⟨32, 16, .ro, 0, []⟩])⟩

/-- STI.CFG (11 R326). -/
def stiRCfg256 : RegSpec := ⟨256, 0, 1, false,
  ([⟨0, 16, .rw, 0, []⟩])⟩

/-- STI.ASYM (11 R326). -/
def stiRAsym264 : RegSpec := ⟨264, 0, 1, false,
  ([⟨0, 16, .rw, 0, []⟩])⟩

/-- STI.VCPRI (11 R326). -/
def stiRVcpri272 : RegSpec := ⟨272, 0, 1, false,
  ([⟨0, 2, .rw, 0, []⟩, ⟨2, 2, .rw, 0, []⟩, ⟨4, 2, .rw, 0, []⟩, ⟨6, 2, .rw, 0, []⟩, ⟨8, 2, .rw, 0, []⟩, ⟨10, 2, .rw, 0, []⟩, ⟨12, 2, .rw, 0, []⟩, ⟨14, 2, .rw, 0, []⟩, ⟨16, 2, .rw, 0, []⟩, ⟨18, 2, .rw, 0, []⟩, ⟨20, 2, .rw, 0, []⟩, ⟨22, 2, .rw, 0, []⟩, ⟨24, 2, .rw, 0, []⟩, ⟨26, 2, .rw, 0, []⟩, ⟨28, 2, .rw, 0, []⟩, ⟨30, 2, .rw, 0, []⟩])⟩

/-- STI.VCBUF (11 R326). -/
def stiRVcbuf280 : RegSpec := ⟨280, 8, 2, false,
  ([⟨0, 8, .rw, 16, []⟩, ⟨8, 8, .rw, 16, []⟩, ⟨16, 8, .rw, 16, []⟩, ⟨24, 8, .rw, 16, []⟩, ⟨32, 8, .rw, 16, []⟩, ⟨40, 8, .rw, 16, []⟩, ⟨48, 8, .rw, 16, []⟩, ⟨56, 8, .rw, 16, []⟩])⟩

/-- STI.FRMCNT (11 R326). -/
def stiRFrmcnt320 : RegSpec := ⟨320, 0, 1, false,
  ([⟨0, 32, .rw, 0, []⟩, ⟨32, 32, .rw, 0, []⟩])⟩

/-- STI.RXERR (11 R326). -/
def stiRRxerr328 : RegSpec := ⟨328, 0, 1, false,
  ([⟨0, 16, .rw, 0, []⟩, ⟨16, 16, .rw, 0, []⟩, ⟨32, 16, .rw, 0, []⟩, ⟨48, 16, .rw, 0, []⟩])⟩

/-- STI.DROPS (11 R326). -/
def stiRDrops336 : RegSpec := ⟨336, 0, 1, false,
  ([⟨0, 16, .rw, 0, []⟩, ⟨16, 16, .rw, 0, []⟩, ⟨32, 16, .rw, 0, []⟩, ⟨48, 16, .rw, 0, []⟩])⟩

/-- STI.CTLERR (11 R326). -/
def stiRCtlerr344 : RegSpec := ⟨344, 0, 1, false,
  ([⟨0, 16, .rw, 0, []⟩])⟩

/-- STI.CRED (11 R326). -/
def stiRCred384 : RegSpec := ⟨384, 8, 16, false,
  ([⟨0, 12, .ro, 0, []⟩, ⟨16, 12, .ro, 0, []⟩])⟩

/-- The registers of a STI page. -/
def stiRegs : List RegSpec := [stiRErrcnt32, stiRRejcnt40, stiRCtrl8, stiRStatus16, stiREven24, stiRLock48, stiRLinkinfo56, stiRHopdly64, stiRCfg256, stiRAsym264, stiRVcpri272, stiRVcbuf280, stiRFrmcnt320, stiRRxerr328, stiRDrops336, stiRCtlerr344, stiRCred384]

/-- RHO.ERRCNT (15 R409). -/
def rhoRErrcnt32 : RegSpec := ⟨32, 0, 1, false,
  ([⟨0, 32, .rw, 0, []⟩])⟩

/-- RHO.REJCNT (15 R409). -/
def rhoRRejcnt40 : RegSpec := ⟨40, 0, 1, false,
  ([⟨0, 32, .rw, 0, []⟩])⟩

/-- RHO.CTRL (11 R327). -/
def rhoRCtrl8 : RegSpec := ⟨8, 0, 1, false,
  ([⟨0, 1, .rw, 0, []⟩, ⟨1, 1, .rw, 0, []⟩, ⟨2, 1, .wo, 0, []⟩, ⟨3, 1, .rw, 1, []⟩, ⟨4, 7, .rw, 8, [(1, 64)]⟩, ⟨16, 10, .rw, 2, []⟩])⟩

/-- RHO.STATUS (11 R327). -/
def rhoRStatus16 : RegSpec := ⟨16, 0, 1, false,
  ([⟨0, 2, .ro, 0, []⟩, ⟨2, 1, .ro, 0, []⟩, ⟨3, 1, .ro, 0, []⟩, ⟨4, 1, .ro, 0, []⟩, ⟨5, 1, .ro, 0, []⟩, ⟨6, 1, .ro, 0, []⟩, ⟨8, 1, .w1c, 0, []⟩, ⟨9, 1, .w1c, 0, []⟩, ⟨10, 1, .w1c, 0, []⟩, ⟨11, 1, .w1c, 0, []⟩, ⟨12, 1, .w1c, 0, []⟩, ⟨13, 1, .w1c, 0, []⟩])⟩

/-- RHO.EVEN (11 R327). -/
def rhoREven24 : RegSpec := ⟨24, 0, 1, false,
  ([⟨0, 11, .rw, 0, []⟩])⟩

/-- RHO.SIG (11 R327). -/
def rhoRSig56 : RegSpec := ⟨56, 0, 1, false,
  ([⟨0, 16, .ro, 65535, []⟩, ⟨16, 16, .ro, 0, []⟩, ⟨32, 2, .ro, 0, []⟩, ⟨34, 1, .ro, 0, []⟩, ⟨48, 16, .ro, 0, []⟩])⟩

/-- RHO.PHASE (11 R327). -/
def rhoRPhase64 : RegSpec := ⟨64, 0, 1, false,
  ([⟨0, 32, .ro, 0, []⟩])⟩

/-- RHO.RTQUERY (11 R327). -/
def rhoRRtquery72 : RegSpec := ⟨72, 0, 1, false,
  ([⟨0, 16, .rw, 0, []⟩, ⟨16, 2, .ro, 0, []⟩, ⟨18, 1, .ro, 0, []⟩])⟩

/-- RHO.HOLDCNT (11 R327). -/
def rhoRHoldcnt80 : RegSpec := ⟨80, 0, 1, false,
  ([⟨0, 32, .ro, 0, []⟩])⟩

/-- RHO.LOOP (11 R327). -/
def rhoRLoop256 : RegSpec := ⟨256, 0, 1, false,
  ([⟨0, 5, .rw, 6, []⟩, ⟨8, 5, .rw, 12, []⟩, ⟨16, 16, .rw, 1024, []⟩, ⟨32, 8, .rw, 1, [(1, 255)]⟩, ⟨40, 4, .rw, 4, [(2, 15)]⟩])⟩

/-- RHO.STBINC (11 R327). -/
def rhoRStbinc264 : RegSpec := ⟨264, 0, 1, false,
  ([⟨0, 32, .rw, 8388608, []⟩])⟩

/-- RHO.WPRESS (11 R327). -/
def rhoRWpress272 : RegSpec := ⟨272, 0, 1, true,
  ([⟨0, 14, .wo, 0, []⟩, ⟨16, 14, .wo, 0, []⟩, ⟨32, 16, .wo, 0, []⟩])⟩

/-- RHO.WPTGT (11 R327). -/
def rhoRWptgt280 : RegSpec := ⟨280, 0, 1, false,
  ([⟨0, 14, .ro, 0, []⟩, ⟨16, 14, .ro, 0, []⟩, ⟨32, 32, .ro, 0, []⟩])⟩

/-- The registers of a RHO page. -/
def rhoRegs : List RegSpec := [rhoRErrcnt32, rhoRRejcnt40, rhoRCtrl8, rhoRStatus16, rhoREven24, rhoRSig56, rhoRPhase64, rhoRRtquery72, rhoRHoldcnt80, rhoRLoop256, rhoRStbinc264, rhoRWpress272, rhoRWptgt280]

/-- BND.ERRCNT (15 R409). -/
def bndRErrcnt32 : RegSpec := ⟨32, 0, 1, false,
  ([⟨0, 32, .rw, 0, []⟩])⟩

/-- BND.REJCNT (15 R409). -/
def bndRRejcnt40 : RegSpec := ⟨40, 0, 1, false,
  ([⟨0, 32, .rw, 0, []⟩])⟩

/-- BND.CTRL (12 R357). -/
def bndRCtrl8 : RegSpec := ⟨8, 0, 1, false,
  ([⟨0, 16, .rw, 0, []⟩, ⟨16, 8, .rw, 0, []⟩, ⟨24, 1, .rw, 0, []⟩])⟩

/-- BND.STATUS (12 R357). -/
def bndRStatus16 : RegSpec := ⟨16, 0, 1, false,
  ([⟨0, 1, .w1c, 0, []⟩, ⟨1, 1, .ro, 0, []⟩, ⟨2, 1, .ro, 0, []⟩, ⟨3, 1, .w1c, 0, []⟩, ⟨4, 1, .ro, 0, []⟩, ⟨8, 4, .ro, 0, []⟩])⟩

/-- BND.EVEN (12 R357). -/
def bndREven24 : RegSpec := ⟨24, 0, 1, false,
  ([⟨0, 37, .rw, 0, []⟩])⟩

/-- BND.LOCK (12 R357). -/
def bndRLock48 : RegSpec := ⟨48, 0, 1, false,
  ([⟨0, 1, .w1s, 0, []⟩])⟩

/-- BND.DOORBELL (12 R357). -/
def bndRDoorbell56 : RegSpec := ⟨56, 0, 1, false,
  ([⟨0, 6, .wo, 0, []⟩])⟩

/-- BND.ACCERR (12 R357). -/
def bndRAccerr64 : RegSpec := ⟨64, 0, 1, false,
  ([⟨0, 32, .rw, 0, []⟩])⟩

/-- BND.LPCFG (12 R357). -/
def bndRLpcfg256 : RegSpec := ⟨256, 0, 1, false,
  ([⟨0, 3, .rw, 3, []⟩, ⟨3, 3, .rw, 3, []⟩, ⟨6, 3, .rw, 3, []⟩, ⟨9, 3, .rw, 3, []⟩, ⟨12, 3, .rw, 3, []⟩, ⟨15, 3, .rw, 3, []⟩, ⟨18, 3, .rw, 3, []⟩, ⟨21, 3, .rw, 3, []⟩, ⟨24, 3, .rw, 3, []⟩, ⟨27, 3, .rw, 3, []⟩, ⟨30, 3, .rw, 3, []⟩, ⟨33, 3, .rw, 3, []⟩, ⟨36, 3, .rw, 3, []⟩, ⟨39, 3, .rw, 3, []⟩, ⟨42, 3, .rw, 3, []⟩, ⟨45, 3, .rw, 3, []⟩])⟩

/-- BND.BWTO (12 R357). -/
def bndRBwto264 : RegSpec := ⟨264, 0, 1, false,
  ([⟨0, 16, .rw, 1024, [(64, 65535)]⟩])⟩

/-- BND.HMTO (12 R357). -/
def bndRHmto272 : RegSpec := ⟨272, 0, 1, false,
  ([⟨0, 32, .rw, 1048576, []⟩])⟩

/-- BND.BLTTO (12 R357). -/
def bndRBltto280 : RegSpec := ⟨280, 0, 1, false,
  ([⟨0, 32, .rw, 65536, []⟩])⟩

/-- BND.BLTDONE (12 R357). -/
def bndRBltdone288 : RegSpec := ⟨288, 0, 1, false,
  ([⟨0, 32, .rw, 0, []⟩])⟩

/-- BND.BLTWM (12 R357). -/
def bndRBltwm296 : RegSpec := ⟨296, 0, 1, false,
  ([⟨0, 16, .rw, 1, []⟩])⟩

/-- BND.BLTAB (12 R357). -/
def bndRBltab304 : RegSpec := ⟨304, 0, 1, false,
  ([⟨0, 32, .rw, 0, []⟩])⟩

/-- BND.HMLATE (12 R357). -/
def bndRHmlate312 : RegSpec := ⟨312, 0, 1, false,
  ([⟨0, 32, .rw, 0, []⟩])⟩

/-- BND.LPCNT (12 R357). -/
def bndRLpcnt512 : RegSpec := ⟨512, 8, 16, false,
  ([⟨0, 32, .rw, 0, []⟩, ⟨32, 32, .rw, 0, []⟩])⟩

/-- BND.SCNT (12 R357). -/
def bndRScnt768 : RegSpec := ⟨768, 8, 8, false,
  ([⟨0, 32, .rw, 0, []⟩])⟩

/-- BND.SNDCNT (12 R357). -/
def bndRSndcnt832 : RegSpec := ⟨832, 8, 8, false,
  ([⟨0, 16, .rw, 0, []⟩, ⟨16, 16, .rw, 0, []⟩])⟩

/-- The registers of a BND page. -/
def bndRegs : List RegSpec := [bndRErrcnt32, bndRRejcnt40, bndRCtrl8, bndRStatus16, bndREven24, bndRLock48, bndRDoorbell56, bndRAccerr64, bndRLpcfg256, bndRBwto264, bndRHmto272, bndRBltto280, bndRBltdone288, bndRBltwm296, bndRBltab304, bndRHmlate312, bndRLpcnt512, bndRScnt768, bndRSndcnt832]

/-- CTX.ERRCNT (15 R409). -/
def ctxRErrcnt32 : RegSpec := ⟨32, 0, 1, false,
  ([⟨0, 32, .rw, 0, []⟩])⟩

/-- CTX.REJCNT (15 R409). -/
def ctxRRejcnt40 : RegSpec := ⟨40, 0, 1, false,
  ([⟨0, 32, .rw, 0, []⟩])⟩

/-- CTX.CTRL (04 R88). -/
def ctxRCtrl8 : RegSpec := ⟨8, 0, 1, false,
  ([⟨0, 3, .wo, 0, []⟩])⟩

/-- CTX.STATUS (04 R93). -/
def ctxRStatus16 : RegSpec := ⟨16, 0, 1, false,
  ([⟨16, 1, .w1c, 0, []⟩, ⟨17, 1, .w1c, 0, []⟩, ⟨18, 1, .w1c, 0, []⟩])⟩

/-- CTX.EVEN (04 R93). -/
def ctxREven24 : RegSpec := ⟨24, 0, 1, false,
  ([⟨0, 12, .rw, 1024, [(1024, 2047)]⟩, ⟨12, 1, .rw, 0, []⟩, ⟨13, 1, .rw, 0, []⟩, ⟨14, 1, .rw, 0, []⟩])⟩

/-- CTX.LOCK (04 R93). -/
def ctxRLock48 : RegSpec := ⟨48, 0, 1, false,
  ([⟨0, 1, .w1s, 0, []⟩])⟩

/-- CTX.OPC (04 R93). -/
def ctxROpc64 : RegSpec := ⟨64, 0, 1, false,
  ([⟨0, 32, .rw, 0, []⟩])⟩

/-- CTX.FLAGPRED (04 R83). -/
def ctxRFlagpred72 : RegSpec := ⟨72, 0, 1, false,
  ([⟨0, 6, .rw, 0, []⟩, ⟨8, 1, .ro, 1, []⟩, ⟨9, 7, .rw, 0, []⟩])⟩

/-- CTX.LC (04 R93). -/
def ctxRLc80 : RegSpec := ⟨80, 0, 1, false,
  ([⟨0, 32, .rw, 0, []⟩, ⟨32, 32, .rw, 0, []⟩])⟩

/-- CTX.AREG01 (04 R93). -/
def ctxRAreg0188 : RegSpec := ⟨88, 0, 1, false,
  ([⟨0, 32, .rw, 0, []⟩, ⟨32, 32, .rw, 0, []⟩])⟩

/-- CTX.AREG23 (04 R93). -/
def ctxRAreg2396 : RegSpec := ⟨96, 0, 1, false,
  ([⟨0, 32, .rw, 0, []⟩, ⟨32, 32, .rw, 0, []⟩])⟩

/-- CTX.MREG (04 R84). -/
def ctxRMreg104 : RegSpec := ⟨104, 0, 1, false,
  ([⟨0, 6, .rw, 0, []⟩, ⟨16, 6, .rw, 0, []⟩, ⟨32, 6, .rw, 0, []⟩, ⟨48, 6, .rw, 0, []⟩])⟩

/-- CTX.CTXCFG (04 R85). -/
def ctxRCtxcfg112 : RegSpec := ⟨112, 0, 1, false,
  ([⟨0, 3, .rw, 0, []⟩, ⟨3, 1, .rw, 0, []⟩, ⟨4, 1, .rw, 0, []⟩, ⟨5, 1, .rw, 0, []⟩, ⟨6, 1, .rw, 0, []⟩, ⟨7, 1, .rw, 0, []⟩, ⟨8, 1, .rw, 0, []⟩, ⟨9, 1, .rw, 0, []⟩, ⟨16, 16, .rw, 4096, [(1, 65535)]⟩])⟩

/-- CTX.URGVEC (04 R85). -/
def ctxRUrgvec120 : RegSpec := ⟨120, 0, 1, false,
  ([⟨0, 14, .rw, 0, []⟩])⟩

/-- CTX.G (04 R93). -/
def ctxRG128 : RegSpec := ⟨128, 8, 16, false,
  ([⟨0, 64, .rw, 0, []⟩])⟩

/-- CTX.ENTRY (04 R93). -/
def ctxREntry256 : RegSpec := ⟨256, 0, 1, false,
  ([⟨0, 14, .rw, 0, []⟩])⟩

/-- CTX.EVMERGE (04 R93). -/
def ctxREvmerge336 : RegSpec := ⟨336, 0, 1, false,
  ([⟨0, 32, .rw, 0, []⟩])⟩

/-- CTX.STARVCNT (04 R93). -/
def ctxRStarvcnt344 : RegSpec := ⟨344, 0, 1, false,
  ([⟨0, 32, .rw, 0, []⟩])⟩

/-- CTX.OSTK (05 R151). -/
def ctxROstk768 : RegSpec := ⟨768, 8, 8, false,
  ([⟨0, 25, .rw, 0, []⟩, ⟨31, 1, .rw, 0, []⟩, ⟨32, 25, .rw, 0, []⟩, ⟨63, 1, .rw, 0, []⟩])⟩

/-- The registers of a CTX page. -/
def ctxRegs : List RegSpec := [ctxRErrcnt32, ctxRRejcnt40, ctxRCtrl8, ctxRStatus16, ctxREven24, ctxRLock48, ctxROpc64, ctxRFlagpred72, ctxRLc80, ctxRAreg0188, ctxRAreg2396, ctxRMreg104, ctxRCtxcfg112, ctxRUrgvec120, ctxRG128, ctxREntry256, ctxREvmerge336, ctxRStarvcnt344, ctxROstk768]

/-- The registers of a kind of page. -/
def pageRegs : PageKind → List RegSpec
  | .blk => blkRegs
  | .pwr => pwrRegs
  | .prs => prsRegs
  | .col => colRegs
  | .int => intRegs
  | .intk => intkRegs
  | .intsrc => intsrcRegs
  | .qui => quiRegs
  | .cst => cstRegs
  | .qmg => qmgRegs
  | .qsl => qslRegs
  | .qd => qdRegs
  | .dma => dmaRegs
  | .bnk => bnkRegs
  | .beam => beamRegs
  | .tmr => tmrRegs
  | .pio => pioRegs
  | .piog => piogRegs
  | .pin => pinRegs
  | .sti => stiRegs
  | .rho => rhoRegs
  | .bnd => bndRegs
  | .ctx => ctxRegs

/-- The type code a page reports in PAGEINFO (R407); the descriptor window has none. -/
def typeCode : PageKind → Nat
  | .blk => 1
  | .pwr => 2
  | .prs => 3
  | .col => 4
  | .int => 5
  | .intk => 6
  | .intsrc => 7
  | .qui => 8
  | .cst => 9
  | .qmg => 10
  | .qsl => 11
  | .qd => 0
  | .dma => 12
  | .bnk => 13
  | .beam => 14
  | .tmr => 15
  | .pio => 16
  | .piog => 17
  | .pin => 18
  | .sti => 19
  | .rho => 20
  | .bnd => 21
  | .ctx => 22

/-- The kind and instance number of a page, none for an unlisted page (R407, R408). -/
def pageKind (p : Nat) : Option (PageKind × Nat) :=
  if p = 0 then some (.blk, 0) else
  if p = 1 then some (.pwr, 0) else
  if p = 2 then some (.prs, 0) else
  if p = 3 then some (.col, 0) else
  if p = 4 then some (.int, 0) else
  if 5 ≤ p ∧ p < 13 then some (.intk, p - 5) else
  if 16 ≤ p ∧ p < 24 then some (.intsrc, p - 16) else
  if 32 ≤ p ∧ p < 64 then some (.qui, p - 32) else
  if 64 ≤ p ∧ p < 96 then some (.cst, p - 64) else
  if p = 96 then some (.qmg, 0) else
  if 97 ≤ p ∧ p < 113 then some (.qsl, p - 97) else
  if 128 ≤ p ∧ p < 192 then some (.qd, p - 128) else
  if 192 ≤ p ∧ p < 256 then some (.dma, p - 192) else
  if 256 ≤ p ∧ p < 384 then some (.bnk, p - 256) else
  if p = 384 then some (.beam, 0) else
  if 385 ≤ p ∧ p < 401 then some (.tmr, p - 385) else
  if 416 ≤ p ∧ p < 448 then some (.pio, p - 416) else
  if 448 ≤ p ∧ p < 452 then some (.piog, p - 448) else
  if 464 ≤ p ∧ p < 468 then some (.pin, p - 464) else
  if 480 ≤ p ∧ p < 484 then some (.sti, p - 480) else
  if p = 484 then some (.rho, 0) else
  if p = 496 then some (.bnd, 0) else
  if 1024 ≤ p ∧ p < 2048 then some (.ctx, p - 1024) else
  none

/-- Whether the register at page offset `o` belongs to `r`. -/
def RegSpec.holds (r : RegSpec) (o : Nat) : Bool :=
  if r.count = 1 then o == r.off
  else r.off ≤ o && (o - r.off) % r.stride == 0 && (o - r.off) / r.stride < r.count

/-- The register whose home is at window offset `key`. -/
def regSpecAt (key : Nat) : Option RegSpec :=
  match pageKind (key / 4096) with
  | none => none
  | some (k, _) => (pageRegs k).find? (fun r => r.holds (key % 4096))

/-- The reset value a list of fields gives. -/
def fieldsReset : List FieldSpec → Nat
  | [] => 0
  | f :: fs => f.reset * 2 ^ f.lo + fieldsReset fs

/-- The reset value of the register at window offset `key`; 0 where no register has its home there. -/
def resetWord (key : Nat) : Word :=
  match regSpecAt key with
  | none => 0
  | some r => BitVec.ofNat 64 (fieldsReset r.fields)

/-- A field of a register: the register's home, the lowest bit and the width. -/
structure RF where
  key : Nat
  lo : Nat
  width : Nat
  deriving DecidableEq, Repr

end Sys2Proof.Machine
end

