-- ==== Sys2Proof/Machine/SMap.lean ====
section
/-! DEFINITION. Sparse tables in canonical form: keys strictly rising, and no entry equal to what an unlisted key reads
as. `d` is what an unlisted key reads as. Equal tables are then equal lists. -/

namespace Sys2Proof.Machine

variable {α : Type}

/-- What key `k` reads as. -/
def tget (d : Nat → α) : Table α → Nat → α
  | [], k => d k
  | (i, v) :: t, k => if i = k then v else tget d t k

/-- The table with an entry for `k`, in key order. -/
def tput (k : Nat) (v : α) : Table α → Table α
  | [] => [(k, v)]
  | (i, w) :: t => if k < i then (k, v) :: (i, w) :: t else if k = i then (k, v) :: t else (i, w) :: tput k v t

/-- The table with `k` reading as `v`: an entry equal to the default is removed. -/
def tset [DecidableEq α] (d : Nat → α) (k : Nat) (v : α) (t : Table α) : Table α :=
  if v = d k then t.filter (fun e => e.1 != k) else tput k v t

/-- The table with the entries whose key satisfies `p` back at their default. -/
def tclear (p : Nat → Bool) (t : Table α) : Table α := t.filter (fun e => !p e.1)

/-- Canonical form from key `lb` on. -/
def twfFrom [DecidableEq α] (d : Nat → α) : Nat → Table α → Bool
  | _, [] => true
  | lb, (i, v) :: t => decide (lb ≤ i) && decide (v ≠ d i) && twfFrom d (i + 1) t

/-- The canonical form: keys strictly rising and no entry equal to its default. -/
def twf [DecidableEq α] (d : Nat → α) (t : Table α) : Bool := twfFrom d 0 t

end Sys2Proof.Machine
end

