-- ==== Sys2Proof/Machine/Units.lean ====
section
/-! DEFINITION. The typed state of the units: everything the chapters give a unit beside its registers (INVENTORY.md,
'## State', lists each with its rule). Registers are in `State.regs`. -/

namespace Sys2Proof.Machine

/-- Context states (R86). -/
inductive CtxSt where
  | idle | ready | run | wait | stall | parked | faulted
  deriving DecidableEq, Repr

/-- A shipped ROM routine in progress (R24, R138, R141): log entry 6. `start` is its DISP word, `act` a DISP word that carries
a boundary action, `pad` the words before the DISP word that have no effect of their own (R167). `cls` of a trap is its fault
class; `idx` is the dispatch index whose routine it is, `phase` counts its words, and `x`, `y` are values it keeps between them. -/
inductive Routine where
  | start
  | act (xop : Nat)
  | pad (left : Nat)
  | trap (cls : Nat)
  | boot (phase : Nat)
  | olupo (idx phase : Nat) (x y : Word)
  deriving DecidableEq, Repr

/-- An entry of the micro return stack with its urgent mark (R82, R108), and the shipped routine it returns into. -/
structure MEntry where
  addr : BitVec 14
  urgent : Bool
  cont : Option Routine
  deriving DecidableEq, Repr

/-- An event-table entry (R100); it is valid while `w` or `u` is set. -/
structure EtEntry where
  event : BitVec 12
  w : Bool
  u : Bool
  p : Bool
  deriving DecidableEq, Repr

/-- A context's word register (R22, R58): empty, a corrected word, an uncorrectable one with its syndrome and whether a
folio reload started, or a word of a shipped routine. -/
inductive WordReg where
  | empty
  | good (w : Micro)
  | bad (syndrome : BitVec 16) (reload : Bool)
  | shipped (r : Routine)
  deriving DecidableEq, Repr

/-- A decoded Olupo instruction: its decode word (R135), its immediate or displacement, its address, its bytes (R114). -/
structure Decoded where
  word : Word
  imm : Word
  addr : BitVec 32
  bytes : BitVec 112
  deriving DecidableEq, Repr

/-- A 16-byte line of a fetch buffer (R130): line number, bytes, whether it could not be fetched. -/
structure FetchLine where
  line : BitVec 28
  data : BitVec 128
  invalid : Bool
  deriving DecidableEq, Repr

/-- A word between its issue and its commit (R58): everything read and decided in the issue cycle. -/
structure Issued where
  addr : BitVec 14
  word : WordReg
  a : Word
  b : Word
  eff : Bool
  psetVal : Option Bool
  guardOk : Bool
  next : BitVec 14
  cont : Option Routine
  pushes : List MEntry
  popped : Bool
  underflow : Bool
  divert : Option (BitVec 12)
  handover : Bool
  deriving DecidableEq, Repr

/-- How far a bank operation of a context has come (R172): requested, or read at its bank, with the 64-bit word as it was
stored there and its syndrome, not yet delivered. -/
inductive BankPhase where
  | requested
  | delivered (word : Word) (syndrome : BitVec 8)
  deriving DecidableEq, Repr

/-- A bank operation issued and not yet answered (R48, R172). `off` is the address of the word that carried it. -/
structure BankOp where
  memop : BitVec 4
  addr : BitVec 32
  data : Word
  off : BitVec 14
  strict : Bool
  phase : BankPhase
  deriving DecidableEq, Repr

/-- A queue operation of a context awaiting its completion in order (R40): number, operation, and its answer. -/
structure CtxQop where
  id : Nat
  qop : BitVec 4
  answer : Option (Word × Bool)
  deriving DecidableEq, Repr

/-- What a word held under R115 turns into once its operation is accepted. -/
inductive Follow where
  | cont | wait | park
  deriving DecidableEq, Repr

/-- A hold of R115: the answers still missing, and what follows. -/
structure Hold where
  bank : Bool
  queue : Bool
  follow : Follow
  deriving DecidableEq, Repr

/-- A divide in flight (R77): signed or not, and its operands. -/
structure DivOp where
  signed : Bool
  a : Word
  b : Word
  deriving DecidableEq, Repr

/-- A context's state beside its registers (R82). Of its last word: address, routine, POLL, and WMODE, MSTRAP and URGVEC as they
stood before it, which govern its waiting (R57, R67). `recAt` is the last FCLK in which W entries recorded assertions, with the lowest
of their events, and `metAt` the FCLK in which the wait mask was last satisfied (R104). -/
structure Ctx where
  st : CtxSt
  maddr : BitVec 14
  ownAddr : BitVec 14
  ownRt : Option Routine
  waitPoll : Bool
  waitAll : Bool
  waitTrap : Bool
  waitVec : BitVec 14
  recAt : Option (Nat × Nat)
  metAt : Option Nat
  word : WordReg
  inflight : Option Issued
  stopPend : Bool
  mstk : List MEntry
  et : Table EtEntry
  urg : Bool
  fclass : Nat
  finfo : Word
  evlast : BitVec 12
  pollcnt : Nat
  starved : Bool
  blatch : Word
  bEmpty : Bool
  qlatch : Word
  qEmpty : Bool
  qok : Bool
  atomZero : Bool
  poisoned : Bool
  corrected : Bool
  hiprod : Word
  quot : Word
  rem : Word
  div : Option DivOp
  divReady : Bool
  ops : List BankOp
  qops : List CtxQop
  hold : Option Hold
  cur : Option Decoded
  nxt : Option Decoded
  olatch : Word
  lines : List FetchLine
  routine : Option Routine
  pend9 : Option (BitVec 14 × Nat)
  deriving DecidableEq, Repr

/-- What an event-table entry is after reset (R82). -/
def EtEntry.reset : EtEntry := ⟨0, false, false, false⟩

/-- A context after reset (R82, R89). -/
def Ctx.reset : Ctx where
  st := .idle
  maddr := 0
  ownAddr := 0
  ownRt := none
  waitPoll := false
  waitAll := false
  waitTrap := false
  waitVec := 0
  recAt := none
  metAt := none
  word := .empty
  inflight := none
  stopPend := false
  mstk := []
  et := []
  urg := false
  fclass := 0
  finfo := 0
  evlast := 0
  pollcnt := 0
  starved := false
  blatch := 0
  bEmpty := false
  qlatch := 0
  qEmpty := false
  qok := false
  atomZero := false
  poisoned := false
  corrected := false
  hiprod := 0
  quot := 0
  rem := 0
  div := none
  divReady := false
  ops := []
  qops := []
  hold := none
  cur := none
  nxt := none
  olatch := 0
  lines := []
  routine := none
  pend9 := none

/-- A control-store load or reload in progress (R379, R382): the folio being written, the last one, the image's base and
first folio. -/
structure StoreLoad where
  folio : Nat
  last : Nat
  base : Nat
  first : Nat
  deriving DecidableEq, Repr

/-- A quire's state beside its registers (R59, R131, R22, R379, R382). -/
structure Quire where
  slotPos : Nat
  dq : List Nat
  wback : List (Nat × Stored)
  load : Option StoreLoad
  reload : Option StoreLoad
  reloadReq : List Nat
  nextQop : Nat
  deriving DecidableEq, Repr

/-- A quire after reset. -/
def Quire.reset : Quire := ⟨0, [], [], none, none, [], 0⟩

/-- An occurrence admitted to the colophon's intake, with the SUPP and SAT its admission loaded (R387, R389, R392). -/
structure Occ where
  code : Nat
  source : Nat
  sw : Bool
  a0 : Word
  a1 : Word
  a2 : Word
  supp : Nat
  sat : Bool
  deriving DecidableEq, Repr

/-- The colophon's state beside its registers (R386, R389, R392, R393, R395-R399): the ring by slot, how many records stand in it,
the intake, how many occurrences the present FCLK accepted, buckets and SAT marks, occurrences counted before the base, a
freeze and its codes, AUTH, the elements of the record being pushed that are still to push, the elements of a record popped at
the flush port and not transferred, whether the port has stopped taking records from the queue, the last record of a running
power-fail flush, the PF mark, the frame count of the refills, and the last transfer at the port with its FL_PF. -/
structure Colophon where
  ring : Table (BitVec 256)
  live : Nat
  intake : List Occ
  accepted : Nat × Nat
  tokens : Table Nat
  sat : Table Bool
  baseCount : Nat
  freezing : Bool
  frzLow : Nat
  frzHigh : Nat
  auth : BitVec 32
  pushRest : List Word
  portPart : List Word
  portStop : Bool
  pfEnd : Option Nat
  pf : Bool
  frames : Nat
  flOut : Option (BitVec 256 × Bool)
  deriving DecidableEq, Repr

/-- The colophon after KRST_N, before its base (R399). -/
def Colophon.reset : Colophon :=
  ⟨[], 0, [], (0, 0), [], [], 0, false, 0, 0, 0, [], [], false, none, false, 0, none⟩

/-- Who presented a queue operation, and what its completion reaches (R192, R205). -/
inductive QTag where
  | ctx (c id : Nat)
  | dma (n : Nat)
  | port (p : Nat)
  | stitch (p : Nat)
  deriving DecidableEq, Repr

/-- A request at a slice (R204, R205): requester port as LAST.PORT numbers it (R212), operation code of R50, queue, data,
the address of the word that carried it, whether STQ held when it was issued, and the FCLK in which it reached the head of
its port's buffer. -/
structure QReq where
  port : Nat
  qop : Nat
  queue : Nat
  data : Word
  tag : QTag
  off : BitVec 14
  strict : Bool
  since : Nat
  deriving DecidableEq, Repr

/-- An accepted operation whose element access is not complete (R199): the request and its slot's element index. -/
structure QAccess where
  req : QReq
  index : Nat
  deriving DecidableEq, Repr

/-- A queue-manager slice beside its registers (R198, R199, R205, R212). A granted operation carries whether its queue was enabled at
the grant (R196). The reserved pointers of R199 are the committed ones
moved on by the accepted accesses of the queue that are not complete. `grants` is the last FCLK in which QUEUE_GRANT granted and how
many, `since` when a request of a port other than a quire's reached the slice, one more than the FCLK. -/
structure Slice where
  reqs : List QReq
  granted : List (QReq × Bool)
  accesses : List QAccess
  lastPort : Nat
  wback : List (Nat × Bool)
  grants : Nat × Nat
  since : Table Nat
  deriving DecidableEq, Repr

/-- A slice after reset: rotation begins at port 0 (R205). -/
def Slice.reset : Slice := ⟨[], [], [], 63, [], (0, 0), []⟩

/-- The beam generator beside its registers (R213, R215, R217, R315): position, frame count, divider accumulator, held
geometry writes, the ticks of a first-lock step waiting for the next tick, and the FCLK of the last tick. -/
structure Beam where
  tick : Nat
  line : Nat
  frame : Nat
  acc : Nat
  heldGeom : Option Word
  heldHact : Option Word
  heldVact : Option Word
  heldSync : Option Word
  coarse : Option Nat
  last : Nat
  deriving DecidableEq, Repr

/-- The beam after reset (R213). -/
def Beam.reset : Beam := ⟨0, 0, 0, 0, none, none, none, none, none, 0⟩

/-- A BLITGO waiting for its acceptance (R342, R343): context, address of the XOP word, limit when it committed, and whether the
context has been stopped since, so that its timeout no longer faults it (R90). -/
structure BlitReq where
  ctx : Nat
  addr : BitVec 14
  limit : Nat
  stopped : Bool
  deriving DecidableEq, Repr

/-- The blit port (R342, R344): waiting requests, the words taken so far for the accepted request, whether a command is with
the blitter, the command last presented. -/
structure Blit where
  waiting : List BlitReq
  words : Option (List Word)
  out : Bool
  cmd : BitVec 256
  deriving DecidableEq, Repr

/-- The blit port after reset. -/
def Blit.reset : Blit := ⟨[], none, false, 0⟩

/-- A deadline being served at a line-parameter port (R338): target frame and line, records dropped so far, and the elements
already popped of a record, with whether it is the target's own. -/
structure LpServe where
  frame : Nat
  line : Nat
  drops : Nat
  got : List Word
  own : Bool
  deriving DecidableEq, Repr

/-- A record as a line-parameter port presents it (R339). -/
structure LpRecord where
  data : BitVec 512
  line : Nat
  reuse : Bool
  deriving DecidableEq, Repr

/-- A line-parameter port (R338, R339): the last record taken, the deadline being served, records decided and not yet presented,
and the record held with VALID. -/
structure LpPort where
  last : BitVec 512
  serve : Option LpServe
  next : List LpRecord
  held : Option LpRecord
  deriving DecidableEq, Repr

/-- A line-parameter port after reset (R338). -/
def LpPort.reset : LpPort := ⟨0, none, [], none⟩

/-- What a sound port presents (R341). -/
structure SoundRecord where
  ch : Nat
  param : Nat
  value : Word
  late : Bool
  deriving DecidableEq, Repr

/-- A sound port beside its registers (R341): the first element of a due record already popped, and the record last presented. -/
structure SoundPort where
  first : Option Word
  out : Option SoundRecord
  deriving DecidableEq, Repr

/-- A sound port after reset. -/
def SoundPort.reset : SoundPort := ⟨none, none⟩

/-- An offer on a core's vector bus (R352): source, level and vector as driven. -/
structure Offer where
  src : Nat
  lvl : Nat
  vec : BitVec 32
  deriving DecidableEq, Repr

/-- The interrupt controller beside its registers (R351, R352): the offer of each core, srot and crot. -/
structure IntCtl where
  offer : Table (Option Offer)
  srot : Table Nat
  crot : Nat
  deriving DecidableEq, Repr

/-- The interrupt controller after reset (R351). -/
def IntCtl.reset : IntCtl := ⟨[], [], 0⟩

/-- The test data registers (R349): the bank MARCHTDR last named, and the value last captured. -/
structure Tdr where
  bank : Nat
  cap : Word
  deriving DecidableEq, Repr

/-- The test data registers after reset. -/
def Tdr.reset : Tdr := ⟨0, 0⟩

/-- A press trigger waiting for its press FCLK (R400): when, and its kind. -/
structure PressTrig where
  due : Nat
  kind : Nat
  deriving DecidableEq, Repr

/-- A domain's transition (R363, R366): lowering, with the state an exit that waits for its end goes to; or an exit to a state. -/
inductive Move where
  | lowering (next : Option Nat)
  | exiting (target : Nat)
  deriving DecidableEq, Repr

/-- The power and clock controller's state beside its registers (R358-R377): the multiplier in effect, the one the idle synthesiser
runs at, whether the switch event has come, whether FCLK runs or restarts, the states and transitions of the domains, which
domains a wake entry keeps awake, the PWRFAIL edge latch, PF_DONE, the reset inputs and whether KRST_N came
last, TEST_MODE and the mode it returns to, and
the filtered level of PWRFAIL. -/
structure Power where
  fmul : Nat
  idle : Option Nat
  swSeen : Bool
  running : Bool
  starting : Bool
  cur : Table Nat
  moves : Table (Option Move)
  kept : Table Bool
  pfLatch : Bool
  pfDone : Bool
  krstLow : Bool
  rstLow : Bool
  cold : Bool
  testMode : Bool
  heldMode : Nat
  pwrfail : Bool
  deriving DecidableEq, Repr

/-- The fuses the block reads at reset (R374, R375, R185): inputs of the host chip. -/
structure Fuses where
  refMhz : Nat
  fmul0 : Nat
  bootSel : Nat
  marchEn : Bool
  blen8 : Nat
  bootPtr : Nat
  repair : Table Nat
  deriving DecidableEq, Repr

/-- A write step accepted on Port A and still to come (R171, R172): the word index in bank space, the word to store, the bytes
the requester writes (none for an AADD that found a poisoned word), the syndrome of a poisoned word that a partial write found
(R180), the requester code, whether it is an atomic's, and, of a write of a DMA channel, the channel and the event line that its
performing posts (R252, R253). -/
structure WStep where
  word : Nat
  data : Word
  mask : Nat
  drop : Option (BitVec 8)
  req : Nat
  atomic : Bool
  chan : Option Nat
  line : Option Nat
  deriving DecidableEq, Repr

/-- A running march (R187, R188): which one, the number of the next access (within the group, for a preserving march), the
group, the save buffer's words, and whether a read of this run has failed. -/
structure March where
  preserving : Bool
  pos : Nat
  group : Nat
  save : List (BitVec 72)
  failed : Bool
  deriving DecidableEq, Repr

/-- A Port A write step performed (R176, R177): its BCLK, its word, and whether it was an atomic's. -/
structure DoneStep where
  bclk : Nat
  word : Nat
  atomic : Bool
  deriving DecidableEq, Repr

/-- A bank beside its memory and registers (R172, R174, R176, R177, R179, R187): write steps to come, words whose correction waits
to be written back, the march, the data of the last Port B read, the Port A write steps performed in the BCLK of the last one, and
the last BCLK that Port B is taken in, with the requester code of its user. -/
structure Bank where
  wsteps : List WStep
  wb : List Nat
  march : Option March
  bdata : BitVec 128
  doneA : List DoneStep
  busyB : Nat
  userB : Nat
  deriving DecidableEq, Repr

/-- A bank after reset. -/
def Bank.reset : Bank := ⟨[], [], none, 0, [], 0, 0⟩

/-- A timer beside its registers (R226-R228, R231, R233, R235, R236): count events of its source and master events that have come
and not been applied, captures that follow a count event still to be applied (how many are before each), the FCLK in which its
prescaler phase last restarted, and direct actions triggered and not performed. -/
structure Timer where
  due : Nat
  mev : Nat
  caps : List Nat
  phase0 : Nat
  acts : List (Nat × Nat)
  deriving DecidableEq, Repr

/-- A timer after reset. -/
def Timer.reset : Timer := ⟨0, 0, [], 0, []⟩

/-- Writes of a keeper timer that wait for the next SCLK edge (R239). -/
structure Keeper where
  count : Option Nat
  cmp : Option Nat
  deriving DecidableEq, Repr

/-- A keeper timer after reset. -/
def Keeper.reset : Keeper := ⟨none, none⟩

/-- A pin beside its registers (R283, R285-R289): the level the pad cell delivers from outside, the filtered level, the
engine's output and direction latches, the event-out level, what a switch in progress does with the pad (the FCLK of its
write, and the value kept), and the value held while the driving function's domain is lowered; `count` is the filter's: samples that
have held the new level, or samples still to be ignored (R286). -/
structure Pin where
  ext : Bool
  filt : Bool
  count : Nat
  val : Bool
  dir : Bool
  evOut : Bool
  gap : Option (Nat × Option Bool)
  hold : Option Bool
  deriving DecidableEq, Repr

/-- A pin after reset (R289; the pad's level is of no source: log entry 14). -/
def Pin.reset : Pin := ⟨false, false, 0, false, false, false, none, none⟩

/-- An engine's stalled instruction: its word, its address, and the cause STATUS reports (R266, R290). -/
structure Stalled where
  word : BitVec 32
  addr : Nat
  cause : Nat
  deriving DecidableEq, Repr

/-- An I/O engine beside its registers (R262, R271). `seen` is the WAITE's record of a matching occurrence. -/
structure Engine where
  pc : Nat
  x : BitVec 32
  y : BitVec 32
  txs : BitVec 32
  rxs : BitVec 32
  txbits : Nat
  rxbits : Nat
  nodata : Bool
  noroom : Bool
  txq : List (BitVec 32)
  rxq : List (BitVec 32)
  acc : Nat
  stalled : Option Stalled
  delay : Nat
  seen : Bool
  deriving DecidableEq, Repr

/-- An engine after reset (R262). -/
def Engine.reset : Engine := ⟨0, 0, 0, 0, 0, 0, 0, false, false, [], [], 0, none, 0, false⟩

/-- What reached the engines in an FCLK (R271): which FCLK, the lines asserted, and the marks executed, each with its engine. -/
structure Heard where
  fclk : Nat
  lines : List Nat
  marks : List (Nat × Nat)
  deriving DecidableEq, Repr

/-- Nothing heard. -/
def Heard.reset : Heard := ⟨0, [], []⟩

/-- What the block last answered outside (R287, R329, R332): the error and data of the last register and bank-window
responses, and the last read of each private GPIO port. -/
structure Responses where
  rgErr : Bool
  rgData : BitVec 32
  bwErr : Bool
  bwData : BitVec 32
  gpio : Table (BitVec 32)
  deriving DecidableEq, Repr

/-- Nothing answered yet. -/
def Responses.reset : Responses := ⟨false, 0, false, 0, []⟩

/-- The answer of a bank-window access (R332): the data of a normal one, or the cause of an error response. -/
inductive BwAnswer where
  | normal (data : BitVec 32)
  | failed (cause : Nat)
  deriving DecidableEq, Repr

/-- An access accepted at the bank window and not yet answered (R332): its address in 32-bit words, direction, byte enables and data,
and its answer once it has one. -/
structure BwAccess where
  addr : Nat
  write : Bool
  be : Nat
  data : BitVec 32
  answer : Option BwAnswer
  deriving DecidableEq, Repr

/-- A burst of a channel (R250, R257): its length, the source bytes kept from a whole element read before (R243), the source
bytes read, the destination bytes written, and the tag of the host master burst it waits for. -/
structure Burst where
  len : Nat
  kept : List Byte
  got : List Byte
  put : Nat
  tag : Option Nat
  deriving DecidableEq, Repr

/-- A channel beside its registers (R245, R248, R253, R260): bytes left of the running step, whether the half event of this pass
was posted, source bytes of an element not used yet, the burst in progress, whether a queue operation waits to be presented
again, and a pending ABORT. -/
structure Dma where
  stepLeft : Nat
  half : Bool
  kept : List Byte
  burst : Option Burst
  qwait : Bool
  abort : Bool
  deriving DecidableEq, Repr

/-- A channel after reset. -/
def Dma.reset : Dma := ⟨0, false, [], none, false, false⟩

/-- A burst outstanding at the host master port (R333): tag, channel, direction, address, length, the bytes of a write, or the
beats of a read received so far, and whether a beat failed. -/
structure HmBurst where
  tag : Nat
  chan : Nat
  write : Bool
  addr : BitVec 63
  len : Nat
  data : List Byte
  failed : Bool
  deriving DecidableEq, Repr

/-- The host master port (R251, R333): credits held, bursts outstanding, and the group last served. -/
structure HostMaster where
  credits : Nat
  out : List HmBurst
  turn : Nat
  deriving DecidableEq, Repr

/-- The host master port after reset (R333). -/
def HostMaster.reset : HostMaster := ⟨0, [], 7⟩

/-- A frame in a port's receive buffer (R300, R304-R306): the frame, its order of arrival, the ports it has still to start on, the
ports it is being sent on while it is still arriving, the bytes of its local delivery done (none where it has none to do), whether
it is misrouted, whether it has arrived in full, and whether a LINEAHEAD's window has been judged (R318). -/
structure RxEntry where
  frame : Frame
  seq : Nat
  outs : List Nat
  live : List Nat
  todo : Option Nat
  misroute : Bool
  ended : Bool
  judged : Bool
  deriving DecidableEq, Repr

/-- A block on the link (R293): its lane, its sync header and its scrambled payload. -/
structure LineBlock where
  lane : Bool
  header : BitVec 2
  payload : Word
  deriving DecidableEq, Repr

/-- What a port transmits (R293, R294, R296, R300, R313): the scrambler's register, the number of the next block, the block from which
on an ALIGN is due, the blocks of the present frame boundary, the echo request to be answered with its arrival time, whether an ECHOREQ
and a BEAM marker are due, the FREED last returned, and the last frame and contents sent of ECHOREQ, ECHORSP, BEAM and CREDIT. -/
structure LinkTx where
  reg : BitVec 58
  slot : Nat
  alignAt : Nat
  line : List LineBlock
  dueRsp : Option (BitVec 32 × Nat)
  dueReq : Bool
  dueBeam : Bool
  returned : Table Nat
  sentFrame : Option Frame
  sentReq : Option (BitVec 32)
  sentRsp : Option (BitVec 32 × BitVec 16)
  sentBeam : Option (BitVec 48)
  sentCredit : Option (BitVec 48)
  deriving DecidableEq, Repr

/-- Nothing sent and nothing due (the register: log entry 66). -/
def LinkTx.reset : LinkTx := ⟨0, 0, 0, [], none, false, false, [], none, none, none, none, none⟩

/-- A stitch port beside its registers (R295, R296, R299-R303, R309, R315): the frame being received, the receive buffer, link-mode
frames to send, frames Rhoba originates here for a channel, whether the output is in the middle of a cut-through frame, credits
freed to and by the far end since the last HELLO, the header at the head of each channel's queue, elements of a bad frame still to
discard, the channel last served, the last round trips, echo requests unanswered, echo intervals, whether HELLO has come and gone,
whether the link took part in the last walk, the far SIG and PORT recorded at it, whether the far end's geometry was last seen to
differ, and what the port transmits. -/
structure Stitch where
  rx : Option RxEntry
  buf : List RxEntry
  linkOut : List Frame
  own : List Frame
  busy : Bool
  freed : Table Nat
  seen : Table Nat
  heads : Table (Option Word)
  skip : Table Nat
  lastVc : Nat
  echoes : List Nat
  unanswered : Nat
  intervals : Nat
  helloIn : Bool
  helloOut : Bool
  inWalk : Bool
  walked : Option (Nat × Nat)
  geomBad : Bool
  tx : LinkTx
  deriving DecidableEq, Repr

/-- A port after reset (R295). -/
def Stitch.reset : Stitch :=
  ⟨none, [], [], [], false, [], [], [], [], 15, [], 0, 0, false, false, false, none, false, LinkTx.reset⟩

/-- An enumeration walk on this device (R310): whether it began here, the upstream port of its token otherwise, the port whose
answer it waits for, and the next number. -/
structure Walk where
  root : Bool
  up : Nat
  port : Nat
  next : Nat
  deriving DecidableEq, Repr

/-- Rhoba beside its registers (R296, R307, R310, R314-R316, R321-R324): the stitch time in units of 2^-24 ns, the integrator, runs of
near and far markers, whether the device has locked since RHOEN rose, the route table, the walk, a walk asked for, whether the
current epoch is new, the recorded port of a passing REJOIN, whether this device asked for one, the rejoin link in use, a frame
count to take at the next WALLSYNC, and one to take at the next frame start, the arrival count of frames, LATEDROP (R318), whether a
holdover has been entered (HOLDCNT counts from there), and whether the path has been reversed in this holdover. -/
structure Rho where
  time : Nat
  integ : Int
  near : Nat
  far : Nat
  everLocked : Bool
  routes : Table Nat
  walk : Option Walk
  walkReq : Bool
  newEpoch : Bool
  recorded : Option Nat
  requested : Bool
  slewPort : Option Nat
  coarseFrame : Bool
  frameFix : Option Nat
  seq : Nat
  lateDrop : Nat
  heldOver : Bool
  reversed : Bool
  deriving DecidableEq, Repr

/-- Rhoba after reset (stitch time: log entry 15). -/
def Rho.reset : Rho := ⟨0, 0, 0, 0, false, [], none, false, false, none, false, none, false, none, 0, 0, false, false⟩

end Sys2Proof.Machine
end

