-- ==== Sys2Proof/Machine/State.lean ====
section
/-! DEFINITION. The state of the block: plain data, holding every register, memory, queue, buffer and status the spec
names (INVENTORY.md, '## State'), and the queue of waiting commands. -/

namespace Sys2Proof.Machine

/-- Where a run stops: no command of the block stops it. -/
inductive Fault where
  deriving DecidableEq, Repr

/-- A command without a meaning. -/
inductive Refusal where
  /-- Raised by an arm of `exec` whose command has no meaning yet. Safe: the model stops. -/
  | notModelled (mnemonic : String)
  deriving DecidableEq, Repr

/-- The block. Tables are sparse and canonical (`Machine/SMap.lean`). -/
structure State where
  pending : List Instr
  fclk : Nat
  freeCtr : Nat
  regs : Table Word
  held : Table (Option (BitVec 32))
  mem : List Host.Cell
  chk : List Host.Cell
  cst : Table Stored
  disp : Table (BitVec 14)
  snap : Table Word
  posted : List (Nat × Nat)
  ctx : Table Ctx
  qui : Table Quire
  qsl : Table Slice
  qdErr : Table (BitVec 72)
  bnk : Table Bank
  beam : Beam
  tmr : Table Timer
  keep : Table Keeper
  cvtrig : Table Nat
  lp : Table LpPort
  snd : Table SoundPort
  blit : Blit
  int : IntCtl
  tdr : Tdr
  qdHigh : Table (Option (BitVec 32))
  col : Colophon
  prs : List PressTrig
  pwr : Power
  fuse : Fuses
  pin : Table Pin
  pio : Table Engine
  heard : Heard
  dma : Table Dma
  dmaTurn : Table Nat
  hm : HostMaster
  resp : Responses
  bw : List BwAccess
  sti : Table Stitch
  rho : Rho
  deriving DecidableEq, Repr

/-- The fuses of the host chip this model is reset with: a 50 MHz reference, FCLK at 2.0 GHz, every other fuse unprogrammed
(log entry 7). -/
def Fuses.model : Fuses := ⟨50, 640, 0, false, 0, 0, []⟩

/-- Power and clocks when the start-up sequence has ended (R358, R374): FCLK runs, every domain is ON. -/
def Power.reset : Power where
  fmul := 640
  idle := none
  swSeen := false
  running := true
  starting := false
  cur := []
  moves := []
  kept := []
  pfLatch := false
  pfDone := false
  krstLow := false
  rstLow := false
  cold := true
  testMode := false
  heldMode := 0
  pwrfail := false

/-- The block right after reset: KRST_N has been released and the start-up sequence of R374 has run, with the HOST boot of R375 and the
fuses of log entry 7. Every register holds the reset value of its table (`resetWord`), memory and the control store's RAM are
zero, and the colophon has no base yet (R399). -/
def State.reset : State where
  pending := []
  fclk := 0
  freeCtr := 0
  regs := []
  held := []
  mem := []
  chk := []
  cst := []
  disp := []
  snap := []
  posted := []
  ctx := []
  qui := []
  qsl := []
  qdErr := []
  bnk := []
  beam := Beam.reset
  tmr := []
  keep := []
  cvtrig := []
  lp := []
  snd := []
  blit := Blit.reset
  int := IntCtl.reset
  tdr := Tdr.reset
  qdHigh := []
  col := Colophon.reset
  prs := []
  pwr := Power.reset
  fuse := Fuses.model
  pin := []
  pio := []
  heard := Heard.reset
  dma := []
  dmaTurn := []
  hm := HostMaster.reset
  resp := Responses.reset
  bw := []
  sti := []
  rho := Rho.reset

end Sys2Proof.Machine
end

