-- ==== Sys2Proof/Config.lean ====
section
/-! DEFINITION. What the spec leaves to the ROM image or leaves open: constants with no body, so that nothing in Lean can
prove a value of them. NOTES.md and notes/assumptions/4.md, 5.md say where each is used. -/

namespace Sys2Proof

/-- The microword at an address of the mask ROM (R20): the spec gives the ROM's entry points (R24), not its words. -/
opaque Config.romWord : Nat → BitVec 192

/-- The word within ROM folios 0 to 7 at which the shipped routine of a defined dispatch index begins (R138). -/
opaque Config.shippedRoutine : Nat → BitVec 12

/-- A free 64-bit value: each use reads it at the next value of `State.freeCtr` (log entry 4). -/
opaque Config.freeWord : Nat → BitVec 64

/-- What scanning leaves of the block (R349): a list of states, the first canonical one of which is a free value (log entry 65). -/
opaque Config.scanned : Nat → List Machine.State

end Sys2Proof
end

