-- ==== Sys2Proof/Machine/RegNames.lean ====
section
/-! DEFINITION. Names for the homes of the registers and their fields, one per field of the chapters' tables: a key is
the register's window offset, page × 0x1000 + offset (R406). The argument `u` is the instance of the page, `i` the index in an array. -/

namespace Sys2Proof.Machine

/-- BLK.ERRCNT (15 R409, R416). -/
def R.BLK_ERRCNT : Nat := 32
def F.BLK_ERRCNT_ERRCNT : RF := ⟨R.BLK_ERRCNT, 0, 32⟩
/-- BLK.REJCNT (15 R416). -/
def R.BLK_REJCNT : Nat := 40
def F.BLK_REJCNT_REJCNT : RF := ⟨R.BLK_REJCNT, 0, 32⟩
/-- BLK.MODE (13 R376). -/
def R.BLK_MODE : Nat := 256
def F.BLK_MODE_MODE : RF := ⟨R.BLK_MODE, 0, 2⟩
/-- BLK.UNLIST (15 R416). -/
def R.BLK_UNLIST : Nat := 280
def F.BLK_UNLIST_PAGE : RF := ⟨R.BLK_UNLIST, 0, 12⟩
def F.BLK_UNLIST_WR : RF := ⟨R.BLK_UNLIST, 12, 1⟩
/-- BLK.GSTART (08 R234). -/
def R.BLK_GSTART : Nat := 384
def F.BLK_GSTART_GSTART : RF := ⟨R.BLK_GSTART, 0, 8⟩
/-- PWR.ERRCNT (15 R409). -/
def R.PWR_ERRCNT : Nat := 4128
def F.PWR_ERRCNT_ERRCNT : RF := ⟨R.PWR_ERRCNT, 0, 32⟩
/-- PWR.REJCNT (15 R409). -/
def R.PWR_REJCNT : Nat := 4136
def F.PWR_REJCNT_REJCNT : RF := ⟨R.PWR_REJCNT, 0, 32⟩
/-- PWR.CTRL (13 R385). -/
def R.PWR_CTRL : Nat := 4104
def F.PWR_CTRL_FAUTOSTOP : RF := ⟨R.PWR_CTRL, 0, 1⟩
/-- PWR.STATUS (13 R385). -/
def R.PWR_STATUS : Nat := 4112
def F.PWR_STATUS_COLD : RF := ⟨R.PWR_STATUS, 0, 1⟩
def F.PWR_STATUS_FLOCKED : RF := ⟨R.PWR_STATUS, 1, 1⟩
def F.PWR_STATUS_FSWPEND : RF := ⟨R.PWR_STATUS, 2, 1⟩
def F.PWR_STATUS_SCLKLOST : RF := ⟨R.PWR_STATUS, 3, 1⟩
def F.PWR_STATUS_WDFIRED : RF := ⟨R.PWR_STATUS, 4, 1⟩
def F.PWR_STATUS_LATESEEN : RF := ⟨R.PWR_STATUS, 5, 1⟩
def F.PWR_STATUS_FUSEBAD : RF := ⟨R.PWR_STATUS, 6, 1⟩
/-- PWR.EVEN (13 R385). -/
def R.PWR_EVEN : Nat := 4120
def F.PWR_EVEN_EV : RF := ⟨R.PWR_EVEN, 0, 12⟩
def F.PWR_EVEN_ONLATE : RF := ⟨R.PWR_EVEN, 12, 1⟩
def F.PWR_EVEN_ONWD : RF := ⟨R.PWR_EVEN, 13, 1⟩
def F.PWR_EVEN_ONFSW : RF := ⟨R.PWR_EVEN, 14, 1⟩
/-- PWR.LOCK (13 R385). -/
def R.PWR_LOCK : Nat := 4144
def F.PWR_LOCK_DOM : RF := ⟨R.PWR_LOCK, 0, 1⟩
def F.PWR_LOCK_WDOG : RF := ⟨R.PWR_LOCK, 1, 1⟩
/-- PWR.LW (13 R385). -/
def R.PWR_LW : Nat := 4160
def F.PWR_LW_LWCNT : RF := ⟨R.PWR_LW, 0, 32⟩
def F.PWR_LW_LWLAST : RF := ⟨R.PWR_LW, 32, 8⟩
/-- PWR.WDOG (13 R385). -/
def R.PWR_WDOG : Nat := 4168
def F.PWR_WDOG_WDEV : RF := ⟨R.PWR_WDOG, 0, 12⟩
def F.PWR_WDOG_WDEN : RF := ⟨R.PWR_WDOG, 12, 1⟩
def F.PWR_WDOG_WDLIM : RF := ⟨R.PWR_WDOG, 16, 16⟩
/-- PWR.IDLEDLY (13 R385). -/
def R.PWR_IDLEDLY : Nat := 4352
def F.PWR_IDLEDLY_IDLEDLY : RF := ⟨R.PWR_IDLEDLY, 0, 24⟩
/-- PWR.FSW (13 R385). -/
def R.PWR_FSW : Nat := 4360
def F.PWR_FSW_FMUL : RF := ⟨R.PWR_FSW, 0, 10⟩
def F.PWR_FSW_SWEV : RF := ⟨R.PWR_FSW, 10, 12⟩
def F.PWR_FSW_BEAMADJ : RF := ⟨R.PWR_FSW, 22, 1⟩
def F.PWR_FSW_NOW : RF := ⟨R.PWR_FSW, 23, 1⟩
def F.PWR_FSW_GO : RF := ⟨R.PWR_FSW, 24, 1⟩
def F.PWR_FSW_ABORT : RF := ⟨R.PWR_FSW, 25, 1⟩
/-- PWR.FSWTICK (13 R385). -/
def R.PWR_FSWTICK : Nat := 4368
def F.PWR_FSWTICK_FSWTICK : RF := ⟨R.PWR_FSWTICK, 0, 40⟩
/-- PWR.DOM (13 R364, R385). -/
def R.PWR_DOM (i : Nat) : Nat := 4608 + i * 8
/-- PWR.WAKE (13 R367). -/
def R.PWR_WAKE (i : Nat) : Nat := 5120 + i * 8
def F.PWR_WAKE_KIND (i : Nat) : RF := ⟨R.PWR_WAKE i, 0, 3⟩
def F.PWR_WAKE_TGTDOZE (i : Nat) : RF := ⟨R.PWR_WAKE i, 3, 1⟩
def F.PWR_WAKE_ONCE (i : Nat) : RF := ⟨R.PWR_WAKE i, 4, 1⟩
def F.PWR_WAKE_FIRST (i : Nat) : RF := ⟨R.PWR_WAKE i, 8, 8⟩
def F.PWR_WAKE_COUNT (i : Nat) : RF := ⟨R.PWR_WAKE i, 16, 8⟩
def F.PWR_WAKE_KEEP (i : Nat) : RF := ⟨R.PWR_WAKE i, 24, 12⟩
def F.PWR_WAKE_LINEARG (i : Nat) : RF := ⟨R.PWR_WAKE i, 36, 14⟩
def F.PWR_WAKE_TICK (i : Nat) : RF := ⟨R.PWR_WAKE i, 50, 14⟩
/-- PWR.KCTRL (08 R239). -/
def R.PWR_KCTRL (i : Nat) : Nat := 7168 + i * 32
def F.PWR_KCTRL_KEN (i : Nat) : RF := ⟨R.PWR_KCTRL i, 0, 1⟩
def F.PWR_KCTRL_KSRC (i : Nat) : RF := ⟨R.PWR_KCTRL i, 1, 1⟩
def F.PWR_KCTRL_KAUTO (i : Nat) : RF := ⟨R.PWR_KCTRL i, 2, 1⟩
def F.PWR_KCTRL_MATCHF (i : Nat) : RF := ⟨R.PWR_KCTRL i, 3, 1⟩
/-- PWR.KCOUNT (08 R239). -/
def R.PWR_KCOUNT (i : Nat) : Nat := 7176 + i * 32
def F.PWR_KCOUNT_KCOUNT (i : Nat) : RF := ⟨R.PWR_KCOUNT i, 0, 32⟩
/-- PWR.KCMP (08 R239). -/
def R.PWR_KCMP (i : Nat) : Nat := 7184 + i * 32
def F.PWR_KCMP_KCMP (i : Nat) : RF := ⟨R.PWR_KCMP i, 0, 32⟩
/-- PWR.KINT (08 R239). -/
def R.PWR_KINT (i : Nat) : Nat := 7192 + i * 32
def F.PWR_KINT_KINT (i : Nat) : RF := ⟨R.PWR_KINT i, 0, 32⟩
/-- PRS.ERRCNT (15 R409). -/
def R.PRS_ERRCNT : Nat := 8224
def F.PRS_ERRCNT_ERRCNT : RF := ⟨R.PRS_ERRCNT, 0, 32⟩
/-- PRS.REJCNT (15 R409). -/
def R.PRS_REJCNT : Nat := 8232
def F.PRS_REJCNT_REJCNT : RF := ⟨R.PRS_REJCNT, 0, 32⟩
/-- PRS.CTRL (14 R405). -/
def R.PRS_CTRL : Nat := 8200
def F.PRS_CTRL_ONESHOT : RF := ⟨R.PRS_CTRL, 0, 1⟩
def F.PRS_CTRL_ARM : RF := ⟨R.PRS_CTRL, 1, 1⟩
def F.PRS_CTRL_TRIG : RF := ⟨R.PRS_CTRL, 2, 1⟩
def F.PRS_CTRL_REC : RF := ⟨R.PRS_CTRL, 3, 1⟩
def F.PRS_CTRL_CTXEN : RF := ⟨R.PRS_CTRL, 8, 1⟩
def F.PRS_CTRL_EVSEN : RF := ⟨R.PRS_CTRL, 9, 1⟩
def F.PRS_CTRL_BCMPEN : RF := ⟨R.PRS_CTRL, 10, 1⟩
def F.PRS_CTRL_FLTEN : RF := ⟨R.PRS_CTRL, 11, 1⟩
def F.PRS_CTRL_WALLEN : RF := ⟨R.PRS_CTRL, 12, 1⟩
/-- PRS.STATUS (14 R405). -/
def R.PRS_STATUS : Nat := 8208
def F.PRS_STATUS_ARMED : RF := ⟨R.PRS_STATUS, 0, 1⟩
def F.PRS_STATUS_PRESSED : RF := ⟨R.PRS_STATUS, 1, 1⟩
/-- PRS.EVEN (14 R405). -/
def R.PRS_EVEN : Nat := 8216
def F.PRS_EVEN_EV : RF := ⟨R.PRS_EVEN, 0, 12⟩
def F.PRS_EVEN_ONPRESS : RF := ⟨R.PRS_EVEN, 12, 1⟩
/-- PRS.LOCK (14 R405). -/
def R.PRS_LOCK : Nat := 8240
def F.PRS_LOCK_CFG : RF := ⟨R.PRS_LOCK, 0, 1⟩
/-- PRS.PSEQ (14 R405). -/
def R.PRS_PSEQ : Nat := 8248
def F.PRS_PSEQ_PSEQ : RF := ⟨R.PRS_PSEQ, 0, 48⟩
def F.PRS_PSEQ_LASTKIND : RF := ⟨R.PRS_PSEQ, 48, 4⟩
/-- PRS.MISS (14 R405). -/
def R.PRS_MISS : Nat := 8256
def F.PRS_MISS_MISSCNT : RF := ⟨R.PRS_MISS, 0, 32⟩
def F.PRS_MISS_MERGECNT : RF := ⟨R.PRS_MISS, 32, 32⟩
/-- PRS.PEVSRC (14 R405). -/
def R.PRS_PEVSRC : Nat := 8448
def F.PRS_PEVSRC_PEVSRC : RF := ⟨R.PRS_PEVSRC, 0, 12⟩
/-- PRS.PBCMP (14 R405). -/
def R.PRS_PBCMP : Nat := 8456
def F.PRS_PBCMP_PBCMP : RF := ⟨R.PRS_PBCMP, 0, 5⟩
/-- PRS.PFCLS (14 R405). -/
def R.PRS_PFCLS : Nat := 8464
def F.PRS_PFCLS_PFCLS : RF := ⟨R.PRS_PFCLS, 1, 9⟩
/-- COL.ERRCNT (15 R409). -/
def R.COL_ERRCNT : Nat := 12320
def F.COL_ERRCNT_ERRCNT : RF := ⟨R.COL_ERRCNT, 0, 32⟩
/-- COL.REJCNT (15 R409). -/
def R.COL_REJCNT : Nat := 12328
def F.COL_REJCNT_REJCNT : RF := ⟨R.COL_REJCNT, 0, 32⟩
/-- COL.CTRL (14 R404). -/
def R.COL_CTRL : Nat := 12296
def F.COL_CTRL_FREEZE : RF := ⟨R.COL_CTRL, 0, 1⟩
def F.COL_CTRL_FLUSH : RF := ⟨R.COL_CTRL, 1, 1⟩
/-- COL.STATUS (14 R404). -/
def R.COL_STATUS : Nat := 12304
def F.COL_STATUS_FROZEN : RF := ⟨R.COL_STATUS, 0, 1⟩
def F.COL_STATUS_BASED : RF := ⟨R.COL_STATUS, 1, 1⟩
def F.COL_STATUS_FLBUSY : RF := ⟨R.COL_STATUS, 2, 1⟩
def F.COL_STATUS_OVWRSEEN : RF := ⟨R.COL_STATUS, 3, 1⟩
def F.COL_STATUS_AUTHFAILSEEN : RF := ⟨R.COL_STATUS, 4, 1⟩
def F.COL_STATUS_AUTHSET : RF := ⟨R.COL_STATUS, 5, 1⟩
def F.COL_STATUS_PFFLUSH : RF := ⟨R.COL_STATUS, 6, 1⟩
/-- COL.EVEN (14 R404). -/
def R.COL_EVEN : Nat := 12312
def F.COL_EVEN_EV : RF := ⟨R.COL_EVEN, 0, 12⟩
def F.COL_EVEN_ONWM : RF := ⟨R.COL_EVEN, 12, 1⟩
def F.COL_EVEN_ONAUTHFAIL : RF := ⟨R.COL_EVEN, 13, 1⟩
def F.COL_EVEN_ONFLERR : RF := ⟨R.COL_EVEN, 14, 1⟩
/-- COL.LOCK (14 R404). -/
def R.COL_LOCK : Nat := 12336
def F.COL_LOCK_CFG : RF := ⟨R.COL_LOCK, 0, 1⟩
/-- COL.SEQ (14 R404). -/
def R.COL_SEQ : Nat := 12344
def F.COL_SEQ_SEQ : RF := ⟨R.COL_SEQ, 0, 48⟩
/-- COL.FLSEQ (14 R404). -/
def R.COL_FLSEQ : Nat := 12352
def F.COL_FLSEQ_FLSEQ : RF := ⟨R.COL_FLSEQ, 0, 48⟩
/-- COL.PUSHSEQ (14 R404). -/
def R.COL_PUSHSEQ : Nat := 12360
def F.COL_PUSHSEQ_PUSHSEQ : RF := ⟨R.COL_PUSHSEQ, 0, 48⟩
/-- COL.SUPTOT (14 R404). -/
def R.COL_SUPTOT : Nat := 12368
def F.COL_SUPTOT_SUPTOT : RF := ⟨R.COL_SUPTOT, 0, 32⟩
def F.COL_SUPTOT_LOSTCNT : RF := ⟨R.COL_SUPTOT, 32, 32⟩
/-- COL.OVWR (14 R404). -/
def R.COL_OVWR : Nat := 12376
def F.COL_OVWR_OVWRCNT : RF := ⟨R.COL_OVWR, 0, 32⟩
def F.COL_OVWR_AUTHFAIL : RF := ⟨R.COL_OVWR, 32, 16⟩
def F.COL_OVWR_FLERR : RF := ⟨R.COL_OVWR, 48, 16⟩
/-- COL.FRZ (14 R404). -/
def R.COL_FRZ : Nat := 12384
def F.COL_FRZ_FRZCNT : RF := ⟨R.COL_FRZ, 0, 32⟩
def F.COL_FRZ_FRZFLT : RF := ⟨R.COL_FRZ, 32, 32⟩
/-- COL.FLWM (14 R404). -/
def R.COL_FLWM : Nat := 12544
def F.COL_FLWM_FLWM : RF := ⟨R.COL_FLWM, 0, 13⟩
/-- COL.FLCLS (14 R404). -/
def R.COL_FLCLS : Nat := 12552
def F.COL_FLCLS_FLCLS : RF := ⟨R.COL_FLCLS, 1, 9⟩
/-- COL.AUTH (14 R404). -/
def R.COL_AUTH : Nat := 12560
def F.COL_AUTH_AUTH : RF := ⟨R.COL_AUTH, 0, 32⟩
/-- COL.CLEAR (14 R404). -/
def R.COL_CLEAR : Nat := 12568
def F.COL_CLEAR_CLEAR : RF := ⟨R.COL_CLEAR, 0, 32⟩
/-- COL.SEQBASE (14 R404). -/
def R.COL_SEQBASE : Nat := 12576
def F.COL_SEQBASE_SEQBASE : RF := ⟨R.COL_SEQBASE, 0, 48⟩
/-- COL.RDSEQ (14 R404). -/
def R.COL_RDSEQ : Nat := 12584
def F.COL_RDSEQ_RDSEQ : RF := ⟨R.COL_RDSEQ, 0, 48⟩
/-- COL.RDSTAT (14 R404). -/
def R.COL_RDSTAT : Nat := 12592
def F.COL_RDSTAT_VALID : RF := ⟨R.COL_RDSTAT, 0, 1⟩
def F.COL_RDSTAT_GONE : RF := ⟨R.COL_RDSTAT, 1, 1⟩
/-- COL.RDREC (14 R404). -/
def R.COL_RDREC (i : Nat) : Nat := 12600 + i * 8
def F.COL_RDREC_RDREC (i : Nat) : RF := ⟨R.COL_RDREC i, 0, 64⟩
/-- COL.RATE (14 R392, R404). -/
def R.COL_RATE (i : Nat) : Nat := 12800 + i * 8
/-- COL.SUPP (14 R404). -/
def R.COL_SUPP (i : Nat) : Nat := 14848 + i * 8
/-- INT.ERRCNT (15 R409). -/
def R.INT_ERRCNT : Nat := 16416
def F.INT_ERRCNT_ERRCNT : RF := ⟨R.INT_ERRCNT, 0, 32⟩
/-- INT.REJCNT (15 R409). -/
def R.INT_REJCNT : Nat := 16424
def F.INT_REJCNT_REJCNT : RF := ⟨R.INT_REJCNT, 0, 32⟩
/-- INT.CTRL (12 R356). -/
def R.INT_CTRL : Nat := 16392
def F.INT_CTRL_EN : RF := ⟨R.INT_CTRL, 0, 1⟩
/-- INT.LOCK (12 R356). -/
def R.INT_LOCK : Nat := 16432
def F.INT_LOCK_TAB : RF := ⟨R.INT_LOCK, 0, 1⟩
/-- INT.RAISE (12 R356). -/
def R.INT_RAISE : Nat := 16640
def F.INT_RAISE_RAISE : RF := ⟨R.INT_RAISE, 0, 11⟩
/-- INT.MERGECNT (12 R356). -/
def R.INT_MERGECNT : Nat := 16648
def F.INT_MERGECNT_MERGECNT : RF := ⟨R.INT_MERGECNT, 0, 32⟩
/-- INTK.ERRCNT (15 R409). -/
def R.INTK_ERRCNT (u : Nat) : Nat := (5 + u) * 4096 + 32
def F.INTK_ERRCNT_ERRCNT (u : Nat) : RF := ⟨R.INTK_ERRCNT u, 0, 32⟩
/-- INTK.REJCNT (15 R409). -/
def R.INTK_REJCNT (u : Nat) : Nat := (5 + u) * 4096 + 40
def F.INTK_REJCNT_REJCNT (u : Nat) : RF := ⟨R.INTK_REJCNT u, 0, 32⟩
/-- INTK.CTRL (12 R356). -/
def R.INTK_CTRL (u : Nat) : Nat := (5 + u) * 4096 + 8
def F.INTK_CTRL_EN (u : Nat) : RF := ⟨R.INTK_CTRL u, 0, 1⟩
def F.INTK_CTRL_THRESH (u : Nat) : RF := ⟨R.INTK_CTRL u, 4, 4⟩
/-- INTK.STATUS (12 R356). -/
def R.INTK_STATUS (u : Nat) : Nat := (5 + u) * 4096 + 16
def F.INTK_STATUS_RUNPRI (u : Nat) : RF := ⟨R.INTK_STATUS u, 0, 4⟩
def F.INTK_STATUS_OFFERUP (u : Nat) : RF := ⟨R.INTK_STATUS u, 4, 1⟩
def F.INTK_STATUS_ACTIVE (u : Nat) : RF := ⟨R.INTK_STATUS u, 16, 16⟩
def F.INTK_STATUS_OFFSRC (u : Nat) : RF := ⟨R.INTK_STATUS u, 32, 11⟩
/-- INTK.ACKCNT (12 R356). -/
def R.INTK_ACKCNT (u : Nat) : Nat := (5 + u) * 4096 + 256
def F.INTK_ACKCNT_ACKCNT (u : Nat) : RF := ⟨R.INTK_ACKCNT u, 0, 32⟩
/-- INTK.WDRCNT (12 R356). -/
def R.INTK_WDRCNT (u : Nat) : Nat := (5 + u) * 4096 + 264
def F.INTK_WDRCNT_WDRCNT (u : Nat) : RF := ⟨R.INTK_WDRCNT u, 0, 32⟩
/-- INTK.CLRACT (12 R356). -/
def R.INTK_CLRACT (u : Nat) : Nat := (5 + u) * 4096 + 272
def F.INTK_CLRACT_CLRACT (u : Nat) : RF := ⟨R.INTK_CLRACT u, 0, 1⟩
/-- INTSRC.ERRCNT (15 R409). -/
def R.INTSRC_ERRCNT (u : Nat) : Nat := (16 + u) * 4096 + 32
def F.INTSRC_ERRCNT_ERRCNT (u : Nat) : RF := ⟨R.INTSRC_ERRCNT u, 0, 32⟩
/-- INTSRC.REJCNT (15 R409). -/
def R.INTSRC_REJCNT (u : Nat) : Nat := (16 + u) * 4096 + 40
def F.INTSRC_REJCNT_REJCNT (u : Nat) : RF := ⟨R.INTSRC_REJCNT u, 0, 32⟩
/-- INTSRC.SRC (12 R356). -/
def R.INTSRC_SRC (s : Nat) : Nat := (16 + s / 256) * 4096 + 256 + (s % 256) * 8
def F.INTSRC_SRC_VEC (s : Nat) : RF := ⟨R.INTSRC_SRC s, 0, 32⟩
def F.INTSRC_SRC_LEVEL (s : Nat) : RF := ⟨R.INTSRC_SRC s, 32, 4⟩
def F.INTSRC_SRC_TARGET (s : Nat) : RF := ⟨R.INTSRC_SRC s, 40, 8⟩
def F.INTSRC_SRC_PEND (s : Nat) : RF := ⟨R.INTSRC_SRC s, 48, 1⟩
def F.INTSRC_SRC_OFFERED (s : Nat) : RF := ⟨R.INTSRC_SRC s, 49, 1⟩
/-- QUI.ERRCNT (15 R409). -/
def R.QUI_ERRCNT (u : Nat) : Nat := (32 + u) * 4096 + 32
def F.QUI_ERRCNT_ERRCNT (u : Nat) : RF := ⟨R.QUI_ERRCNT u, 0, 32⟩
/-- QUI.REJCNT (15 R409). -/
def R.QUI_REJCNT (u : Nat) : Nat := (32 + u) * 4096 + 40
def F.QUI_REJCNT_REJCNT (u : Nat) : RF := ⟨R.QUI_REJCNT u, 0, 32⟩
/-- QUI.LOCK (04 R97, 05 R140). -/
def R.QUI_LOCK (u : Nat) : Nat := (32 + u) * 4096 + 48
def F.QUI_LOCK_SLOT (u : Nat) : RF := ⟨R.QUI_LOCK u, 0, 1⟩
def F.QUI_LOCK_DISP (u : Nat) : RF := ⟨R.QUI_LOCK u, 1, 1⟩
/-- QUI.RSVCNT (02 R61). -/
def R.QUI_RSVCNT (u : Nat) : Nat := (32 + u) * 4096 + 256
def F.QUI_RSVCNT_COUNT (u : Nat) : RF := ⟨R.QUI_RSVCNT u, 0, 32⟩
def F.QUI_RSVCNT_LAST (u : Nat) : RF := ⟨R.QUI_RSVCNT u, 32, 14⟩
/-- QUI.CSERR (02 R61). -/
def R.QUI_CSERR (u : Nat) : Nat := (32 + u) * 4096 + 264
def F.QUI_CSERR_CORR (u : Nat) : RF := ⟨R.QUI_CSERR u, 0, 32⟩
def F.QUI_CSERR_UNC (u : Nat) : RF := ⟨R.QUI_CSERR u, 32, 16⟩
def F.QUI_CSERR_UADDR (u : Nat) : RF := ⟨R.QUI_CSERR u, 48, 14⟩
/-- QUI.SEQERR (02 R61). -/
def R.QUI_SEQERR (u : Nat) : Nat := (32 + u) * 4096 + 272
def F.QUI_SEQERR_MSWRAP (u : Nat) : RF := ⟨R.QUI_SEQERR u, 0, 16⟩
def F.QUI_SEQERR_MSUNDER (u : Nat) : RF := ⟨R.QUI_SEQERR u, 16, 16⟩
def F.QUI_SEQERR_MISALIGN (u : Nat) : RF := ⟨R.QUI_SEQERR u, 32, 16⟩
def F.QUI_SEQERR_OUTRANGE (u : Nat) : RF := ⟨R.QUI_SEQERR u, 48, 16⟩
/-- QUI.RRSTART (04 R96). -/
def R.QUI_RRSTART (u : Nat) : Nat := (32 + u) * 4096 + 280
def F.QUI_RRSTART_RRSTART (u : Nat) : RF := ⟨R.QUI_RRSTART u, 0, 5⟩
/-- QUI.FECNT (05 R151). -/
def R.QUI_FECNT (u : Nat) : Nat := (32 + u) * 4096 + 288
def F.QUI_FECNT_OSWRAP (u : Nat) : RF := ⟨R.QUI_FECNT u, 0, 16⟩
def F.QUI_FECNT_OSUNDER (u : Nat) : RF := ⟨R.QUI_FECNT u, 16, 16⟩
def F.QUI_FECNT_BADFETCH (u : Nat) : RF := ⟨R.QUI_FECNT u, 32, 16⟩
/-- QUI.SLOT (04 R94). -/
def R.QUI_SLOT (u : Nat) (i : Nat) : Nat := (32 + u) * 4096 + 512 + i * 8
def F.QUI_SLOT_KIND (u : Nat) (i : Nat) : RF := ⟨R.QUI_SLOT u i, 0, 2⟩
def F.QUI_SLOT_CTX (u : Nat) (i : Nat) : RF := ⟨R.QUI_SLOT u i, 2, 5⟩
def F.QUI_SLOT_FALL (u : Nat) (i : Nat) : RF := ⟨R.QUI_SLOT u i, 7, 1⟩
def F.QUI_SLOT_MINPRI (u : Nat) (i : Nat) : RF := ⟨R.QUI_SLOT u i, 8, 3⟩
/-- CST.ERRCNT (15 R409). -/
def R.CST_ERRCNT (u : Nat) : Nat := (64 + u) * 4096 + 32
def F.CST_ERRCNT_ERRCNT (u : Nat) : RF := ⟨R.CST_ERRCNT u, 0, 32⟩
/-- CST.REJCNT (15 R409). -/
def R.CST_REJCNT (u : Nat) : Nat := (64 + u) * 4096 + 40
def F.CST_REJCNT_REJCNT (u : Nat) : RF := ⟨R.CST_REJCNT u, 0, 32⟩
/-- CST.CTRL (13 R385). -/
def R.CST_CTRL (u : Nat) : Nat := (64 + u) * 4096 + 8
def F.CST_CTRL_JOIN (u : Nat) : RF := ⟨R.CST_CTRL u, 0, 1⟩
def F.CST_CTRL_RLEN (u : Nat) : RF := ⟨R.CST_CTRL u, 1, 1⟩
def F.CST_CTRL_SCEN (u : Nat) : RF := ⟨R.CST_CTRL u, 2, 1⟩
def F.CST_CTRL_LOAD (u : Nat) : RF := ⟨R.CST_CTRL u, 3, 1⟩
/-- CST.STATUS (13 R385). -/
def R.CST_STATUS (u : Nat) : Nat := (64 + u) * 4096 + 16
def F.CST_STATUS_LBUSY (u : Nat) : RF := ⟨R.CST_STATUS u, 0, 1⟩
def F.CST_STATUS_RLBUSY (u : Nat) : RF := ⟨R.CST_STATUS u, 1, 1⟩
def F.CST_STATUS_LOADERR (u : Nat) : RF := ⟨R.CST_STATUS u, 2, 1⟩
def F.CST_STATUS_RLFOL (u : Nat) : RF := ⟨R.CST_STATUS u, 3, 5⟩
/-- CST.EVEN (13 R385). -/
def R.CST_EVEN (u : Nat) : Nat := (64 + u) * 4096 + 24
def F.CST_EVEN_EV (u : Nat) : RF := ⟨R.CST_EVEN u, 0, 12⟩
def F.CST_EVEN_ONRELOAD (u : Nat) : RF := ⟨R.CST_EVEN u, 12, 1⟩
def F.CST_EVEN_ONLOAD (u : Nat) : RF := ⟨R.CST_EVEN u, 13, 1⟩
/-- CST.LOCK (13 R385). -/
def R.CST_LOCK (u : Nat) : Nat := (64 + u) * 4096 + 48
def F.CST_LOCK_CS (u : Nat) : RF := ⟨R.CST_LOCK u, 0, 1⟩
def F.CST_LOCK_IMG (u : Nat) : RF := ⟨R.CST_LOCK u, 1, 1⟩
/-- CST.ADDR (13 R385). -/
def R.CST_ADDR (u : Nat) : Nat := (64 + u) * 4096 + 256
def F.CST_ADDR_ADDR (u : Nat) : RF := ⟨R.CST_ADDR u, 0, 14⟩
/-- CST.DATA (13 R385). -/
def R.CST_DATA (u : Nat) (i : Nat) : Nat := (64 + u) * 4096 + 264 + i * 8
def F.CST_DATA_DATA (u : Nat) (i : Nat) : RF := ⟨R.CST_DATA u i, 0, 64⟩
/-- CST.IMG (13 R385). -/
def R.CST_IMG (u : Nat) : Nat := (64 + u) * 4096 + 288
def F.CST_IMG_IMGBASE (u : Nat) : RF := ⟨R.CST_IMG u, 0, 25⟩
def F.CST_IMG_FIRST (u : Nat) : RF := ⟨R.CST_IMG u, 32, 5⟩
def F.CST_IMG_NFOL (u : Nat) : RF := ⟨R.CST_IMG u, 40, 5⟩
/-- CST.SCRUB (13 R385). -/
def R.CST_SCRUB (u : Nat) : Nat := (64 + u) * 4096 + 296
def F.CST_SCRUB_INTERVAL (u : Nat) : RF := ⟨R.CST_SCRUB u, 0, 16⟩
def F.CST_SCRUB_POS (u : Nat) : RF := ⟨R.CST_SCRUB u, 32, 14⟩
/-- CST.RLCNT (13 R385). -/
def R.CST_RLCNT (u : Nat) : Nat := (64 + u) * 4096 + 304
def F.CST_RLCNT_RLCNT (u : Nat) : RF := ⟨R.CST_RLCNT u, 0, 16⟩
def F.CST_RLCNT_RLFAIL (u : Nat) : RF := ⟨R.CST_RLCNT u, 16, 16⟩
def F.CST_RLCNT_SCRUBUNC (u : Nat) : RF := ⟨R.CST_RLCNT u, 32, 16⟩
/-- CST.FOLBAD (13 R385). -/
def R.CST_FOLBAD (u : Nat) : Nat := (64 + u) * 4096 + 312
def F.CST_FOLBAD_FOLBAD (u : Nat) : RF := ⟨R.CST_FOLBAD u, 8, 24⟩
/-- QMG.ERRCNT (15 R409). -/
def R.QMG_ERRCNT : Nat := 393248
def F.QMG_ERRCNT_ERRCNT : RF := ⟨R.QMG_ERRCNT, 0, 32⟩
/-- QMG.REJCNT (15 R409). -/
def R.QMG_REJCNT : Nat := 393256
def F.QMG_REJCNT_REJCNT : RF := ⟨R.QMG_REJCNT, 0, 32⟩
/-- QMG.LOCK (07 R211). -/
def R.QMG_LOCK : Nat := 393264
def F.QMG_LOCK_DESC : RF := ⟨R.QMG_LOCK, 0, 1⟩
/-- QMG.DERR (07 R211). -/
def R.QMG_DERR : Nat := 393472
def F.QMG_DERR_CORR : RF := ⟨R.QMG_DERR, 0, 32⟩
def F.QMG_DERR_UNC : RF := ⟨R.QMG_DERR, 32, 32⟩
/-- QMG.DLOG (07 R211). -/
def R.QMG_DLOG : Nat := 393480
def F.QMG_DLOG_QUEUE : RF := ⟨R.QMG_DLOG, 0, 14⟩
def F.QMG_DLOG_WORD : RF := ⟨R.QMG_DLOG, 14, 1⟩
def F.QMG_DLOG_SYND : RF := ⟨R.QMG_DLOG, 15, 8⟩
/-- QSL.ERRCNT (15 R409). -/
def R.QSL_ERRCNT (u : Nat) : Nat := (97 + u) * 4096 + 32
def F.QSL_ERRCNT_ERRCNT (u : Nat) : RF := ⟨R.QSL_ERRCNT u, 0, 32⟩
/-- QSL.REJCNT (15 R409). -/
def R.QSL_REJCNT (u : Nat) : Nat := (97 + u) * 4096 + 40
def F.QSL_REJCNT_REJCNT (u : Nat) : RF := ⟨R.QSL_REJCNT u, 0, 32⟩
/-- QSL.STATUS (07 R212). -/
def R.QSL_STATUS (u : Nat) : Nat := (97 + u) * 4096 + 16
def F.QSL_STATUS_OVFSEEN (u : Nat) : RF := ⟨R.QSL_STATUS u, 0, 1⟩
def F.QSL_STATUS_UNFSEEN (u : Nat) : RF := ⟨R.QSL_STATUS u, 1, 1⟩
def F.QSL_STATUS_REFSEEN (u : Nat) : RF := ⟨R.QSL_STATUS u, 2, 1⟩
def F.QSL_STATUS_POISSEEN (u : Nat) : RF := ⟨R.QSL_STATUS u, 3, 1⟩
/-- QSL.EVEN (07 R212). -/
def R.QSL_EVEN (u : Nat) : Nat := (97 + u) * 4096 + 24
def F.QSL_EVEN_EV (u : Nat) : RF := ⟨R.QSL_EVEN u, 0, 12⟩
def F.QSL_EVEN_ONOVF (u : Nat) : RF := ⟨R.QSL_EVEN u, 12, 1⟩
def F.QSL_EVEN_ONUNF (u : Nat) : RF := ⟨R.QSL_EVEN u, 13, 1⟩
def F.QSL_EVEN_ONREF (u : Nat) : RF := ⟨R.QSL_EVEN u, 14, 1⟩
def F.QSL_EVEN_ONPOIS (u : Nat) : RF := ⟨R.QSL_EVEN u, 15, 1⟩
/-- QSL.OVF (07 R212). -/
def R.QSL_OVF (u : Nat) : Nat := (97 + u) * 4096 + 256
def F.QSL_OVF_OVFCNT (u : Nat) : RF := ⟨R.QSL_OVF u, 0, 32⟩
def F.QSL_OVF_UNFCNT (u : Nat) : RF := ⟨R.QSL_OVF u, 32, 32⟩
/-- QSL.REF (07 R212). -/
def R.QSL_REF (u : Nat) : Nat := (97 + u) * 4096 + 264
def F.QSL_REF_REFCNT (u : Nat) : RF := ⟨R.QSL_REF u, 0, 32⟩
def F.QSL_REF_POISCNT (u : Nat) : RF := ⟨R.QSL_REF u, 32, 32⟩
/-- QSL.LAST (07 R212). -/
def R.QSL_LAST (u : Nat) : Nat := (97 + u) * 4096 + 272
def F.QSL_LAST_QUEUE (u : Nat) : RF := ⟨R.QSL_LAST u, 0, 14⟩
def F.QSL_LAST_CAUSE (u : Nat) : RF := ⟨R.QSL_LAST u, 16, 3⟩
def F.QSL_LAST_PORT (u : Nat) : RF := ⟨R.QSL_LAST u, 20, 6⟩
/-- QSL.MAXWAIT (07 R212). -/
def R.QSL_MAXWAIT (u : Nat) : Nat := (97 + u) * 4096 + 280
def F.QSL_MAXWAIT_MAXWAIT (u : Nat) : RF := ⟨R.QSL_MAXWAIT u, 0, 16⟩
/-- QD.CFG (07 R194). -/
def R.QD_CFG (n : Nat) : Nat := (128 + n / 256) * 4096 + 0 + (n % 256) * 16
def F.QD_CFG_BASE (n : Nat) : RF := ⟨R.QD_CFG n, 0, 22⟩
def F.QD_CFG_LOG2SZ (n : Nat) : RF := ⟨R.QD_CFG n, 24, 5⟩
def F.QD_CFG_OWN (n : Nat) : RF := ⟨R.QD_CFG n, 32, 6⟩
def F.QD_CFG_NOTIFY (n : Nat) : RF := ⟨R.QD_CFG n, 40, 10⟩
def F.QD_CFG_EN (n : Nat) : RF := ⟨R.QD_CFG n, 63, 1⟩
/-- QD.PTR (07 R194). -/
def R.QD_PTR (n : Nat) : Nat := (128 + n / 256) * 4096 + 8 + (n % 256) * 16
def F.QD_PTR_HEAD (n : Nat) : RF := ⟨R.QD_PTR n, 0, 18⟩
def F.QD_PTR_TAIL (n : Nat) : RF := ⟨R.QD_PTR n, 18, 18⟩
def F.QD_PTR_WM (n : Nat) : RF := ⟨R.QD_PTR n, 36, 18⟩
def F.QD_PTR_WMDIR (n : Nat) : RF := ⟨R.QD_PTR n, 54, 1⟩
def F.QD_PTR_ARMED (n : Nat) : RF := ⟨R.QD_PTR n, 55, 1⟩
def F.QD_PTR_BUSY (n : Nat) : RF := ⟨R.QD_PTR n, 63, 1⟩
/-- DMA.ERRCNT (15 R409). -/
def R.DMA_ERRCNT (u : Nat) : Nat := (192 + u) * 4096 + 32
def F.DMA_ERRCNT_ERRCNT (u : Nat) : RF := ⟨R.DMA_ERRCNT u, 0, 32⟩
/-- DMA.REJCNT (15 R409). -/
def R.DMA_REJCNT (u : Nat) : Nat := (192 + u) * 4096 + 40
def F.DMA_REJCNT_REJCNT (u : Nat) : RF := ⟨R.DMA_REJCNT u, 0, 32⟩
/-- DMA.CTRL (09 R261). -/
def R.DMA_CTRL (u : Nat) : Nat := (192 + u) * 4096 + 8
def F.DMA_CTRL_STOP (u : Nat) : RF := ⟨R.DMA_CTRL u, 0, 1⟩
def F.DMA_CTRL_ABORT (u : Nat) : RF := ⟨R.DMA_CTRL u, 1, 1⟩
def F.DMA_CTRL_RESUME (u : Nat) : RF := ⟨R.DMA_CTRL u, 2, 1⟩
def F.DMA_CTRL_CLRREQ (u : Nat) : RF := ⟨R.DMA_CTRL u, 3, 1⟩
/-- DMA.STATUS (09 R261). -/
def R.DMA_STATUS (u : Nat) : Nat := (192 + u) * 4096 + 16
def F.DMA_STATUS_STATE (u : Nat) : RF := ⟨R.DMA_STATUS u, 0, 3⟩
def F.DMA_STATUS_CURSET (u : Nat) : RF := ⟨R.DMA_STATUS u, 3, 1⟩
def F.DMA_STATUS_STOPPING (u : Nat) : RF := ⟨R.DMA_STATUS u, 4, 1⟩
def F.DMA_STATUS_HALTED (u : Nat) : RF := ⟨R.DMA_STATUS u, 5, 1⟩
def F.DMA_STATUS_ABORTED (u : Nat) : RF := ⟨R.DMA_STATUS u, 6, 1⟩
def F.DMA_STATUS_POISSEEN (u : Nat) : RF := ⟨R.DMA_STATUS u, 7, 1⟩
def F.DMA_STATUS_OVERRUN (u : Nat) : RF := ⟨R.DMA_STATUS u, 8, 1⟩
def F.DMA_STATUS_PREQ (u : Nat) : RF := ⟨R.DMA_STATUS u, 12, 4⟩
def F.DMA_STATUS_RETRIES (u : Nat) : RF := ⟨R.DMA_STATUS u, 16, 4⟩
/-- DMA.EVEN (09 R261). -/
def R.DMA_EVEN (u : Nat) : Nat := (192 + u) * 4096 + 24
def F.DMA_EVEN_HALTEV (u : Nat) : RF := ⟨R.DMA_EVEN u, 0, 1⟩
/-- DMA.LOCK (09 R261). -/
def R.DMA_LOCK (u : Nat) : Nat := (192 + u) * 4096 + 48
def F.DMA_LOCK_HOST (u : Nat) : RF := ⟨R.DMA_LOCK u, 0, 1⟩
/-- DMA.CURSRC (09 R261). -/
def R.DMA_CURSRC (u : Nat) : Nat := (192 + u) * 4096 + 64
def F.DMA_CURSRC_CURSRC (u : Nat) : RF := ⟨R.DMA_CURSRC u, 0, 64⟩
/-- DMA.CURDST (09 R261). -/
def R.DMA_CURDST (u : Nat) : Nat := (192 + u) * 4096 + 72
def F.DMA_CURDST_CURDST (u : Nat) : RF := ⟨R.DMA_CURDST u, 0, 64⟩
/-- DMA.REMAIN (09 R261). -/
def R.DMA_REMAIN (u : Nat) : Nat := (192 + u) * 4096 + 80
def F.DMA_REMAIN_REMAIN (u : Nat) : RF := ⟨R.DMA_REMAIN u, 0, 32⟩
/-- DMA.SRC (09 R261). -/
def R.DMA_SRC (u : Nat) (i : Nat) : Nat := (192 + u) * 4096 + 256 + i * 32
def F.DMA_SRC_SRC (u : Nat) (i : Nat) : RF := ⟨R.DMA_SRC u i, 0, 64⟩
/-- DMA.DST (09 R261). -/
def R.DMA_DST (u : Nat) (i : Nat) : Nat := (192 + u) * 4096 + 264 + i * 32
def F.DMA_DST_DST (u : Nat) (i : Nat) : RF := ⟨R.DMA_DST u i, 0, 64⟩
/-- DMA.COUNT (09 R261). -/
def R.DMA_COUNT (u : Nat) (i : Nat) : Nat := (192 + u) * 4096 + 272 + i * 32
def F.DMA_COUNT_COUNT (u : Nat) (i : Nat) : RF := ⟨R.DMA_COUNT u i, 0, 32⟩
/-- DMA.CTL (09 R261). -/
def R.DMA_CTL (u : Nat) (i : Nat) : Nat := (192 + u) * 4096 + 280 + i * 32
def F.DMA_CTL_RUN (u : Nat) (i : Nat) : RF := ⟨R.DMA_CTL u i, 0, 1⟩
def F.DMA_CTL_CHAIN (u : Nat) (i : Nat) : RF := ⟨R.DMA_CTL u i, 1, 1⟩
def F.DMA_CTL_REARM (u : Nat) (i : Nat) : RF := ⟨R.DMA_CTL u i, 2, 1⟩
def F.DMA_CTL_HEV (u : Nat) (i : Nat) : RF := ⟨R.DMA_CTL u i, 3, 1⟩
def F.DMA_CTL_FEV (u : Nat) (i : Nat) : RF := ⟨R.DMA_CTL u i, 4, 1⟩
def F.DMA_CTL_SCIRC (u : Nat) (i : Nat) : RF := ⟨R.DMA_CTL u i, 5, 1⟩
def F.DMA_CTL_DCIRC (u : Nat) (i : Nat) : RF := ⟨R.DMA_CTL u i, 6, 1⟩
def F.DMA_CTL_CLOG (u : Nat) (i : Nat) : RF := ⟨R.DMA_CTL u i, 8, 5⟩
def F.DMA_CTL_PACE (u : Nat) (i : Nat) : RF := ⟨R.DMA_CTL u i, 16, 2⟩
def F.DMA_CTL_PEV (u : Nat) (i : Nat) : RF := ⟨R.DMA_CTL u i, 18, 12⟩
def F.DMA_CTL_STEPLOG (u : Nat) (i : Nat) : RF := ⟨R.DMA_CTL u i, 30, 5⟩
def F.DMA_CTL_RETRY (u : Nat) (i : Nat) : RF := ⟨R.DMA_CTL u i, 35, 4⟩
def F.DMA_CTL_PRI (u : Nat) (i : Nat) : RF := ⟨R.DMA_CTL u i, 39, 2⟩
/-- DMA.ERRADDR (09 R261). -/
def R.DMA_ERRADDR (u : Nat) : Nat := (192 + u) * 4096 + 320
def F.DMA_ERRADDR_ERRADDR (u : Nat) : RF := ⟨R.DMA_ERRADDR u, 0, 64⟩
/-- DMA.ERRINFO (09 R261). -/
def R.DMA_ERRINFO (u : Nat) : Nat := (192 + u) * 4096 + 328
def F.DMA_ERRINFO_CAUSE (u : Nat) : RF := ⟨R.DMA_ERRINFO u, 0, 3⟩
def F.DMA_ERRINFO_WR (u : Nat) : RF := ⟨R.DMA_ERRINFO u, 3, 1⟩
/-- DMA.POISCNT (09 R261). -/
def R.DMA_POISCNT (u : Nat) : Nat := (192 + u) * 4096 + 336
def F.DMA_POISCNT_POISCNT (u : Nat) : RF := ⟨R.DMA_POISCNT u, 0, 32⟩
/-- BNK.ERRCNT (15 R409). -/
def R.BNK_ERRCNT (u : Nat) : Nat := (256 + u) * 4096 + 32
def F.BNK_ERRCNT_ERRCNT (u : Nat) : RF := ⟨R.BNK_ERRCNT u, 0, 32⟩
/-- BNK.REJCNT (15 R409). -/
def R.BNK_REJCNT (u : Nat) : Nat := (256 + u) * 4096 + 40
def F.BNK_REJCNT_REJCNT (u : Nat) : RF := ⟨R.BNK_REJCNT u, 0, 32⟩
/-- BNK.CTRL (06 R190). -/
def R.BNK_CTRL (u : Nat) : Nat := (256 + u) * 4096 + 8
def F.BNK_CTRL_WBEN (u : Nat) : RF := ⟨R.BNK_CTRL u, 0, 1⟩
/-- BNK.STATUS (06 R190). -/
def R.BNK_STATUS (u : Nat) : Nat := (256 + u) * 4096 + 16
def F.BNK_STATUS_PEND (u : Nat) : RF := ⟨R.BNK_STATUS u, 0, 1⟩
def F.BNK_STATUS_MBUSY (u : Nat) : RF := ⟨R.BNK_STATUS u, 1, 1⟩
def F.BNK_STATUS_MDONE (u : Nat) : RF := ⟨R.BNK_STATUS u, 2, 1⟩
def F.BNK_STATUS_MFAIL (u : Nat) : RF := ⟨R.BNK_STATUS u, 3, 1⟩
def F.BNK_STATUS_UNCSEEN (u : Nat) : RF := ⟨R.BNK_STATUS u, 4, 1⟩
def F.BNK_STATUS_VIOLSEEN (u : Nat) : RF := ⟨R.BNK_STATUS u, 5, 1⟩
def F.BNK_STATUS_COLLSEEN (u : Nat) : RF := ⟨R.BNK_STATUS u, 6, 1⟩
def F.BNK_STATUS_CORRSEEN (u : Nat) : RF := ⟨R.BNK_STATUS u, 7, 1⟩
/-- BNK.EVEN (06 R190). -/
def R.BNK_EVEN (u : Nat) : Nat := (256 + u) * 4096 + 24
def F.BNK_EVEN_EV (u : Nat) : RF := ⟨R.BNK_EVEN u, 0, 12⟩
def F.BNK_EVEN_ONUNC (u : Nat) : RF := ⟨R.BNK_EVEN u, 12, 1⟩
def F.BNK_EVEN_ONVIOL (u : Nat) : RF := ⟨R.BNK_EVEN u, 13, 1⟩
def F.BNK_EVEN_ONMARCH (u : Nat) : RF := ⟨R.BNK_EVEN u, 14, 1⟩
def F.BNK_EVEN_ONHAND (u : Nat) : RF := ⟨R.BNK_EVEN u, 15, 1⟩
/-- BNK.LOCK (06 R190). -/
def R.BNK_LOCK (u : Nat) : Nat := (256 + u) * 4096 + 48
def F.BNK_LOCK_OWN (u : Nat) : RF := ⟨R.BNK_LOCK u, 0, 1⟩
def F.BNK_LOCK_MARCH (u : Nat) : RF := ⟨R.BNK_LOCK u, 1, 1⟩
/-- BNK.OWN (06 R190). -/
def R.BNK_OWN (u : Nat) : Nat := (256 + u) * 4096 + 56
def F.BNK_OWN_OWNER (u : Nat) : RF := ⟨R.BNK_OWN u, 0, 6⟩
def F.BNK_OWN_PEND (u : Nat) : RF := ⟨R.BNK_OWN u, 6, 1⟩
/-- BNK.ECCCNT (06 R190). -/
def R.BNK_ECCCNT (u : Nat) : Nat := (256 + u) * 4096 + 64
def F.BNK_ECCCNT_CORR (u : Nat) : RF := ⟨R.BNK_ECCCNT u, 0, 32⟩
def F.BNK_ECCCNT_UNC (u : Nat) : RF := ⟨R.BNK_ECCCNT u, 32, 32⟩
/-- BNK.ECCLOG (06 R190). -/
def R.BNK_ECCLOG (u : Nat) : Nat := (256 + u) * 4096 + 72
def F.BNK_ECCLOG_WORD (u : Nat) : RF := ⟨R.BNK_ECCLOG u, 0, 15⟩
def F.BNK_ECCLOG_SYND (u : Nat) : RF := ⟨R.BNK_ECCLOG u, 16, 8⟩
def F.BNK_ECCLOG_PORT (u : Nat) : RF := ⟨R.BNK_ECCLOG u, 24, 1⟩
/-- BNK.VIOL (06 R190). -/
def R.BNK_VIOL (u : Nat) : Nat := (256 + u) * 4096 + 80
def F.BNK_VIOL_VCOUNT (u : Nat) : RF := ⟨R.BNK_VIOL u, 0, 32⟩
def F.BNK_VIOL_VREQ (u : Nat) : RF := ⟨R.BNK_VIOL u, 32, 6⟩
def F.BNK_VIOL_VWORD (u : Nat) : RF := ⟨R.BNK_VIOL u, 38, 15⟩
/-- BNK.PBSTALL (06 R190). -/
def R.BNK_PBSTALL (u : Nat) : Nat := (256 + u) * 4096 + 88
def F.BNK_PBSTALL_QMG (u : Nat) : RF := ⟨R.BNK_PBSTALL u, 0, 16⟩
def F.BNK_PBSTALL_DMA (u : Nat) : RF := ⟨R.BNK_PBSTALL u, 16, 16⟩
def F.BNK_PBSTALL_HOST (u : Nat) : RF := ⟨R.BNK_PBSTALL u, 32, 16⟩
/-- BNK.COLL (06 R190). -/
def R.BNK_COLL (u : Nat) : Nat := (256 + u) * 4096 + 96
def F.BNK_COLL_COUNT (u : Nat) : RF := ⟨R.BNK_COLL u, 0, 32⟩
/-- BNK.NDROP (06 R190). -/
def R.BNK_NDROP (u : Nat) : Nat := (256 + u) * 4096 + 104
def F.BNK_NDROP_COUNT (u : Nat) : RF := ⟨R.BNK_NDROP u, 0, 32⟩
/-- BNK.MARCH (06 R190). -/
def R.BNK_MARCH (u : Nat) : Nat := (256 + u) * 4096 + 256
def F.BNK_MARCH_CMD (u : Nat) : RF := ⟨R.BNK_MARCH u, 0, 2⟩
def F.BNK_MARCH_GAP (u : Nat) : RF := ⟨R.BNK_MARCH u, 8, 8⟩
/-- BNK.MSTAT (06 R190). -/
def R.BNK_MSTAT (u : Nat) : Nat := (256 + u) * 4096 + 264
def F.BNK_MSTAT_LASTALG (u : Nat) : RF := ⟨R.BNK_MSTAT u, 0, 2⟩
def F.BNK_MSTAT_ABORTED (u : Nat) : RF := ⟨R.BNK_MSTAT u, 2, 1⟩
def F.BNK_MSTAT_FAILCNT (u : Nat) : RF := ⟨R.BNK_MSTAT u, 16, 32⟩
/-- BNK.MFAIL (06 R190). -/
def R.BNK_MFAIL (u : Nat) : Nat := (256 + u) * 4096 + 272
def F.BNK_MFAIL_LINE (u : Nat) : RF := ⟨R.BNK_MFAIL u, 0, 14⟩
def F.BNK_MFAIL_COL (u : Nat) : RF := ⟨R.BNK_MFAIL u, 14, 8⟩
def F.BNK_MFAIL_NCOL (u : Nat) : RF := ⟨R.BNK_MFAIL u, 24, 8⟩
def F.BNK_MFAIL_ELEM (u : Nat) : RF := ⟨R.BNK_MFAIL u, 32, 4⟩
/-- BNK.REPAIRSUM (06 R190). -/
def R.BNK_REPAIRSUM (u : Nat) : Nat := (256 + u) * 4096 + 280
def F.BNK_REPAIRSUM_SUM (u : Nat) : RF := ⟨R.BNK_REPAIRSUM u, 0, 64⟩
/-- BNK.INJ (06 R191). -/
def R.BNK_INJ (u : Nat) : Nat := (256 + u) * 4096 + 352
def F.BNK_INJ_CFLIP (u : Nat) : RF := ⟨R.BNK_INJ u, 0, 8⟩
def F.BNK_INJ_DBIT (u : Nat) : RF := ⟨R.BNK_INJ u, 8, 6⟩
def F.BNK_INJ_DEN (u : Nat) : RF := ⟨R.BNK_INJ u, 14, 1⟩
def F.BNK_INJ_ARM (u : Nat) : RF := ⟨R.BNK_INJ u, 15, 1⟩
/-- BEAM.ERRCNT (15 R409). -/
def R.BEAM_ERRCNT : Nat := 1572896
def F.BEAM_ERRCNT_ERRCNT : RF := ⟨R.BEAM_ERRCNT, 0, 32⟩
/-- BEAM.REJCNT (15 R409). -/
def R.BEAM_REJCNT : Nat := 1572904
def F.BEAM_REJCNT_REJCNT : RF := ⟨R.BEAM_REJCNT, 0, 32⟩
/-- BEAM.CTRL (08 R237). -/
def R.BEAM_CTRL : Nat := 1572872
def F.BEAM_CTRL_RUN : RF := ⟨R.BEAM_CTRL, 0, 1⟩
def F.BEAM_CTRL_REF : RF := ⟨R.BEAM_CTRL, 1, 1⟩
def F.BEAM_CTRL_GSGRP : RF := ⟨R.BEAM_CTRL, 2, 3⟩
def F.BEAM_CTRL_GSARM : RF := ⟨R.BEAM_CTRL, 5, 1⟩
/-- BEAM.STATUS (08 R237). -/
def R.BEAM_STATUS : Nat := 1572880
def F.BEAM_STATUS_RUNNING : RF := ⟨R.BEAM_STATUS, 0, 1⟩
def F.BEAM_STATUS_GPEND : RF := ⟨R.BEAM_STATUS, 1, 1⟩
def F.BEAM_STATUS_CLAMP : RF := ⟨R.BEAM_STATUS, 2, 1⟩
/-- BEAM.EVEN (08 R237). -/
def R.BEAM_EVEN : Nat := 1572888
def F.BEAM_EVEN_LS : RF := ⟨R.BEAM_EVEN, 0, 1⟩
def F.BEAM_EVEN_FS : RF := ⟨R.BEAM_EVEN, 1, 1⟩
def F.BEAM_EVEN_HAB : RF := ⟨R.BEAM_EVEN, 2, 1⟩
def F.BEAM_EVEN_HAE : RF := ⟨R.BEAM_EVEN, 3, 1⟩
def F.BEAM_EVEN_VAB : RF := ⟨R.BEAM_EVEN, 4, 1⟩
def F.BEAM_EVEN_VAE : RF := ⟨R.BEAM_EVEN, 5, 1⟩
def F.BEAM_EVEN_DL : RF := ⟨R.BEAM_EVEN, 16, 16⟩
/-- BEAM.TICKDIV (08 R237). -/
def R.BEAM_TICKDIV : Nat := 1573120
def F.BEAM_TICKDIV_FRAC : RF := ⟨R.BEAM_TICKDIV, 0, 24⟩
def F.BEAM_TICKDIV_INT : RF := ⟨R.BEAM_TICKDIV, 24, 16⟩
/-- BEAM.DIVTRIM (08 R237). -/
def R.BEAM_DIVTRIM : Nat := 1573128
def F.BEAM_DIVTRIM_TRIM : RF := ⟨R.BEAM_DIVTRIM, 0, 24⟩
/-- BEAM.GEOM (08 R237). -/
def R.BEAM_GEOM : Nat := 1573136
def F.BEAM_GEOM_HTOT : RF := ⟨R.BEAM_GEOM, 0, 14⟩
def F.BEAM_GEOM_VTOT : RF := ⟨R.BEAM_GEOM, 16, 14⟩
/-- BEAM.HACT (08 R237). -/
def R.BEAM_HACT : Nat := 1573144
def F.BEAM_HACT_HAS : RF := ⟨R.BEAM_HACT, 0, 14⟩
def F.BEAM_HACT_HAE : RF := ⟨R.BEAM_HACT, 16, 15⟩
/-- BEAM.VACT (08 R237). -/
def R.BEAM_VACT : Nat := 1573152
def F.BEAM_VACT_VAS : RF := ⟨R.BEAM_VACT, 0, 14⟩
def F.BEAM_VACT_VAE : RF := ⟨R.BEAM_VACT, 16, 15⟩
/-- BEAM.SYNC (08 R237). -/
def R.BEAM_SYNC : Nat := 1573160
def F.BEAM_SYNC_HSS : RF := ⟨R.BEAM_SYNC, 0, 14⟩
def F.BEAM_SYNC_HSE : RF := ⟨R.BEAM_SYNC, 16, 14⟩
def F.BEAM_SYNC_HPOL : RF := ⟨R.BEAM_SYNC, 30, 1⟩
def F.BEAM_SYNC_VSS : RF := ⟨R.BEAM_SYNC, 32, 14⟩
def F.BEAM_SYNC_VSE : RF := ⟨R.BEAM_SYNC, 48, 14⟩
def F.BEAM_SYNC_VPOL : RF := ⟨R.BEAM_SYNC, 62, 1⟩
/-- BEAM.LEAD (08 R237). -/
def R.BEAM_LEAD : Nat := 1573168
/-- BEAM.BCMP (08 R237). -/
def R.BEAM_BCMP (i : Nat) : Nat := 1573376 + i * 8
def F.BEAM_BCMP_LINE (i : Nat) : RF := ⟨R.BEAM_BCMP i, 0, 14⟩
def F.BEAM_BCMP_TICK (i : Nat) : RF := ⟨R.BEAM_BCMP i, 16, 14⟩
def F.BEAM_BCMP_MODE (i : Nat) : RF := ⟨R.BEAM_BCMP i, 30, 2⟩
/-- TMR.ERRCNT (15 R409). -/
def R.TMR_ERRCNT (u : Nat) : Nat := (385 + u) * 4096 + 32
def F.TMR_ERRCNT_ERRCNT (u : Nat) : RF := ⟨R.TMR_ERRCNT u, 0, 32⟩
/-- TMR.REJCNT (15 R409). -/
def R.TMR_REJCNT (u : Nat) : Nat := (385 + u) * 4096 + 40
def F.TMR_REJCNT_REJCNT (u : Nat) : RF := ⟨R.TMR_REJCNT u, 0, 32⟩
/-- TMR.COUNT (08 R238). -/
def R.TMR_COUNT (t : Nat) : Nat := (385 + t / 16) * 4096 + 128 + (t % 16) * 8
def F.TMR_COUNT_COUNT (t : Nat) : RF := ⟨R.TMR_COUNT t, 0, 32⟩
/-- TMR.CFG (08 R238). -/
def R.TMR_CFG (t : Nat) : Nat := (385 + t / 16) * 4096 + 256 + (t % 16) * 64
def F.TMR_CFG_EN (t : Nat) : RF := ⟨R.TMR_CFG t, 0, 1⟩
def F.TMR_CFG_ONESHOT (t : Nat) : RF := ⟨R.TMR_CFG t, 1, 1⟩
def F.TMR_CFG_CMPIMM (t : Nat) : RF := ⟨R.TMR_CFG t, 2, 1⟩
def F.TMR_CFG_AUTOADD (t : Nat) : RF := ⟨R.TMR_CFG t, 3, 1⟩
def F.TMR_CFG_SRC (t : Nat) : RF := ⟨R.TMR_CFG t, 4, 3⟩
def F.TMR_CFG_MEV (t : Nat) : RF := ⟨R.TMR_CFG t, 7, 1⟩
def F.TMR_CFG_OEV (t : Nat) : RF := ⟨R.TMR_CFG t, 8, 1⟩
def F.TMR_CFG_CEV (t : Nat) : RF := ⟨R.TMR_CFG t, 9, 1⟩
def F.TMR_CFG_CAPEN (t : Nat) : RF := ⟨R.TMR_CFG t, 10, 1⟩
def F.TMR_CFG_PSC (t : Nat) : RF := ⟨R.TMR_CFG t, 12, 16⟩
def F.TMR_CFG_EVSRC (t : Nat) : RF := ⟨R.TMR_CFG t, 28, 12⟩
def F.TMR_CFG_SLV (t : Nat) : RF := ⟨R.TMR_CFG t, 40, 3⟩
def F.TMR_CFG_MOVF (t : Nat) : RF := ⟨R.TMR_CFG t, 43, 1⟩
def F.TMR_CFG_MASTER (t : Nat) : RF := ⟨R.TMR_CFG t, 44, 8⟩
def F.TMR_CFG_GSGRP (t : Nat) : RF := ⟨R.TMR_CFG t, 52, 3⟩
def F.TMR_CFG_GSARM (t : Nat) : RF := ⟨R.TMR_CFG t, 55, 1⟩
/-- TMR.TOP (08 R238). -/
def R.TMR_TOP (t : Nat) : Nat := (385 + t / 16) * 4096 + 264 + (t % 16) * 64
def F.TMR_TOP_TOP (t : Nat) : RF := ⟨R.TMR_TOP t, 0, 32⟩
/-- TMR.CMP (08 R238). -/
def R.TMR_CMP (t : Nat) : Nat := (385 + t / 16) * 4096 + 272 + (t % 16) * 64
def F.TMR_CMP_CMP (t : Nat) : RF := ⟨R.TMR_CMP t, 0, 32⟩
/-- TMR.CMPPRE (08 R238). -/
def R.TMR_CMPPRE (t : Nat) : Nat := (385 + t / 16) * 4096 + 280 + (t % 16) * 64
def F.TMR_CMPPRE_CMPPRE (t : Nat) : RF := ⟨R.TMR_CMPPRE t, 0, 32⟩
/-- TMR.INTERVAL (08 R238). -/
def R.TMR_INTERVAL (t : Nat) : Nat := (385 + t / 16) * 4096 + 288 + (t % 16) * 64
def F.TMR_INTERVAL_INTERVAL (t : Nat) : RF := ⟨R.TMR_INTERVAL t, 0, 32⟩
/-- TMR.CAPTURE (08 R238). -/
def R.TMR_CAPTURE (t : Nat) : Nat := (385 + t / 16) * 4096 + 296 + (t % 16) * 64
def F.TMR_CAPTURE_CAPTURE (t : Nat) : RF := ⟨R.TMR_CAPTURE t, 0, 32⟩
/-- TMR.AUX (08 R238). -/
def R.TMR_AUX (t : Nat) : Nat := (385 + t / 16) * 4096 + 304 + (t % 16) * 64
def F.TMR_AUX_CAPEV (t : Nat) : RF := ⟨R.TMR_AUX t, 0, 12⟩
def F.TMR_AUX_ACTK (t : Nat) : RF := ⟨R.TMR_AUX t, 12, 3⟩
def F.TMR_AUX_ACTON (t : Nat) : RF := ⟨R.TMR_AUX t, 15, 1⟩
def F.TMR_AUX_ACTT (t : Nat) : RF := ⟨R.TMR_AUX t, 16, 8⟩
/-- TMR.TSTAT (08 R238). -/
def R.TMR_TSTAT (t : Nat) : Nat := (385 + t / 16) * 4096 + 312 + (t % 16) * 64
def F.TMR_TSTAT_RUNNING (t : Nat) : RF := ⟨R.TMR_TSTAT t, 0, 1⟩
def F.TMR_TSTAT_WAITING (t : Nat) : RF := ⟨R.TMR_TSTAT t, 1, 1⟩
def F.TMR_TSTAT_GATE (t : Nat) : RF := ⟨R.TMR_TSTAT t, 2, 1⟩
def F.TMR_TSTAT_PREPEND (t : Nat) : RF := ⟨R.TMR_TSTAT t, 3, 1⟩
def F.TMR_TSTAT_CAPF (t : Nat) : RF := ⟨R.TMR_TSTAT t, 4, 1⟩
def F.TMR_TSTAT_OVR (t : Nat) : RF := ⟨R.TMR_TSTAT t, 5, 1⟩
def F.TMR_TSTAT_MATCHF (t : Nat) : RF := ⟨R.TMR_TSTAT t, 6, 1⟩
def F.TMR_TSTAT_OVFF (t : Nat) : RF := ⟨R.TMR_TSTAT t, 7, 1⟩
def F.TMR_TSTAT_ACTSUP (t : Nat) : RF := ⟨R.TMR_TSTAT t, 8, 1⟩
/-- PIO.ERRCNT (15 R409). -/
def R.PIO_ERRCNT (u : Nat) : Nat := (416 + u) * 4096 + 32
def F.PIO_ERRCNT_ERRCNT (u : Nat) : RF := ⟨R.PIO_ERRCNT u, 0, 32⟩
/-- PIO.REJCNT (15 R409). -/
def R.PIO_REJCNT (u : Nat) : Nat := (416 + u) * 4096 + 40
def F.PIO_REJCNT_REJCNT (u : Nat) : RF := ⟨R.PIO_REJCNT u, 0, 32⟩
/-- PIO.CTRL (10 R290). -/
def R.PIO_CTRL (u : Nat) : Nat := (416 + u) * 4096 + 8
def F.PIO_CTRL_EN (u : Nat) : RF := ⟨R.PIO_CTRL u, 0, 1⟩
def F.PIO_CTRL_RELOAD (u : Nat) : RF := ⟨R.PIO_CTRL u, 1, 1⟩
def F.PIO_CTRL_CLRQ (u : Nat) : RF := ⟨R.PIO_CTRL u, 2, 1⟩
def F.PIO_CTRL_CLRLAT (u : Nat) : RF := ⟨R.PIO_CTRL u, 3, 1⟩
/-- PIO.EVEN (10 R290). -/
def R.PIO_EVEN (u : Nat) : Nat := (416 + u) * 4096 + 24
def F.PIO_EVEN_MARKS (u : Nat) : RF := ⟨R.PIO_EVEN u, 0, 2⟩
/-- PIO.CLKDIV (10 R290). -/
def R.PIO_CLKDIV (u : Nat) : Nat := (416 + u) * 4096 + 256
def F.PIO_CLKDIV_FRAC (u : Nat) : RF := ⟨R.PIO_CLKDIV u, 0, 8⟩
def F.PIO_CLKDIV_INT (u : Nat) : RF := ⟨R.PIO_CLKDIV u, 8, 16⟩
/-- PIO.EXECCFG (10 R290). -/
def R.PIO_EXECCFG (u : Nat) : Nat := (416 + u) * 4096 + 264
def F.PIO_EXECCFG_WRAPBOT (u : Nat) : RF := ⟨R.PIO_EXECCFG u, 0, 6⟩
def F.PIO_EXECCFG_WRAPTOP (u : Nat) : RF := ⟨R.PIO_EXECCFG u, 8, 6⟩
/-- PIO.PINMAP (10 R290). -/
def R.PIO_PINMAP (u : Nat) : Nat := (416 + u) * 4096 + 272
def F.PIO_PINMAP_OUTBASE (u : Nat) : RF := ⟨R.PIO_PINMAP u, 0, 7⟩
def F.PIO_PINMAP_OUTW (u : Nat) : RF := ⟨R.PIO_PINMAP u, 8, 6⟩
def F.PIO_PINMAP_INBASE (u : Nat) : RF := ⟨R.PIO_PINMAP u, 16, 7⟩
def F.PIO_PINMAP_SETBASE (u : Nat) : RF := ⟨R.PIO_PINMAP u, 24, 7⟩
def F.PIO_PINMAP_SETW (u : Nat) : RF := ⟨R.PIO_PINMAP u, 32, 4⟩
def F.PIO_PINMAP_SIDEBASE (u : Nat) : RF := ⟨R.PIO_PINMAP u, 40, 7⟩
def F.PIO_PINMAP_JPIN (u : Nat) : RF := ⟨R.PIO_PINMAP u, 48, 7⟩
/-- PIO.SHIFTCFG (10 R290). -/
def R.PIO_SHIFTCFG (u : Nat) : Nat := (416 + u) * 4096 + 280
def F.PIO_SHIFTCFG_TXMSB (u : Nat) : RF := ⟨R.PIO_SHIFTCFG u, 0, 1⟩
def F.PIO_SHIFTCFG_RXMSB (u : Nat) : RF := ⟨R.PIO_SHIFTCFG u, 1, 1⟩
def F.PIO_SHIFTCFG_TXSTREAM (u : Nat) : RF := ⟨R.PIO_SHIFTCFG u, 2, 1⟩
def F.PIO_SHIFTCFG_RXSTREAM (u : Nat) : RF := ⟨R.PIO_SHIFTCFG u, 3, 1⟩
def F.PIO_SHIFTCFG_TXFRAME (u : Nat) : RF := ⟨R.PIO_SHIFTCFG u, 4, 5⟩
def F.PIO_SHIFTCFG_RXFRAME (u : Nat) : RF := ⟨R.PIO_SHIFTCFG u, 9, 5⟩
def F.PIO_SHIFTCFG_JOIN (u : Nat) : RF := ⟨R.PIO_SHIFTCFG u, 14, 2⟩
/-- PIO.TXQ (10 R290). -/
def R.PIO_TXQ (u : Nat) : Nat := (416 + u) * 4096 + 288
def F.PIO_TXQ_TXQ (u : Nat) : RF := ⟨R.PIO_TXQ u, 0, 32⟩
/-- PIO.RXQ (10 R290). -/
def R.PIO_RXQ (u : Nat) : Nat := (416 + u) * 4096 + 296
def F.PIO_RXQ_RXQ (u : Nat) : RF := ⟨R.PIO_RXQ u, 0, 32⟩
/-- PIO.RSVCNT (10 R290). -/
def R.PIO_RSVCNT (u : Nat) : Nat := (416 + u) * 4096 + 304
def F.PIO_RSVCNT_COUNT (u : Nat) : RF := ⟨R.PIO_RSVCNT u, 0, 32⟩
def F.PIO_RSVCNT_LAST (u : Nat) : RF := ⟨R.PIO_RSVCNT u, 32, 6⟩
/-- PIO.EVLATCH (10 R290). -/
def R.PIO_EVLATCH (u : Nat) : Nat := (416 + u) * 4096 + 312
def F.PIO_EVLATCH_EV (u : Nat) : RF := ⟨R.PIO_EVLATCH u, 0, 12⟩
def F.PIO_EVLATCH_EN (u : Nat) : RF := ⟨R.PIO_EVLATCH u, 12, 1⟩
def F.PIO_EVLATCH_LATCHED (u : Nat) : RF := ⟨R.PIO_EVLATCH u, 13, 1⟩
/-- PIO.TXFEED (10 R290). -/
def R.PIO_TXFEED (u : Nat) : Nat := (416 + u) * 4096 + 320
def F.PIO_TXFEED_BASE (u : Nat) : RF := ⟨R.PIO_TXFEED u, 0, 22⟩
def F.PIO_TXFEED_LOG2SZ (u : Nat) : RF := ⟨R.PIO_TXFEED u, 22, 5⟩
def F.PIO_TXFEED_EN (u : Nat) : RF := ⟨R.PIO_TXFEED u, 27, 1⟩
def F.PIO_TXFEED_OFFSET (u : Nat) : RF := ⟨R.PIO_TXFEED u, 32, 18⟩
/-- PIO.RXFEED (10 R290). -/
def R.PIO_RXFEED (u : Nat) : Nat := (416 + u) * 4096 + 328
def F.PIO_RXFEED_BASE (u : Nat) : RF := ⟨R.PIO_RXFEED u, 0, 22⟩
def F.PIO_RXFEED_LOG2SZ (u : Nat) : RF := ⟨R.PIO_RXFEED u, 22, 5⟩
def F.PIO_RXFEED_EN (u : Nat) : RF := ⟨R.PIO_RXFEED u, 27, 1⟩
def F.PIO_RXFEED_OFFSET (u : Nat) : RF := ⟨R.PIO_RXFEED u, 32, 18⟩
/-- PIO.IMEM (10 R290). -/
def R.PIO_IMEM (u : Nat) (i : Nat) : Nat := (416 + u) * 4096 + 512 + i * 8
def F.PIO_IMEM_IMEM (u : Nat) (i : Nat) : RF := ⟨R.PIO_IMEM u i, 0, 32⟩
/-- PIOG.ERRCNT (15 R409). -/
def R.PIOG_ERRCNT (u : Nat) : Nat := (448 + u) * 4096 + 32
def F.PIOG_ERRCNT_ERRCNT (u : Nat) : RF := ⟨R.PIOG_ERRCNT u, 0, 32⟩
/-- PIOG.REJCNT (15 R409). -/
def R.PIOG_REJCNT (u : Nat) : Nat := (448 + u) * 4096 + 40
def F.PIOG_REJCNT_REJCNT (u : Nat) : RF := ⟨R.PIOG_REJCNT u, 0, 32⟩
/-- PIOG.START (10 R291). -/
def R.PIOG_START (u : Nat) : Nat := (448 + u) * 4096 + 256
def F.PIOG_START_START (u : Nat) : RF := ⟨R.PIOG_START u, 0, 8⟩
/-- PIOG.STOP (10 R291). -/
def R.PIOG_STOP (u : Nat) : Nat := (448 + u) * 4096 + 264
def F.PIOG_STOP_STOP (u : Nat) : RF := ⟨R.PIOG_STOP u, 0, 8⟩
/-- PIOG.DIVSYNC (10 R291). -/
def R.PIOG_DIVSYNC (u : Nat) : Nat := (448 + u) * 4096 + 272
def F.PIOG_DIVSYNC_DIVSYNC (u : Nat) : RF := ⟨R.PIOG_DIVSYNC u, 0, 8⟩
/-- PIN.ERRCNT (15 R409). -/
def R.PIN_ERRCNT (u : Nat) : Nat := (464 + u) * 4096 + 32
def F.PIN_ERRCNT_ERRCNT (u : Nat) : RF := ⟨R.PIN_ERRCNT u, 0, 32⟩
/-- PIN.REJCNT (15 R409). -/
def R.PIN_REJCNT (u : Nat) : Nat := (464 + u) * 4096 + 40
def F.PIN_REJCNT_REJCNT (u : Nat) : RF := ⟨R.PIN_REJCNT u, 0, 32⟩
/-- PIN.GPIOOUT (10 R292). -/
def R.PIN_GPIOOUT (u : Nat) : Nat := (464 + u) * 4096 + 64
def F.PIN_GPIOOUT_GPIOOUT (u : Nat) : RF := ⟨R.PIN_GPIOOUT u, 0, 32⟩
/-- PIN.GPIOOE (10 R292). -/
def R.PIN_GPIOOE (u : Nat) : Nat := (464 + u) * 4096 + 72
def F.PIN_GPIOOE_GPIOOE (u : Nat) : RF := ⟨R.PIN_GPIOOE u, 0, 32⟩
/-- PIN.GPIOSET (10 R292). -/
def R.PIN_GPIOSET (u : Nat) : Nat := (464 + u) * 4096 + 80
def F.PIN_GPIOSET_GPIOSET (u : Nat) : RF := ⟨R.PIN_GPIOSET u, 0, 32⟩
/-- PIN.GPIOCLR (10 R292). -/
def R.PIN_GPIOCLR (u : Nat) : Nat := (464 + u) * 4096 + 88
def F.PIN_GPIOCLR_GPIOCLR (u : Nat) : RF := ⟨R.PIN_GPIOCLR u, 0, 32⟩
/-- PIN.GPIOTOG (10 R292). -/
def R.PIN_GPIOTOG (u : Nat) : Nat := (464 + u) * 4096 + 96
def F.PIN_GPIOTOG_GPIOTOG (u : Nat) : RF := ⟨R.PIN_GPIOTOG u, 0, 32⟩
/-- PIN.EVSTAT (10 R292). -/
def R.PIN_EVSTAT (u : Nat) : Nat := (464 + u) * 4096 + 104
def F.PIN_EVSTAT_EVSTAT (u : Nat) : RF := ⟨R.PIN_EVSTAT u, 0, 32⟩
/-- PIN.CFG (10 R292). -/
def R.PIN_CFG (u : Nat) (i : Nat) : Nat := (464 + u) * 4096 + 256 + i * 8
def F.PIN_CFG_FSEL (u : Nat) (i : Nat) : RF := ⟨R.PIN_CFG u i, 0, 3⟩
def F.PIN_CFG_SUB (u : Nat) (i : Nat) : RF := ⟨R.PIN_CFG u i, 4, 5⟩
def F.PIN_CFG_THR (u : Nat) (i : Nat) : RF := ⟨R.PIN_CFG u i, 9, 1⟩
def F.PIN_CFG_HYST (u : Nat) (i : Nat) : RF := ⟨R.PIN_CFG u i, 10, 1⟩
def F.PIN_CFG_PULL (u : Nat) (i : Nat) : RF := ⟨R.PIN_CFG u i, 11, 2⟩
def F.PIN_CFG_ANA (u : Nat) (i : Nat) : RF := ⟨R.PIN_CFG u i, 13, 1⟩
def F.PIN_CFG_FMODE (u : Nat) (i : Nat) : RF := ⟨R.PIN_CFG u i, 14, 2⟩
def F.PIN_CFG_FLEN (u : Nat) (i : Nat) : RF := ⟨R.PIN_CFG u i, 16, 8⟩
def F.PIN_CFG_EDGE (u : Nat) (i : Nat) : RF := ⟨R.PIN_CFG u i, 24, 2⟩
def F.PIN_CFG_EVSEL (u : Nat) (i : Nat) : RF := ⟨R.PIN_CFG u i, 28, 12⟩
def F.PIN_CFG_SWPEND (u : Nat) (i : Nat) : RF := ⟨R.PIN_CFG u i, 63, 1⟩
/-- STI.ERRCNT (15 R409). -/
def R.STI_ERRCNT (u : Nat) : Nat := (480 + u) * 4096 + 32
def F.STI_ERRCNT_ERRCNT (u : Nat) : RF := ⟨R.STI_ERRCNT u, 0, 32⟩
/-- STI.REJCNT (15 R409). -/
def R.STI_REJCNT (u : Nat) : Nat := (480 + u) * 4096 + 40
def F.STI_REJCNT_REJCNT (u : Nat) : RF := ⟨R.STI_REJCNT u, 0, 32⟩
/-- STI.CTRL (11 R326). -/
def R.STI_CTRL (u : Nat) : Nat := (480 + u) * 4096 + 8
def F.STI_CTRL_EN (u : Nat) : RF := ⟨R.STI_CTRL u, 0, 1⟩
def F.STI_CTRL_RETRAIN (u : Nat) : RF := ⟨R.STI_CTRL u, 1, 1⟩
def F.STI_CTRL_WAKE (u : Nat) : RF := ⟨R.STI_CTRL u, 2, 1⟩
/-- STI.STATUS (11 R326). -/
def R.STI_STATUS (u : Nat) : Nat := (480 + u) * 4096 + 16
def F.STI_STATUS_LSTATE (u : Nat) : RF := ⟨R.STI_STATUS u, 0, 3⟩
def F.STI_STATUS_UPSTR (u : Nat) : RF := ⟨R.STI_STATUS u, 3, 1⟩
def F.STI_STATUS_ALIGNED (u : Nat) : RF := ⟨R.STI_STATUS u, 4, 1⟩
def F.STI_STATUS_DOWNSEEN (u : Nat) : RF := ⟨R.STI_STATUS u, 8, 1⟩
def F.STI_STATUS_FERRSEEN (u : Nat) : RF := ⟨R.STI_STATUS u, 9, 1⟩
def F.STI_STATUS_STARVSEEN (u : Nat) : RF := ⟨R.STI_STATUS u, 10, 1⟩
def F.STI_STATUS_STOMPSEEN (u : Nat) : RF := ⟨R.STI_STATUS u, 11, 1⟩
/-- STI.EVEN (11 R326). -/
def R.STI_EVEN (u : Nat) : Nat := (480 + u) * 4096 + 24
def F.STI_EVEN_LUP (u : Nat) : RF := ⟨R.STI_EVEN u, 0, 1⟩
def F.STI_EVEN_LDOWN (u : Nat) : RF := ⟨R.STI_EVEN u, 1, 1⟩
def F.STI_EVEN_STARV (u : Nat) : RF := ⟨R.STI_EVEN u, 2, 1⟩
def F.STI_EVEN_FERR (u : Nat) : RF := ⟨R.STI_EVEN u, 3, 1⟩
/-- STI.LOCK (11 R326). -/
def R.STI_LOCK (u : Nat) : Nat := (480 + u) * 4096 + 48
def F.STI_LOCK_CFG (u : Nat) : RF := ⟨R.STI_LOCK u, 0, 1⟩
/-- STI.LINKINFO (11 R326). -/
def R.STI_LINKINFO (u : Nat) : Nat := (480 + u) * 4096 + 56
def F.STI_LINKINFO_FSIG (u : Nat) : RF := ⟨R.STI_LINKINFO u, 0, 16⟩
def F.STI_LINKINFO_FROLE (u : Nat) : RF := ⟨R.STI_LINKINFO u, 16, 2⟩
def F.STI_LINKINFO_FHOLD (u : Nat) : RF := ⟨R.STI_LINKINFO u, 18, 1⟩
def F.STI_LINKINFO_FPORT (u : Nat) : RF := ⟨R.STI_LINKINFO u, 19, 2⟩
def F.STI_LINKINFO_FREFOK (u : Nat) : RF := ⟨R.STI_LINKINFO u, 21, 1⟩
def F.STI_LINKINFO_KNOWN (u : Nat) : RF := ⟨R.STI_LINKINFO u, 22, 1⟩
def F.STI_LINKINFO_FEPOCH (u : Nat) : RF := ⟨R.STI_LINKINFO u, 32, 16⟩
/-- STI.HOPDLY (11 R326). -/
def R.STI_HOPDLY (u : Nat) : Nat := (480 + u) * 4096 + 64
def F.STI_HOPDLY_DLY (u : Nat) : RF := ⟨R.STI_HOPDLY u, 0, 32⟩
def F.STI_HOPDLY_ECHOES (u : Nat) : RF := ⟨R.STI_HOPDLY u, 32, 16⟩
/-- STI.CFG (11 R326). -/
def R.STI_CFG (u : Nat) : Nat := (480 + u) * 4096 + 256
def F.STI_CFG_STARVTO (u : Nat) : RF := ⟨R.STI_CFG u, 0, 16⟩
/-- STI.ASYM (11 R326). -/
def R.STI_ASYM (u : Nat) : Nat := (480 + u) * 4096 + 264
def F.STI_ASYM_ASYM (u : Nat) : RF := ⟨R.STI_ASYM u, 0, 16⟩
/-- STI.VCPRI (11 R326). -/
def R.STI_VCPRI (u : Nat) : Nat := (480 + u) * 4096 + 272
/-- STI.VCBUF (11 R326). -/
def R.STI_VCBUF (u : Nat) (i : Nat) : Nat := (480 + u) * 4096 + 280 + i * 8
/-- STI.FRMCNT (11 R326). -/
def R.STI_FRMCNT (u : Nat) : Nat := (480 + u) * 4096 + 320
def F.STI_FRMCNT_RXFRM (u : Nat) : RF := ⟨R.STI_FRMCNT u, 0, 32⟩
def F.STI_FRMCNT_TXFRM (u : Nat) : RF := ⟨R.STI_FRMCNT u, 32, 32⟩
/-- STI.RXERR (11 R326). -/
def R.STI_RXERR (u : Nat) : Nat := (480 + u) * 4096 + 328
def F.STI_RXERR_CRCERR (u : Nat) : RF := ⟨R.STI_RXERR u, 0, 16⟩
def F.STI_RXERR_LENERR (u : Nat) : RF := ⟨R.STI_RXERR u, 16, 16⟩
def F.STI_RXERR_TYPEERR (u : Nat) : RF := ⟨R.STI_RXERR u, 32, 16⟩
def F.STI_RXERR_MISROUTE (u : Nat) : RF := ⟨R.STI_RXERR u, 48, 16⟩
/-- STI.DROPS (11 R326). -/
def R.STI_DROPS (u : Nat) : Nat := (480 + u) * 4096 + 336
def F.STI_DROPS_STARVDROP (u : Nat) : RF := ⟨R.STI_DROPS u, 0, 16⟩
def F.STI_DROPS_TXBAD (u : Nat) : RF := ⟨R.STI_DROPS u, 16, 16⟩
def F.STI_DROPS_DELIVERR (u : Nat) : RF := ⟨R.STI_DROPS u, 32, 16⟩
def F.STI_DROPS_STOMPED (u : Nat) : RF := ⟨R.STI_DROPS u, 48, 16⟩
/-- STI.CTLERR (11 R326). -/
def R.STI_CTLERR (u : Nat) : Nat := (480 + u) * 4096 + 344
def F.STI_CTLERR_CTLERR (u : Nat) : RF := ⟨R.STI_CTLERR u, 0, 16⟩
/-- STI.CRED (11 R326). -/
def R.STI_CRED (u : Nat) (i : Nat) : Nat := (480 + u) * 4096 + 384 + i * 8
def F.STI_CRED_TXCRED (u : Nat) (i : Nat) : RF := ⟨R.STI_CRED u i, 0, 12⟩
def F.STI_CRED_RXFREE (u : Nat) (i : Nat) : RF := ⟨R.STI_CRED u i, 16, 12⟩
/-- RHO.ERRCNT (15 R409). -/
def R.RHO_ERRCNT : Nat := 1982496
def F.RHO_ERRCNT_ERRCNT : RF := ⟨R.RHO_ERRCNT, 0, 32⟩
/-- RHO.REJCNT (15 R409). -/
def R.RHO_REJCNT : Nat := 1982504
def F.RHO_REJCNT_REJCNT : RF := ⟨R.RHO_REJCNT, 0, 32⟩
/-- RHO.CTRL (11 R327). -/
def R.RHO_CTRL : Nat := 1982472
def F.RHO_CTRL_RHOEN : RF := ⟨R.RHO_CTRL, 0, 1⟩
def F.RHO_CTRL_HEADEN : RF := ⟨R.RHO_CTRL, 1, 1⟩
def F.RHO_CTRL_ENUM : RF := ⟨R.RHO_CTRL, 2, 1⟩
def F.RHO_CTRL_COARSE : RF := ⟨R.RHO_CTRL, 3, 1⟩
def F.RHO_CTRL_SLEW : RF := ⟨R.RHO_CTRL, 4, 7⟩
def F.RHO_CTRL_LAMIN : RF := ⟨R.RHO_CTRL, 16, 10⟩
/-- RHO.STATUS (11 R327). -/
def R.RHO_STATUS : Nat := 1982480
def F.RHO_STATUS_ROLE : RF := ⟨R.RHO_STATUS, 0, 2⟩
def F.RHO_STATUS_HOLD : RF := ⟨R.RHO_STATUS, 2, 1⟩
def F.RHO_STATUS_SLEWING : RF := ⟨R.RHO_STATUS, 3, 1⟩
def F.RHO_STATUS_LOCKED : RF := ⟨R.RHO_STATUS, 4, 1⟩
def F.RHO_STATUS_ENUMBUSY : RF := ⟨R.RHO_STATUS, 5, 1⟩
def F.RHO_STATUS_WPARMED : RF := ⟨R.RHO_STATUS, 6, 1⟩
def F.RHO_STATUS_LOCKLOST : RF := ⟨R.RHO_STATUS, 8, 1⟩
def F.RHO_STATUS_GEOMERR : RF := ⟨R.RHO_STATUS, 9, 1⟩
def F.RHO_STATUS_HEADCONF : RF := ⟨R.RHO_STATUS, 10, 1⟩
def F.RHO_STATUS_LATE : RF := ⟨R.RHO_STATUS, 11, 1⟩
def F.RHO_STATUS_TRIMCLAMP : RF := ⟨R.RHO_STATUS, 12, 1⟩
def F.RHO_STATUS_SIGCHG : RF := ⟨R.RHO_STATUS, 13, 1⟩
/-- RHO.EVEN (11 R327). -/
def R.RHO_EVEN : Nat := 1982488
def F.RHO_EVEN_EVEN : RF := ⟨R.RHO_EVEN, 0, 11⟩
/-- RHO.SIG (11 R327). -/
def R.RHO_SIG : Nat := 1982520
def F.RHO_SIG_SIG : RF := ⟨R.RHO_SIG, 0, 16⟩
def F.RHO_SIG_WALLN : RF := ⟨R.RHO_SIG, 16, 16⟩
def F.RHO_SIG_UPPORT : RF := ⟨R.RHO_SIG, 32, 2⟩
def F.RHO_SIG_UPVALID : RF := ⟨R.RHO_SIG, 34, 1⟩
def F.RHO_SIG_EPOCH : RF := ⟨R.RHO_SIG, 48, 16⟩
/-- RHO.PHASE (11 R327). -/
def R.RHO_PHASE : Nat := 1982528
def F.RHO_PHASE_PHASE : RF := ⟨R.RHO_PHASE, 0, 32⟩
/-- RHO.RTQUERY (11 R327). -/
def R.RHO_RTQUERY : Nat := 1982536
def F.RHO_RTQUERY_RTSIG : RF := ⟨R.RHO_RTQUERY, 0, 16⟩
def F.RHO_RTQUERY_RTPORT : RF := ⟨R.RHO_RTQUERY, 16, 2⟩
def F.RHO_RTQUERY_RTVALID : RF := ⟨R.RHO_RTQUERY, 18, 1⟩
/-- RHO.HOLDCNT (11 R327). -/
def R.RHO_HOLDCNT : Nat := 1982544
def F.RHO_HOLDCNT_HOLDCNT : RF := ⟨R.RHO_HOLDCNT, 0, 32⟩
/-- RHO.LOOP (11 R327). -/
def R.RHO_LOOP : Nat := 1982720
def F.RHO_LOOP_KP : RF := ⟨R.RHO_LOOP, 0, 5⟩
def F.RHO_LOOP_KI : RF := ⟨R.RHO_LOOP, 8, 5⟩
def F.RHO_LOOP_LOCKTH : RF := ⟨R.RHO_LOOP, 16, 16⟩
def F.RHO_LOOP_MKINT : RF := ⟨R.RHO_LOOP, 32, 8⟩
def F.RHO_LOOP_MKTO : RF := ⟨R.RHO_LOOP, 40, 4⟩
/-- RHO.STBINC (11 R327). -/
def R.RHO_STBINC : Nat := 1982728
def F.RHO_STBINC_STBINC : RF := ⟨R.RHO_STBINC, 0, 32⟩
/-- RHO.WPRESS (11 R327). -/
def R.RHO_WPRESS : Nat := 1982736
def F.RHO_WPRESS_TICK : RF := ⟨R.RHO_WPRESS, 0, 14⟩
def F.RHO_WPRESS_LINE : RF := ⟨R.RHO_WPRESS, 16, 14⟩
def F.RHO_WPRESS_FDELTA : RF := ⟨R.RHO_WPRESS, 32, 16⟩
/-- RHO.WPTGT (11 R327). -/
def R.RHO_WPTGT : Nat := 1982744
def F.RHO_WPTGT_TGTTICK : RF := ⟨R.RHO_WPTGT, 0, 14⟩
def F.RHO_WPTGT_TGTLINE : RF := ⟨R.RHO_WPTGT, 16, 14⟩
def F.RHO_WPTGT_TGTFRAME : RF := ⟨R.RHO_WPTGT, 32, 32⟩
/-- BND.ERRCNT (15 R409). -/
def R.BND_ERRCNT : Nat := 2031648
def F.BND_ERRCNT_ERRCNT : RF := ⟨R.BND_ERRCNT, 0, 32⟩
/-- BND.REJCNT (15 R409). -/
def R.BND_REJCNT : Nat := 2031656
def F.BND_REJCNT_REJCNT : RF := ⟨R.BND_REJCNT, 0, 32⟩
/-- BND.CTRL (12 R357). -/
def R.BND_CTRL : Nat := 2031624
def F.BND_CTRL_LPEN : RF := ⟨R.BND_CTRL, 0, 16⟩
def F.BND_CTRL_SNDEN : RF := ⟨R.BND_CTRL, 16, 8⟩
def F.BND_CTRL_BLTEN : RF := ⟨R.BND_CTRL, 24, 1⟩
/-- BND.STATUS (12 R357). -/
def R.BND_STATUS : Nat := 2031632
def F.BND_STATUS_PFSEEN : RF := ⟨R.BND_STATUS, 0, 1⟩
def F.BND_STATUS_PFACTIVE : RF := ⟨R.BND_STATUS, 1, 1⟩
def F.BND_STATUS_PFDONE : RF := ⟨R.BND_STATUS, 2, 1⟩
def F.BND_STATUS_ACCERRSEEN : RF := ⟨R.BND_STATUS, 3, 1⟩
def F.BND_STATUS_BLTBUSY : RF := ⟨R.BND_STATUS, 4, 1⟩
def F.BND_STATUS_BLTPEND : RF := ⟨R.BND_STATUS, 8, 4⟩
/-- BND.EVEN (12 R357). -/
def R.BND_EVEN : Nat := 2031640
def F.BND_EVEN_EVEN : RF := ⟨R.BND_EVEN, 0, 37⟩
/-- BND.LOCK (12 R357). -/
def R.BND_LOCK : Nat := 2031664
def F.BND_LOCK_CFG : RF := ⟨R.BND_LOCK, 0, 1⟩
/-- BND.DOORBELL (12 R357). -/
def R.BND_DOORBELL : Nat := 2031672
def F.BND_DOORBELL_DOORBELL : RF := ⟨R.BND_DOORBELL, 0, 6⟩
/-- BND.ACCERR (12 R357). -/
def R.BND_ACCERR : Nat := 2031680
def F.BND_ACCERR_ACCERR : RF := ⟨R.BND_ACCERR, 0, 32⟩
/-- BND.LPCFG (12 R357). -/
def R.BND_LPCFG : Nat := 2031872
/-- BND.BWTO (12 R357). -/
def R.BND_BWTO : Nat := 2031880
def F.BND_BWTO_BWTO : RF := ⟨R.BND_BWTO, 0, 16⟩
/-- BND.HMTO (12 R357). -/
def R.BND_HMTO : Nat := 2031888
def F.BND_HMTO_HMTO : RF := ⟨R.BND_HMTO, 0, 32⟩
/-- BND.BLTTO (12 R357). -/
def R.BND_BLTTO : Nat := 2031896
def F.BND_BLTTO_BLTTO : RF := ⟨R.BND_BLTTO, 0, 32⟩
/-- BND.BLTDONE (12 R357). -/
def R.BND_BLTDONE : Nat := 2031904
def F.BND_BLTDONE_BLTDONE : RF := ⟨R.BND_BLTDONE, 0, 32⟩
/-- BND.BLTWM (12 R357). -/
def R.BND_BLTWM : Nat := 2031912
def F.BND_BLTWM_STEP : RF := ⟨R.BND_BLTWM, 0, 16⟩
/-- BND.BLTAB (12 R357). -/
def R.BND_BLTAB : Nat := 2031920
def F.BND_BLTAB_BLTAB : RF := ⟨R.BND_BLTAB, 0, 32⟩
/-- BND.HMLATE (12 R357). -/
def R.BND_HMLATE : Nat := 2031928
def F.BND_HMLATE_HMLATE : RF := ⟨R.BND_HMLATE, 0, 32⟩
/-- BND.LPCNT (12 R357). -/
def R.BND_LPCNT (i : Nat) : Nat := 2032128 + i * 8
def F.BND_LPCNT_MISS (i : Nat) : RF := ⟨R.BND_LPCNT i, 0, 32⟩
def F.BND_LPCNT_LATE (i : Nat) : RF := ⟨R.BND_LPCNT i, 32, 32⟩
/-- BND.SCNT (12 R357). -/
def R.BND_SCNT (i : Nat) : Nat := 2032384 + i * 8
def F.BND_SCNT_SCNT (i : Nat) : RF := ⟨R.BND_SCNT i, 0, 32⟩
/-- BND.SNDCNT (12 R357). -/
def R.BND_SNDCNT (i : Nat) : Nat := 2032448 + i * 8
def F.BND_SNDCNT_LATE (i : Nat) : RF := ⟨R.BND_SNDCNT i, 0, 16⟩
def F.BND_SNDCNT_UNDERRUN (i : Nat) : RF := ⟨R.BND_SNDCNT i, 16, 16⟩
/-- CTX.ERRCNT (15 R409). -/
def R.CTX_ERRCNT (u : Nat) : Nat := (1024 + u) * 4096 + 32
def F.CTX_ERRCNT_ERRCNT (u : Nat) : RF := ⟨R.CTX_ERRCNT u, 0, 32⟩
/-- CTX.REJCNT (15 R409). -/
def R.CTX_REJCNT (u : Nat) : Nat := (1024 + u) * 4096 + 40
def F.CTX_REJCNT_REJCNT (u : Nat) : RF := ⟨R.CTX_REJCNT u, 0, 32⟩
/-- CTX.CTRL (04 R88). -/
def R.CTX_CTRL (u : Nat) : Nat := (1024 + u) * 4096 + 8
def F.CTX_CTRL_CMD (u : Nat) : RF := ⟨R.CTX_CTRL u, 0, 3⟩
/-- CTX.STATUS (04 R93). -/
def R.CTX_STATUS (u : Nat) : Nat := (1024 + u) * 4096 + 16
def F.CTX_STATUS_STARVED (u : Nat) : RF := ⟨R.CTX_STATUS u, 16, 1⟩
def F.CTX_STATUS_EVFULL (u : Nat) : RF := ⟨R.CTX_STATUS u, 17, 1⟩
def F.CTX_STATUS_FAULTSEEN (u : Nat) : RF := ⟨R.CTX_STATUS u, 18, 1⟩
/-- CTX.EVEN (04 R93). -/
def R.CTX_EVEN (u : Nat) : Nat := (1024 + u) * 4096 + 24
def F.CTX_EVEN_FEV (u : Nat) : RF := ⟨R.CTX_EVEN u, 0, 12⟩
def F.CTX_EVEN_FEVEN (u : Nat) : RF := ⟨R.CTX_EVEN u, 12, 1⟩
def F.CTX_EVEN_FDOOR (u : Nat) : RF := ⟨R.CTX_EVEN u, 13, 1⟩
def F.CTX_EVEN_SDOOR (u : Nat) : RF := ⟨R.CTX_EVEN u, 14, 1⟩
/-- CTX.LOCK (04 R93). -/
def R.CTX_LOCK (u : Nat) : Nat := (1024 + u) * 4096 + 48
def F.CTX_LOCK_CFG (u : Nat) : RF := ⟨R.CTX_LOCK u, 0, 1⟩
/-- CTX.OPC (04 R93). -/
def R.CTX_OPC (u : Nat) : Nat := (1024 + u) * 4096 + 64
def F.CTX_OPC_OPC (u : Nat) : RF := ⟨R.CTX_OPC u, 0, 32⟩
/-- CTX.FLAGPRED (04 R83). -/
def R.CTX_FLAGPRED (u : Nat) : Nat := (1024 + u) * 4096 + 72
def F.CTX_FLAGPRED_FLAGS (u : Nat) : RF := ⟨R.CTX_FLAGPRED u, 0, 6⟩
def F.CTX_FLAGPRED_P0 (u : Nat) : RF := ⟨R.CTX_FLAGPRED u, 8, 1⟩
def F.CTX_FLAGPRED_P1_7 (u : Nat) : RF := ⟨R.CTX_FLAGPRED u, 9, 7⟩
/-- CTX.LC (04 R93). -/
def R.CTX_LC (u : Nat) : Nat := (1024 + u) * 4096 + 80
def F.CTX_LC_LC0 (u : Nat) : RF := ⟨R.CTX_LC u, 0, 32⟩
def F.CTX_LC_LC1 (u : Nat) : RF := ⟨R.CTX_LC u, 32, 32⟩
/-- CTX.AREG01 (04 R93). -/
def R.CTX_AREG01 (u : Nat) : Nat := (1024 + u) * 4096 + 88
def F.CTX_AREG01_A0 (u : Nat) : RF := ⟨R.CTX_AREG01 u, 0, 32⟩
def F.CTX_AREG01_A1 (u : Nat) : RF := ⟨R.CTX_AREG01 u, 32, 32⟩
/-- CTX.AREG23 (04 R93). -/
def R.CTX_AREG23 (u : Nat) : Nat := (1024 + u) * 4096 + 96
def F.CTX_AREG23_A2 (u : Nat) : RF := ⟨R.CTX_AREG23 u, 0, 32⟩
def F.CTX_AREG23_A3 (u : Nat) : RF := ⟨R.CTX_AREG23 u, 32, 32⟩
/-- CTX.MREG (04 R84). -/
def R.CTX_MREG (u : Nat) : Nat := (1024 + u) * 4096 + 104
/-- CTX.CTXCFG (04 R85). -/
def R.CTX_CTXCFG (u : Nat) : Nat := (1024 + u) * 4096 + 112
def F.CTX_CTXCFG_PRI (u : Nat) : RF := ⟨R.CTX_CTXCFG u, 0, 3⟩
def F.CTX_CTXCFG_MSTRAP (u : Nat) : RF := ⟨R.CTX_CTXCFG u, 3, 1⟩
def F.CTX_CTXCFG_OSTRAP (u : Nat) : RF := ⟨R.CTX_CTXCFG u, 4, 1⟩
def F.CTX_CTXCFG_DZTRAP (u : Nat) : RF := ⟨R.CTX_CTXCFG u, 5, 1⟩
def F.CTX_CTXCFG_STOWN (u : Nat) : RF := ⟨R.CTX_CTXCFG u, 6, 1⟩
def F.CTX_CTXCFG_STPOLL (u : Nat) : RF := ⟨R.CTX_CTXCFG u, 7, 1⟩
def F.CTX_CTXCFG_STQ (u : Nat) : RF := ⟨R.CTX_CTXCFG u, 8, 1⟩
def F.CTX_CTXCFG_WMODE (u : Nat) : RF := ⟨R.CTX_CTXCFG u, 9, 1⟩
def F.CTX_CTXCFG_POLLLIM (u : Nat) : RF := ⟨R.CTX_CTXCFG u, 16, 16⟩
/-- CTX.URGVEC (04 R85). -/
def R.CTX_URGVEC (u : Nat) : Nat := (1024 + u) * 4096 + 120
def F.CTX_URGVEC_URGVEC (u : Nat) : RF := ⟨R.CTX_URGVEC u, 0, 14⟩
/-- CTX.G (04 R93). -/
def R.CTX_G (u : Nat) (i : Nat) : Nat := (1024 + u) * 4096 + 128 + i * 8
def F.CTX_G_G (u : Nat) (i : Nat) : RF := ⟨R.CTX_G u i, 0, 64⟩
/-- CTX.ENTRY (04 R93). -/
def R.CTX_ENTRY (u : Nat) : Nat := (1024 + u) * 4096 + 256
def F.CTX_ENTRY_ENTRY (u : Nat) : RF := ⟨R.CTX_ENTRY u, 0, 14⟩
/-- CTX.EVMERGE (04 R93). -/
def R.CTX_EVMERGE (u : Nat) : Nat := (1024 + u) * 4096 + 336
def F.CTX_EVMERGE_EVMERGE (u : Nat) : RF := ⟨R.CTX_EVMERGE u, 0, 32⟩
/-- CTX.STARVCNT (04 R93). -/
def R.CTX_STARVCNT (u : Nat) : Nat := (1024 + u) * 4096 + 344
def F.CTX_STARVCNT_STARVCNT (u : Nat) : RF := ⟨R.CTX_STARVCNT u, 0, 32⟩
/-- CTX.OSTK (05 R151). -/
def R.CTX_OSTK (u : Nat) (i : Nat) : Nat := (1024 + u) * 4096 + 768 + i * 8

end Sys2Proof.Machine
end

