-- ==== Sys2Proof/Machine/Ops.lean ====
section
/-! DEFINITION. The named operations every family uses: registers and their fields, saturating counts, the typed state of
the units, posting to the spine, raising an interrupt source, presenting an occurrence to the colophon, triggering a press,
and the state of a power domain. -/

namespace Sys2Proof.Machine

/-- The value of the register whose home is at window offset `key`. -/
def State.reg (s : State) (key : Nat) : Word := tget resetWord s.regs key

/-- The state with that register holding `v`. -/
def State.setReg (s : State) (key : Nat) (v : Word) : State := { s with regs := tset resetWord key v s.regs }

/-- A field's value. -/
def State.get (s : State) (f : RF) : Nat := fld (s.reg f.key) f.lo f.width

/-- Whether a field is not zero. -/
def State.on (s : State) (f : RF) : Bool := s.get f != 0

/-- The state with a field holding the low bits of `v`. -/
def State.put (s : State) (f : RF) (v : Nat) : State := s.setReg f.key (setFld (s.reg f.key) f.lo f.width v)

/-- A field counted up by `n`, saturating at its maximum (R61, R409). -/
def State.add (s : State) (f : RF) (n : Nat) : State := s.put f (Nat.min (s.get f + n) (2 ^ f.width - 1))

/-- A field counted up by one, saturating (R61, R409). -/
def State.inc (s : State) (f : RF) : State := s.add f 1

/-- A page's ERRCNT (R409). -/
def errcnt (page : Nat) : RF := ⟨page * 4096 + 0x20, 0, 32⟩

/-- A page's REJCNT (R409). -/
def rejcnt (page : Nat) : RF := ⟨page * 4096 + 0x28, 0, 32⟩

/-- One error of a unit (R16): its page's ERRCNT counts. -/
def State.err (s : State) (page : Nat) : State := s.inc (errcnt page)

/-- One rejected write of a page (R411). -/
def State.rej (s : State) (page : Nat) : State := s.inc (rejcnt page)

/-- A context's typed state. -/
def State.cx (s : State) (c : Nat) : Ctx := tget (fun _ => Ctx.reset) s.ctx c

/-- The state with a context's typed state replaced. -/
def State.setCx (s : State) (c : Nat) (x : Ctx) : State := { s with ctx := tset (fun _ => Ctx.reset) c x s.ctx }

/-- A quire's typed state. -/
def State.qu (s : State) (q : Nat) : Quire := tget (fun _ => Quire.reset) s.qui q

/-- The state with a quire's typed state replaced. -/
def State.setQu (s : State) (q : Nat) (x : Quire) : State := { s with qui := tset (fun _ => Quire.reset) q x s.qui }

/-- The quire of a context (R13). -/
def quireOf (c : Nat) : Nat := c / 32

/-- A context's register page (R13). -/
def ctxPage (c : Nat) : Nat := 0x400 + c

/-- A quire's register page (R407). -/
def quiPage (q : Nat) : Nat := 0x20 + q

/-- The next free value (log entry 4): an unconstrained word, and the counter advanced past it. -/
def State.free (s : State) : Word × State := (Config.freeWord s.freeCtr, { s with freeCtr := s.freeCtr + 1 })

/-- Posting a line of the spine (R98, R99): posts to one line in one FCLK merge, and the reserved lines are never asserted. -/
def State.post (s : State) (line : Nat) : State :=
  if line < 0xC80 ∧ (s.fclk, line) ∉ s.posted then { s with posted := s.posted ++ [(s.fclk, line)] } else s

/-- Posting a line when a condition holds. -/
def State.postIf (s : State) (b : Bool) (line : Nat) : State := if b then s.post line else s

/-! Power domains (R362, R363). -/

/-- Domain numbers (R362). -/
def domQuire (q : Nat) : Nat := 1 + q
def domBank (n : Nat) : Nat := 33 + n
def domPio (e : Nat) : Nat := 161 + e / 8
def domDma (n : Nat) : Nat := 165 + n / 8
def domStitch (p : Nat) : Nat := 173 + p
def domSlice (k : Nat) : Nat := 177 + k
def domTimer : Nat := 193
def domInt : Nat := 194
def domBnd : Nat := 195

/-- A domain's state now: 0 ON, 1 DOZE, 2 RET, 3 OFF (R364). -/
def State.domState (s : State) (d : Nat) : Nat := tget (fun _ => 0) s.pwr.cur d

/-- Whether a domain's unit runs: FCLK runs and the domain is ON (R363). -/
def State.unitOn (s : State) (d : Nat) : Bool := s.pwr.running && s.domState d == 0

/-- Whether a domain keeps its contents: not OFF (R363). -/
def State.unitKept (s : State) (d : Nat) : Bool := s.domState d != 3

/-- Whether a domain's pages are served: FCLK runs and the domain is ON or DOZE (R330, R363). -/
def State.pageUp (s : State) (d : Nat) : Bool := s.pwr.running && decide (s.domState d ≤ 1)

/-- Raising an interrupt source (R350): PEND is set, or the raise merges and is counted. A controller that is OFF ignores it (R365). -/
def State.raise (s : State) (src : Nat) : State :=
  if s.unitKept domInt then
    if s.on (F.INTSRC_SRC_PEND src) then s.inc F.INT_MERGECNT_MERGECNT
    else s.put (F.INTSRC_SRC_PEND src) 1
  else s

/-- Raising an interrupt source when a condition holds. -/
def State.raiseIf (s : State) (b : Bool) (src : Nat) : State := if b then s.raise src else s

/-! The colophon's intake (R389, R392, R393, R399). -/

/-- The suppressed count of a code (R392). -/
def suppRF (code : Nat) : RF := ⟨R.COL_SUPP (code / 8), 8 * (code % 8), 8⟩

/-- A field of a code's RATE entry (R392). -/
def rateRF (code lo width : Nat) : RF := ⟨R.COL_RATE (code / 4), 16 * (code % 4) + lo, width⟩

/-- The tokens in a code's bucket (R392): after reset every bucket holds the DEPTH of its reset entry. -/
def State.tokens (s : State) (code : Nat) : Nat := tget (fun _ => 16) s.col.tokens code

/-- The state with a code's bucket holding `n` tokens. -/
def State.setTokens (s : State) (code n : Nat) : State :=
  { s with col := { s.col with tokens := tset (fun _ => 16) code n s.col.tokens } }

/-- The state with a code's SAT mark set or cleared (R387). -/
def State.setSat (s : State) (code : Nat) (b : Bool) : State :=
  { s with col := { s.col with sat := tset (fun _ => false) code b s.col.sat } }

/-- One more suppressed occurrence of a code, saturating with its mark (R387, R392). -/
def State.suppress (s : State) (code : Nat) : State :=
  if s.get (suppRF code) = 255 then s.setSat code true else s.inc (suppRF code)

/-- Whether an occurrence is one of the block's fault records (R390). -/
def isFaultCode (code : Nat) (sw : Bool) : Bool := !sw && decide (0x011 ≤ code ∧ code ≤ 0x019)

/-- An occurrence during a freeze is only counted (R393). -/
def State.occurFrozen (s : State) (code : Nat) (sw : Bool) : State :=
  let first := !s.on F.COL_FRZ_FRZCNT
  let s := s.inc F.COL_FRZ_FRZCNT
  let s := if isFaultCode code sw then s.inc F.COL_FRZ_FRZFLT else s
  { s with col := { s.col with
      frzLow := if first then code else Nat.min s.col.frzLow code
      frzHigh := if first then code else Nat.max s.col.frzHigh code } }

/-- Whether an entry of the intake is one of the colophon's own records, which are no occurrences (R391, R393, R397). -/
def Occ.own (o : Occ) : Bool := !o.sw && (o.code == 4 || o.code == 5)

/-- Whether one occurrence is accepted before another of the same FCLK: the lower SOURCE first, then the lower code (R389). -/
def Occ.before (o p : Occ) : Bool := decide (o.source < p.source ∨ (o.source = p.source ∧ o.code < p.code))

/-- The place of an occurrence among the newest `n` entries of an intake whose newest entry stands first; it passes no record of the
colophon's own (R389, R393, R397). -/
def Occ.place (o : Occ) : Nat → List Occ → List Occ
  | n + 1, p :: l => if p.own || !o.before p then o :: p :: l else p :: o.place n l
  | _, l => o :: l

/-- How many entries of the intake the present FCLK accepted. -/
def State.acceptedNow (s : State) : Nat := if s.col.accepted.1 = s.fclk then s.col.accepted.2 else 0

/-- The newest entry accepted in the present FCLK, where it must give way to `o`. -/
def State.givesWay (s : State) (o : Occ) : Option Occ :=
  if s.acceptedNow = 0 then none else s.col.intake.getLast?.filter (fun p => !p.own && o.before p)

/-- An entry that gives way is lost after all: its code has again what the entry had taken of the suppressed count, and the
occurrence itself besides (R389). -/
def State.displace (s : State) (p : Occ) : State :=
  let n := s.get (suppRF p.code) + p.supp
  let s := (s.put (suppRF p.code) (Nat.min n 255)).setSat p.code (tget (fun _ => false) s.col.sat p.code || p.sat || decide (255 < n))
  let s := { s with col := { s.col with intake := s.col.intake.dropLast, accepted := (s.fclk, s.acceptedNow - 1) } }
  (s.inc F.COL_SUPTOT_LOSTCNT).suppress p.code

/-- An admitted occurrence takes its place in the intake (R389). -/
def State.intakePut (s : State) (code source : Nat) (sw : Bool) (a0 a1 a2 : Word) : State :=
  let n := s.acceptedNow
  let o : Occ := ⟨code, source, sw, a0, a1, a2, s.get (suppRF code), tget (fun _ => false) s.col.sat code⟩
  let s := (s.put (suppRF code) 0).setSat code false
  { s with col := { s.col with intake := (o.place n s.col.intake.reverse).reverse, accepted := (s.fclk, n + 1) } }

/-- An admitted occurrence at the intake: accepted; where four were accepted this FCLK or 16 occurrences fill it, the last of them in
order of SOURCE and code is lost (R389). -/
def State.accept (s : State) (code source : Nat) (sw : Bool) (a0 a1 a2 : Word) : State :=
  if s.acceptedNow ≥ 4 ∨ (s.col.intake.filter (fun o => !o.own)).length ≥ 16 then
    match s.givesWay ⟨code, source, sw, a0, a1, a2, 0, false⟩ with
    | some p => (s.displace p).intakePut code source sw a0 a1 a2
    | none => (s.inc F.COL_SUPTOT_LOSTCNT).suppress code
  else s.intakePut code source sw a0 a1 a2

/-- An occurrence reaching the colophon (COLOPHON_OCCURRENCE, R389): counted while frozen or before the base, otherwise
rate-limited (R392), then accepted, or lost. -/
def State.occur (s : State) (code source : Nat) (sw : Bool) (a0 a1 a2 : Word) : State :=
  if s.col.freezing then s.occurFrozen code sw
  else if !s.on F.COL_STATUS_BASED then
    let s := s.suppress code
    { s with col := { s.col with baseCount := s.col.baseCount + 1 } }
  else if s.get (rateRF code 12 2) = 0 then s.accept code source sw a0 a1 a2
  else if s.tokens code = 0 then (s.suppress code).inc F.COL_SUPTOT_SUPTOT
  else (s.setTokens code (s.tokens code - 1)).accept code source sw a0 a1 a2

/-- An occurrence whose record's arguments the spec does not state: they are free values (log entry 4). -/
def State.occurFree (s : State) (code source : Nat) : State :=
  let a := s.free
  let b := a.2.free
  let c := b.2.free
  c.2.occur code source false a.1 b.1 c.1

/-! Host accesses (R329, R330). -/

/-- The error response to a host access (R330): counted, noted, event 0xC64, a record of code 0x070, zero on a read. `offset` is
the byte offset accessed. The boundary page keeps its counts unless its domain is OFF. -/
def State.errorResponse (s : State) (window isWrite : Bool) (offset cause : Nat) : State :=
  let s := if s.unitKept domBnd then
      ((s.inc F.BND_ACCERR_ACCERR).put F.BND_STATUS_ACCERRSEEN 1).postIf ((s.get F.BND_EVEN_EVEN).testBit 36) 0xC64
    else s
  let s := s.occur 0x070 0x5F0 false (BitVec.ofNat 64 offset)
    (BitVec.ofNat 64 (cause + b2n window * 2 ^ 8 + b2n isWrite * 2 ^ 9)) 0
  if window then { s with resp := { s.resp with bwErr := true, bwData := 0 } }
  else { s with resp := { s.resp with rgErr := true, rgData := 0 } }

/-- A register access while FCLK is stopped begins its restart, and is not accepted before (R371). -/
def State.askFclk (s : State) : State := { s with pwr := { s.pwr with starting := true } }

/-- A normal register response (R329). -/
def State.okResponse (s : State) (data : BitVec 32) : State :=
  { s with resp := { s.resp with rgErr := false, rgData := data } }

/-- A host access to the register at window offset `key`, of a page of domain `d`, with effect `f` (R329, R330): served while the
domain is ON or DOZE, answered with an error in RET and OFF. -/
def State.hostAccess (s : State) (d key : Nat) (isWrite : Bool) (f : State → State) : State :=
  if !s.pwr.running then s.askFclk
  else if s.domState d ≤ 1 then f s
  else s.errorResponse false isWrite key 3

/-- A host write (R329): its response carries no data. -/
def State.hostWrite (s : State) (d key : Nat) (f : State → State) : State :=
  s.hostAccess d key true (fun s => (f s).okResponse 0)

/-- A low half is held, one per register (R413), or discarded. -/
def State.holdLow (s : State) (key : Nat) (v : Option (BitVec 32)) : State := { s with held := tset (fun _ => none) key v s.held }

/-- A host write of both halves of a register together: a low half held for a paired register is discarded (R413). -/
def State.hostPair (s : State) (d key : Nat) (f : State → State) : State := s.hostWrite d key (fun s => f (s.holdLow key none))

/-! The press (R400, R401). -/

/-- Which field of PRS.CTRL enables a press source; the host's is always enabled (R400). -/
def pressEnabled (s : State) : Nat → Bool
  | 1 => s.on F.PRS_CTRL_CTXEN
  | 2 => s.on F.PRS_CTRL_EVSEN
  | 3 => s.on F.PRS_CTRL_BCMPEN
  | 4 => s.on F.PRS_CTRL_FLTEN
  | 5 => s.on F.PRS_CTRL_WALLEN
  | _ => true

/-- A press trigger of a kind whose press falls `delay` FCLK later (R400); with its source disabled it is ignored and counted (R401). -/
def State.pressTrigger (s : State) (kind delay : Nat) : State :=
  if pressEnabled s kind then { s with prs := s.prs ++ [⟨s.fclk + delay, kind⟩] }
  else s.inc F.PRS_MISS_MISSCNT

/-! Taking a fault (R113, R117, R118). -/

/-- Argument 0 of a fault record and FINFO (R117). -/
def faultArg0 (s : State) (c cls : Nat) (off : BitVec 14) : Word :=
  BitVec.ofNat 64 (off.toNat + cls * 2 ^ 16 + s.get (F.CTX_OPC_OPC c) * 2 ^ 32)

/-- A context is parked in FAULTED (CONTEXT_FAULT, R113): MADDR as R114 gives it, FCLASS, FAULTSEEN and FINFO set, the
record presented, FEV posted and the doorbell raised as EVEN selects (R118), and the press triggered for the classes of PFCLS
(R400). `rt` is the shipped routine that stands at MADDR, if any. -/
def State.faultCtx (s : State) (c cls : Nat) (maddr off : BitVec 14) (rt : Option Routine) (a1 a2 : Word) : State :=
  let a0 := faultArg0 s c cls off
  let s := s.setCx c { s.cx c with st := .faulted, maddr := maddr, word := .empty, inflight := none, hold := none,
                                   stopPend := false, pend9 := none, routine := rt, fclass := cls, finfo := a0 }
  let s := s.put (F.CTX_STATUS_FAULTSEEN c) 1
  let s := s.occur (0x010 + cls) c false a0 a1 a2
  let s := s.postIf (s.on (F.CTX_EVEN_FEVEN c)) (s.get (F.CTX_EVEN_FEV c))
  let s := s.raiseIf (s.on (F.CTX_EVEN_FDOOR c)) c
  if (s.get F.PRS_PFCLS_PFCLS).testBit (cls - 1) then s.pressTrigger 4 2 else s

/-- A boundary action of context `c`, started by the word at `off`, is abandoned with limit `limit` (R115, R116): the context is
faulted with class 9 at once in WAIT, STALL or PARKED, at the next point where it would issue from READY or RUN; a FAULTED
context only counts and records it; an IDLE one records nothing. The spec does not say what becomes of a fault that waits for that
point when a second limit expires or another fault comes first: DESIGN CHOICE, the second limit's takes its place, and another
fault drops it (log entry 62). -/
def State.timeout9 (s : State) (c : Nat) (off : BitVec 14) (limit : Nat) : State :=
  let x := s.cx c
  let lim := BitVec.ofNat 64 limit
  match x.st with
  | .idle => s
  | .faulted => (s.err (ctxPage c)).occur 0x019 c false (faultArg0 s c 9 off) 3 lim
  | .parked => s.faultCtx c 9 x.maddr off x.routine 3 lim
  | .wait => s.faultCtx c 9 x.ownAddr off x.ownRt 3 lim
  | .stall =>
    match x.hold with
    | some ⟨_, _, .wait⟩ => s.faultCtx c 9 x.ownAddr off x.ownRt 3 lim
    | _ => s.faultCtx c 9 x.maddr off x.routine 3 lim
  | .ready => s.setCx c { x with pend9 := some (off, limit) }
  | .run => s.setCx c { x with pend9 := some (off, limit) }

/-- The SOURCE of a record written by the unit whose register page is `page` (R387). -/
def sourceOfPage (page : Nat) : Nat := 0x400 + page

/-- A slice's typed state. -/
def State.sl (s : State) (k : Nat) : Slice := tget (fun _ => Slice.reset) s.qsl k

/-- The state with a slice's typed state replaced. -/
def State.setSl (s : State) (k : Nat) (x : Slice) : State := { s with qsl := tset (fun _ => Slice.reset) k x s.qsl }

/-! The beam position (R39, R214) and the windows of R221. -/

/-- The beam position as BSEL 5 and the records lay it out: tick, line, low frame count (R39). -/
def State.beamPos (s : State) : Word :=
  BitVec.ofNat 64 (s.beam.tick % 2 ^ 16 + s.beam.line % 2 ^ 16 * 2 ^ 16 + s.beam.frame % 2 ^ 32 * 2 ^ 32)

/-- Condition 50: the beam lies within the active ticks (R221). -/
def State.activeTicks (s : State) : Bool :=
  decide (s.get F.BEAM_HACT_HAS ≤ s.beam.tick ∧ s.beam.tick < s.get F.BEAM_HACT_HAE)

/-- Condition 51: the beam lies within the active lines (R221). -/
def State.activeLines (s : State) : Bool :=
  decide (s.get F.BEAM_VACT_VAS ≤ s.beam.line ∧ s.beam.line < s.get F.BEAM_VACT_VAE)

end Sys2Proof.Machine
end

