-- ==== Sys2Proof/Machine/Operands.lean ====
section
/-! DEFINITION. What a word reads: its B operand (R39, R65), special registers (R42), conditions (R37, R38), guard (R56); how
a context's own registers are read; address post-modify (R49, R84, R147); and the event table's predicates (R104). -/

namespace Sys2Proof.Machine

/-- A general register (R82). -/
def State.g (s : State) (c n : Nat) : Word := s.reg (R.CTX_G c n)

/-- The state with a general register written. -/
def State.setG (s : State) (c n : Nat) (v : Word) : State := s.setReg (R.CTX_G c n) v

/-- The field that holds address register n (R93). -/
def aRF (c n : Nat) : RF :=
  match n with
  | 0 => F.CTX_AREG01_A0 c | 1 => F.CTX_AREG01_A1 c | 2 => F.CTX_AREG23_A2 c | _ => F.CTX_AREG23_A3 c

/-- The field that holds modifier register n, 16 bits (R84). -/
def mRF (c n : Nat) : RF := ⟨R.CTX_MREG c, 16 * n, 16⟩

/-- The field that holds loop counter n. -/
def lcRF (c n : Nat) : RF := if n = 0 then F.CTX_LC_LC0 c else F.CTX_LC_LC1 c

/-- A flag of the context: bit of FLAGPRED (R83): 0 V, 1 C, 2 Z, 3 N, 4 DZ, 5 OV. -/
def flagRF (c i : Nat) : RF := ⟨R.CTX_FLAGPRED c, i, 1⟩

/-- Predicate n; P0 reads 1 (R82). -/
def State.pred (s : State) (c n : Nat) : Bool := n == 0 || s.on ⟨R.CTX_FLAGPRED c, 8 + n, 1⟩

/-- The eight predicates as special register 9 reads them (R83). -/
def State.preds (s : State) (c : Nat) : Nat := s.get ⟨R.CTX_FLAGPRED c, 8, 8⟩ / 2 * 2 + 1

/-- An option of CTXCFG (R85). -/
def State.opt (s : State) (c bitNo : Nat) : Bool := s.on ⟨R.CTX_CTXCFG c, bitNo, 1⟩

/-- An event-table entry of a context. -/
def Ctx.etAt (x : Ctx) (i : Nat) : EtEntry := tget (fun _ => EtEntry.reset) x.et i

/-- The context with an event-table entry replaced. -/
def Ctx.setEt (x : Ctx) (i : Nat) (e : EtEntry) : Ctx := { x with et := tset (fun _ => EtEntry.reset) i e x.et }

/-- The valid entries of an event table (R100). -/
def Ctx.entries (x : Ctx) : List EtEntry := (x.et.map (·.2)).filter (fun e => e.w || e.u)

/-- The wait mask is satisfied (R104). -/
def Ctx.waitMet (x : Ctx) (all : Bool) : Bool :=
  let w := x.entries.filter (·.w)
  if all then !w.isEmpty && w.all (·.p) else w.any (·.p)

/-- An urgent event is pending (R104, condition 17). -/
def Ctx.urgentMet (x : Ctx) : Bool := x.entries.any (fun e => e.u && e.p)

/-- Whether a context in WAIT has what ends its wait: its mask satisfied, or an urgent event at a POLL-marked WAIT (R104, R110). -/
def Ctx.wantsWake (x : Ctx) : Bool := x.st == .wait && (x.waitMet x.waitAll || (x.waitPoll && x.urgentMet && !x.urg))

/-- The lowest event number among the pending W entries (R104). -/
def Ctx.lowestW (x : Ctx) : BitVec 12 :=
  BitVec.ofNat 12 (minD 0 ((x.entries.filter (fun e => e.w && e.p)).map (fun e => e.event.toNat)))

/-- The lowest event number among the pending U entries (R108). -/
def Ctx.lowestU (x : Ctx) : BitVec 12 :=
  BitVec.ofNat 12 (minD 0 ((x.entries.filter (fun e => e.u && e.p)).map (fun e => e.event.toNat)))

/-- Special register n as a word reads it (R42). -/
def State.special (s : State) (c n : Nat) : Word :=
  match n with
  | 0 => BitVec.ofNat 64 c
  | 1 => BitVec.ofNat 64 (s.get (F.CTX_FLAGPRED_FLAGS c))
  | 2 => BitVec.ofNat 64 (s.get (F.CTX_OPC_OPC c))
  | 3 => BitVec.ofNat 64 (s.get (F.CTX_LC_LC0 c))
  | 4 => BitVec.ofNat 64 (s.get (F.CTX_LC_LC1 c))
  | 9 => BitVec.ofNat 64 (s.preds c)
  | 10 => BitVec.ofNat 64 (s.get (F.CTX_URGVEC_URGVEC c))
  | 11 => BitVec.ofNat 64 (fld (s.reg (R.CTX_CTXCFG c)) 0 32)
  | 12 => (s.cx c).evlast.setWidth 64
  | 13 => BitVec.ofNat 64 (s.cx c).pollcnt
  | 14 => BitVec.ofNat 64 (s.cx c).mstk.length
  | 15 => 0
  | n => BitVec.ofNat 64 (s.get (mRF c (n - 5)))

/-- The B operand (R39, R65). -/
def State.operandB (s : State) (c : Nat) (w : Micro) : Word :=
  match mBsel w with
  | 0 => s.g c (mBreg w)
  | 1 => mImm w
  | 2 => (s.cx c).blatch
  | 3 => (s.cx c).qlatch
  | 4 => BitVec.ofNat 64 (s.get (aRF c (mBreg w % 4)))
  | 5 => s.beamPos
  | 6 => (s.cx c).olatch
  | _ => s.special c (mBreg w)

/-! Address post-modify (R49, R84, R147). -/

/-- The modulo block size a modifier names: 0 for none (R84). -/
def modSize (m : Nat) : Nat := if m % 32 = 0 then 0 else 2 ^ (m % 32)

/-- The modulo form (R49): only the offset within the aligned block moves. `delta` is taken modulo 2^32. -/
def modStep (addr delta m : Nat) : Nat :=
  if modSize m = 0 then (addr + delta) % 2 ^ 32
  else addr / modSize m * modSize m + (addr + delta) % modSize m

/-- The bit-reverse increment (R147): the index in offset bits [MLOG - 1 : s] is reversed, incremented and reversed back. -/
def brevStep (addr size m : Nat) : Nat :=
  let sh := Nat.log2 size
  let ml := m % 32
  if ml = 0 ∨ !m.testBit 5 then (addr + size) % 2 ^ 32
  else if ml ≤ sh then addr
  else
    let k := ml - sh
    let idx := (addr >>> sh) % 2 ^ k
    let nxt := revBits k ((revBits k idx + 1) % 2 ^ k)
    addr / 2 ^ ml * 2 ^ ml + nxt * 2 ^ sh + addr % 2 ^ sh

/-- The address after AMOD (R49); all arithmetic is modulo 2^32. -/
def amodAddr (amod addr size m : Nat) (step : BitVec 16) : Nat :=
  match amod with
  | 1 => (addr + size) % 2 ^ 32
  | 2 => (addr + 2 ^ 32 - size) % 2 ^ 32
  | 3 => (addr + (step.signExtend 32).toNat) % 2 ^ 32
  | 4 => modStep addr size m
  | 5 => modStep addr (2 ^ 32 - size) m
  | 6 => brevStep addr size m
  | _ => addr

/-- Condition 43: the word's own AMOD would wrap (R37). AMOD 6 with an MLOG not above log2 of the access size leaves no index bits, and
the spec does not say whether such an index returns to 0: DESIGN CHOICE, the condition is false there (log entry 62). -/
def amodWraps (amod addr size m : Nat) : Bool :=
  match amod with
  | 4 => modSize m != 0 && modStep addr size m != (addr + size) % 2 ^ 32
  | 5 => modSize m != 0 && modStep addr (2 ^ 32 - size) m != (addr + 2 ^ 32 - size) % 2 ^ 32
  | 6 => m % 32 != 0 && m.testBit 5 && decide (Nat.log2 size < m % 32) &&
      (brevStep addr size m >>> Nat.log2 size) % 2 ^ (m % 32 - Nat.log2 size) == 0
  | _ => false

/-- The Olupo return stack: its valid entries from the top (R151). -/
def State.ostk (s : State) (c : Nat) : List Nat :=
  (((List.range 16).map (fun i => fld (s.reg (R.CTX_OSTK c (i / 2))) (32 * (i % 2)) 32)).takeWhile (fun v => v.testBit 31)).map
    (fun v => v % 2 ^ 25)

/-- A decode word's guard evaluated now (R134, condition 34). -/
def State.guardPasses (s : State) (c : Nat) (dw : Word) : Bool :=
  if bit dw 13 then s.pred c (fld dw 14 3) != bit dw 17 else true

/-- The bank an address lies in, and whether it lies in bank space (R48, R169). -/
def bankOf (addr : Nat) : Nat := addr / 2 ^ 18 % 128
def inSpace (addr : Nat) : Bool := decide (addr < 2 ^ 25)

/-- The condition of code `code` (R37) for a word with operands `a` and `b`. Reserved codes and code 63 are false. Code 28 with
an A[MEMAR] outside bank space addresses no bank and the spec gives it no value: DESIGN CHOICE, false (log entry 62). -/
def State.condition (s : State) (c : Nat) (w : Micro) (a b : Word) (code : Nat) : Bool :=
  let x := s.cx c
  let fl := fun i => s.on (flagRF c i)
  let av := s.get (aRF c (mMemar w))
  match code with
  | 0 => true
  | 1 => fl 1
  | 2 => fl 2
  | 3 => fl 3
  | 4 => fl 0
  | 5 => s.pred c 1
  | 6 => s.pred c 2
  | 7 => s.pred c 3
  | 8 => s.pred c 4
  | 9 => s.pred c 5
  | 10 => s.pred c 6
  | 11 => s.pred c 7
  | 12 => s.get (lcRF c 0) == 0
  | 13 => s.get (lcRF c 1) == 0
  | 14 => x.qok
  | 15 => x.atomZero
  | 16 => x.poisoned
  | 17 => x.urgentMet
  | 18 => fl 4
  | 19 => fl 5
  | 20 => fl 1 && !fl 2
  | 21 => !fl 1 || fl 2
  | 22 => fl 3 != fl 0
  | 23 => (fl 3 != fl 0) || fl 2
  | 24 => !x.bEmpty
  | 25 => !x.qEmpty
  | 26 => x.divReady
  | 27 => x.corrected
  | 28 => inSpace av && s.on (F.BNK_OWN_PEND (bankOf av))
  | 29 => x.waitMet (s.opt c 9)
  | 30 => x.urg
  | 31 => x.nxt.isSome
  | 32 => match x.cur with | some d => bit d.word 8 | none => false
  | 33 => match x.cur with | some d => bit d.word 9 | none => false
  | 34 => match x.cur with | some d => s.guardPasses c d.word | none => true
  | 35 => match x.cur with | some d => fld d.word 10 2 != 0 | none => false
  | 36 => bit a (mShamt w)
  | 37 => a == 0
  | 38 => fld a 0 32 == 0
  | 39 => bit a 63
  | 40 => a == b
  | 41 => a.ult b
  | 42 => a.slt b
  | 43 => amodWraps (mAmod w) av (memSize (mMemop w)) (s.get (mRF c (mMemar w)))
  | 44 => s.get (lcRF c 0) == 1
  | 45 => s.get (lcRF c 1) == 1
  | 46 => x.mstk.isEmpty
  | 47 => decide (4 ≤ x.mstk.length)
  | 48 => (s.ostk c).isEmpty
  | 49 => decide (16 ≤ (s.ostk c).length)
  | 50 => s.activeTicks
  | 51 => s.activeLines
  | 52 => s.beam.frame % 2 == 1
  | 53 => s.on F.RHO_STATUS_HOLD
  | 54 => s.get F.RHO_STATUS_ROLE == 1 || s.get F.RHO_STATUS_ROLE == 3
  | 55 => s.pwr.pwrfail
  | 56 => s.on F.COL_STATUS_FROZEN
  | 57 => s.opt c 6 || s.opt c 7 || s.opt c 8
  | _ => false

/-- The guard of a word (R56). -/
def State.guardOk (s : State) (c : Nat) (w : Micro) : Bool := s.pred c (mGuard w / 2) != (mGuard w % 2 == 1)

end Sys2Proof.Machine
end

