-- ==== Sys2Proof/Machine/Effects.lean ====
section
/-! DEFINITION. The side effects of a word (R41-R55), one shared operation each: special-register writes, bank and queue
requests, event operations, boundary actions, loop counters, divides. Microwords and the shipped Olupo routines both use them. -/

namespace Sys2Proof.Machine

/-- A write to OPC discards the held next instruction and both fetch-buffer lines (R131). -/
def State.discardFetch (s : State) (c : Nat) : State := s.setCx c { s.cx c with nxt := none, lines := [] }

/-- OPC written by the context or the host (R131). -/
def State.writeOpc (s : State) (c : Nat) (v : Nat) : State := (s.put (F.CTX_OPC_OPC c) v).discardFetch c

/-- Whether a modifier value's MLOG is reserved (R84). -/
def mlogReserved (v : Nat) : Bool := v % 32 == 1 || v % 32 == 2 || decide (26 ≤ v % 32)

/-- A write of modifier n (R84, R145): bits [5:0] are taken; a reserved MLOG leaves the modifier unchanged and is counted. -/
def State.writeM (s : State) (c n v : Nat) : State :=
  if mlogReserved v then s.rej (ctxPage c) else s.put (mRF c n) (v % 64)

/-- A write of CTXCFG (R85): a reserved POLLLIM keeps its field and is counted; under LOCK.CFG a write that would change bits
[8:3] or [31:16] is rejected as a whole and counted once. -/
def State.writeCtxcfg (s : State) (c : Nat) (v : Word) : State :=
  let cur := s.reg (R.CTX_CTXCFG c)
  let bad := fld v 16 16 == 0
  let lim := if bad then fld cur 16 16 else fld v 16 16
  if s.on (F.CTX_LOCK_CFG c) && (fld v 3 6 != fld cur 3 6 || lim != fld cur 16 16) then s.rej (ctxPage c)
  else
    let s := s.setReg (R.CTX_CTXCFG c) (BitVec.ofNat 64 (fld v 0 10 + lim * 2 ^ 16))
    if bad then s.rej (ctxPage c) else s

/-- A DSEL write to special register n (R42); read-only and reserved numbers have no effect. -/
def State.writeSpecial (s : State) (c n : Nat) (v : Word) : State :=
  match n with
  | 1 => s.put (F.CTX_FLAGPRED_FLAGS c) (fld v 0 6)
  | 2 => s.writeOpc c (fld v 0 32)
  | 3 => s.put (F.CTX_LC_LC0 c) (fld v 0 32)
  | 4 => s.put (F.CTX_LC_LC1 c) (fld v 0 32)
  | 5 => s.writeM c 0 (fld v 0 16)
  | 6 => s.writeM c 1 (fld v 0 16)
  | 7 => s.writeM c 2 (fld v 0 16)
  | 8 => s.writeM c 3 (fld v 0 16)
  | 9 => s.put (F.CTX_FLAGPRED_P1_7 c) (fld v 1 7)
  | 10 => s.put (F.CTX_URGVEC_URGVEC c) (fld v 0 14)
  | 11 => s.writeCtxcfg c v
  | _ => s

/-- DSEL's write of the final result (R41). -/
def State.writeDest (s : State) (c dsel dreg : Nat) (v : Word) : State :=
  match dsel with
  | 1 => s.setG c dreg v
  | 2 => s.setG c dreg (setFld (s.g c dreg) 0 32 (fld v 0 32))
  | 3 => s.put (aRF c (dreg % 4)) (fld v 0 32)
  | 4 => s.writeSpecial c dreg v
  | _ => s

/-- A flag written when the unit offers it and FLAGW selects it (R45). One that FLAGW selects and no unit supplies is left as the word's
DSEL wrote it; R45 and R67 do not settle that case: DESIGN CHOICE (log entry 62). -/
def State.writeFlag (s : State) (c i : Nat) (sel : Bool) (v : Option Bool) : State :=
  match sel, v with
  | true, some b => s.put (flagRF c i) (b2n b)
  | _, _ => s

/-- A sticky flag set when its cause occurs (R69). -/
def State.setSticky (s : State) (c i : Nat) (cause : Bool) : State := if cause then s.put (flagRF c i) 1 else s

/-! Bank operations (R48). -/

/-- A bank operation begins at its word's commit (R48): misalignment and out-of-space addresses are counted; a fill empties
the latch; an address outside bank space is answered with zero, and a write there is dropped. -/
def State.memStart (s : State) (c memop addr : Nat) (data : Word) (off : BitVec 14) (strict : Bool) : State :=
  let q := quiPage (quireOf c)
  let size := memSize memop
  let mis := addr % size != 0
  let oor := !inSpace addr
  let s := if mis then (s.inc (F.QUI_SEQERR_MISALIGN (quireOf c))).err q else s
  let s := if oor then (s.inc (F.QUI_SEQERR_OUTRANGE (quireOf c))).err q else s
  let phase := if oor then .delivered 0 0 else .requested
  let op : BankOp := ⟨BitVec.ofNat 4 memop, BitVec.ofNat 32 (addr - addr % size), data, off, strict, phase⟩
  let x := s.cx c
  if memFills memop then s.setCx c { x with bEmpty := true, ops := x.ops ++ [op] }
  else if oor then s
  else s.setCx c { x with ops := x.ops ++ [op] }

/-! Queue operations (R50, R205). -/

/-- Whether a queue operation fills the pop latch (R40, R50). -/
def qopFills (qop : Nat) : Bool := qop == 2 || qop == 3 || qop == 5

/-- A request joins its slice's buffer; one that finds no request of its port before it is at the head at once (R205, R212). -/
def State.present (s : State) (r : QReq) : State :=
  let k := r.queue % 16
  s.setSl k { s.sl k with reqs := (s.sl k).reqs ++ [r] }

/-- The answers that have arrived are delivered in the order of issue (R40): condition 14, and the pop latch for the
operations that fill it. -/
def deliverQ (x : Ctx) : List CtxQop → Ctx
  | ⟨_, qop, some (v, ok)⟩ :: rest =>
    let x := { x with qok := ok, qops := rest }
    let x := if qopFills qop.toNat then { x with qlatch := v, qEmpty := rest.any (fun r => qopFills r.qop.toNat) } else x
    deliverQ x rest
  | _ => x

/-- A queue operation of a context is answered (R40, R50). -/
def State.answerQ (s : State) (c id : Nat) (v : Word) (ok : Bool) : State :=
  let x := s.cx c
  let qops := x.qops.map (fun r => if r.id = id then { r with answer := some (v, ok) } else r)
  s.setCx c (deliverQ { x with qops := qops } qops)

/-- A queue operation of a context leaves its quire (R50, R205). A slice in OFF is an absent endpoint: the operation is
answered as refused (R365, log entry 17). -/
def State.queueStart (s : State) (c qop queue : Nat) (data : Word) (off : BitVec 14) (strict : Bool) : State :=
  let q := quireOf c
  let id := (s.qu q).nextQop
  let s := s.setQu q { s.qu q with nextQop := id + 1 }
  let x := s.cx c
  let s := s.setCx c { x with qops := x.qops ++ [⟨id, BitVec.ofNat 4 qop, none⟩], qEmpty := x.qEmpty || qopFills qop }
  if s.unitKept (domSlice (queue % 16)) then s.present ⟨q, qop, queue, data, .ctx c id, off, strict, s.fclk⟩
  else s.answerQ c id 0 false

/-! Event operations (R51, R101). -/

/-- The index of the valid entry holding an event, among the first `n` (R100). -/
def Ctx.findEt (x : Ctx) (ev : BitVec 12) : Option Nat :=
  (List.range 16).find? (fun i => ((x.etAt i).w || (x.etAt i).u) && (x.etAt i).event == ev)

/-- The lowest-numbered invalid entry (R101). -/
def Ctx.freeEt (x : Ctx) : Option Nat := (List.range 16).find? (fun i => !((x.etAt i).w || (x.etAt i).u))

/-- An entry with W and U as given; both clear make it invalid and discard its pending record (R100). -/
def EtEntry.mask (e : EtEntry) (w u : Bool) : EtEntry := ⟨e.event, w, u, e.p && (w || u)⟩

/-- WADD (`urgent` false) or UADD (R101); `opc` is OPC as the word read it. -/
def State.evAdd (s : State) (c : Nat) (ev : BitVec 12) (urgent : Bool) (off : BitVec 14)
    (opc : Nat := s.get (F.CTX_OPC_OPC c)) : State :=
  let x := s.cx c
  match x.findEt ev with
  | some i => s.setCx c (x.setEt i ((x.etAt i).mask ((x.etAt i).w || !urgent) ((x.etAt i).u || urgent)))
  | none =>
    match x.freeEt with
    | some i => s.setCx c (x.setEt i ⟨ev, !urgent, urgent, false⟩)
    | none =>
      ((s.put (F.CTX_STATUS_EVFULL c) 1).err (ctxPage c)).occur 0x01B c false (ev.setWidth 64) (BitVec.ofNat 64 (b2n urgent))
        (BitVec.ofNat 64 (off.toNat + opc * 2 ^ 32))

/-- WDEL or UDEL (R101). -/
def State.evDel (s : State) (c : Nat) (ev : BitVec 12) (urgent : Bool) : State :=
  let x := s.cx c
  match x.findEt ev with
  | some i => s.setCx c (x.setEt i ((x.etAt i).mask ((x.etAt i).w && urgent) ((x.etAt i).u && !urgent)))
  | none => s

/-- WCLR (R101): W cleared on every entry. -/
def State.evClear (s : State) (c : Nat) : State :=
  let x := s.cx c
  s.setCx c ((List.range 16).foldl (fun x i => x.setEt i ((x.etAt i).mask false (x.etAt i).u)) x)

/-- CONSUME (R101): P cleared on the entry that holds the event. -/
def State.evConsume (s : State) (c : Nat) (ev : BitVec 12) : State :=
  let x := s.cx c
  match x.findEt ev with
  | some i => s.setCx c (x.setEt i { x.etAt i with p := false })
  | none => s

/-- An event operation (R51): `op` is the operation's code 1 to 7, whatever its number came from; one that names an event it
may not does nothing. -/
def State.evApply (s : State) (c op : Nat) (ev : BitVec 12) (off : BitVec 14) (opc : Nat := s.get (F.CTX_OPC_OPC c)) : State :=
  if evRefused op ev then s
  else
    match op with
    | 1 => s.post ev.toNat
    | 2 => s.evAdd c ev false off opc
    | 3 => s.evDel c ev false
    | 4 => s.evClear c
    | 5 => s.evAdd c ev true off opc
    | 6 => s.evDel c ev true
    | 7 => s.evConsume c ev
    | _ => s

/-! Boundary actions (R52, R342, R343). -/

/-- A BLITGO that is abandoned (R343): BLTAB counts, 0xC61 is posted when enabled, and the context meets class 9. -/
def State.blitAbandon (s : State) (c : Nat) (off : BitVec 14) (limit : Nat) (stopped : Bool := false) : State :=
  let s := (s.inc F.BND_BLTAB_BLTAB).postIf ((s.get F.BND_EVEN_EVEN).testBit 33) 0xC61
  if stopped then s else s.timeout9 c off limit

/-- BLITGO (R342, R343): appended to the list of 8, or abandoned at once when BLTEN is 0 or the list is full. -/
def State.blitgo (s : State) (c : Nat) (off : BitVec 14) : State :=
  if s.on F.BND_CTRL_BLTEN ∧ s.blit.waiting.length < 8 ∧ s.unitKept domBnd then
    { s with blit := { s.blit with waiting := s.blit.waiting ++ [⟨c, off, s.get F.BND_BLTTO_BLTTO, false⟩] } }
  else s.blitAbandon c off 0

/-- The timeouts of a stopped context's boundary actions no longer fault it (R90). -/
def State.dropTimeouts (s : State) (c : Nat) : State :=
  { s with blit := { s.blit with waiting := s.blit.waiting.map (fun r => if r.ctx = c then { r with stopped := true } else r) } }

/-- COLREC (R52, R390): an occurrence with SW set and SOURCE c; `opc` is OPC as the word read it (R64). -/
def State.colrec (s : State) (c code : Nat) (a b : Word) (off : BitVec 14) (opc : Nat := s.get (F.CTX_OPC_OPC c)) : State :=
  s.occur code c true a b (BitVec.ofNat 64 (off.toNat + opc * 2 ^ 32))

/-- XOP FAULT with class 2 or 3 (R52, R114): MADDR becomes 0x0000 and OPC the first byte of the current instruction. -/
def State.xopFault (s : State) (c cls : Nat) (a b : Word) (off : BitVec 14) : State :=
  let s := match (s.cx c).cur with
    | some d => s.writeOpc c d.addr.toNat
    | none => s
  s.faultCtx c cls 0 off none a b

/-! Loop counters (R54, R32). -/

/-- A counter decremented, zero staying zero (R54). -/
def State.decLc (s : State) (c n : Nat) : State := s.put (lcRF c n) (s.get (lcRF c n) - 1)

/-- A loop counter one less than it stood in `s0`, before the word (R54, R67). -/
def State.decFrom (s s0 : State) (c n : Nat) : State := s.put (lcRF c n) (s0.get (lcRF c n) - 1)

/-- An LCOP (R54); `s0` is the state before the word, whose counters it decrements (R67). -/
def State.lcop (s s0 : State) (c op : Nat) (b : Word) : State :=
  match op with
  | 1 => s.put (lcRF c 0) (fld b 0 32)
  | 2 => s.put (lcRF c 1) (fld b 0 32)
  | 3 => s.decFrom s0 c 0
  | 4 => s.decFrom s0 c 1
  | _ => s

/-- A divide enters the divider (R77, R78): the results stay until it completes, and condition 26 falls. -/
def State.divStart (s : State) (c : Nat) (signed : Bool) (a b : Word) : State :=
  s.setCx c { s.cx c with div := some ⟨signed, a, b⟩, divReady := false }

end Sys2Proof.Machine
end

