-- ==== Sys2Proof/Machine/Olupo.lean ====
section
/-! DEFINITION. The shipped Olupo routines (R121, R141-R166) and the ROM routines of R24, as macro-steps (log entry 6): each
macro-step is what one or more words of the routine do between two points at which the routine waits or may be left. The
opcode tables of R141 and R142 are here too. -/

namespace Sys2Proof.Machine

/-- Formats of R127. -/
inductive OFormat where
  | n | r | rb | rbb | j8 | j32
  deriving DecidableEq, Repr

/-- The format of an opcode of the primary map (R127, R141). -/
def primaryFormat (op : Nat) : OFormat :=
  if op ≤ 0x1C then .r
  else if 0x38 ≤ op ∧ op ≤ 0x3E then .r
  else if 0x40 ≤ op ∧ op ≤ 0x5F then .r
  else if 0x60 ≤ op ∧ op ≤ 0x6F then .j8
  else if op = 0x70 ∨ op = 0x72 then .j32
  else if op = 0x71 ∨ op = 0x73 then .r
  else if op = 0x75 then .j8
  else if op = 0x82 ∨ op = 0x83 ∨ op = 0x86 then .r
  else if op = 0x84 ∨ op = 0x85 ∨ op = 0x87 then .rb
  else if op = 0xA0 ∨ op = 0xA1 ∨ op = 0xA2 ∨ op = 0xA5 then .r
  else if op = 0xA3 ∨ op = 0xA4 then .rb
  else if op = 0xA8 ∨ op = 0xA9 ∨ (0xAB ≤ op ∧ op ≤ 0xB0) then .r
  else if op = 0xBB then .rbb
  else if op = 0xC0 ∨ op = 0xC1 ∨ op = 0xC5 then .rb
  else if 0xC2 ≤ op ∧ op ≤ 0xC4 then .r
  else if 0xD0 ≤ op ∧ op ≤ 0xD6 then .r
  else if 0xD7 ≤ op ∧ op ≤ 0xD9 then .rbb
  else .n

/-- The format of an opcode of the escape map (R142). -/
def escapeFormat (op : Nat) : OFormat := if op ≤ 2 then .r else .n

/-- Whether a dispatch index names an undefined opcode, a reserved byte or an unused prefix entry (R138, R141, R142). -/
def undefinedIndex (i : Nat) : Bool :=
  if 256 ≤ i then decide (259 ≤ i)
  else
    (decide (0x1D ≤ i ∧ i ≤ 0x1F) || decide (0x76 ≤ i ∧ i ≤ 0x7F) || decide (0x88 ≤ i ∧ i ≤ 0x9F) ||
     i == 0xA6 || i == 0xA7 || decide (0xB1 ≤ i ∧ i ≤ 0xB7) || decide (0xBD ≤ i ∧ i ≤ 0xBF) ||
     decide (0xC6 ≤ i ∧ i ≤ 0xCF) || decide (0xDA ≤ i))

/-- The shipped value of a dispatch entry (R138). -/
def shippedEntry (i : Nat) : BitVec 14 :=
  if i = 511 then 0x48 else if undefinedIndex i then 0x40 else (Config.shippedRoutine i).setWidth 14

/-- A dispatch entry of a quire (R137): the host's, or the shipped one. -/
def State.dispEntry (s : State) (q i : Nat) : BitVec 14 := tget (fun k => shippedEntry (k % 512)) s.disp (q * 512 + i)

/-- The state with a dispatch entry written. -/
def State.setDisp (s : State) (q i : Nat) (v : BitVec 14) : State :=
  { s with disp := tset (fun k => shippedEntry (k % 512)) (q * 512 + i) v s.disp }

/-- Whether an entry stands at its shipped value, so that its index runs the shipped routine. -/
def State.dispShipped (s : State) (q i : Nat) : Bool := (s.disp.all (fun e => e.1 != q * 512 + i))

/-! The decode word's fields (R135). -/
def dOp (w : Word) : Nat := fld w 0 8
def dEsc (w : Word) : Bool := bit w 8
def dRep (w : Word) : Bool := bit w 9
def dWid (w : Word) : Nat := fld w 10 2
def dAmo (w : Word) : Bool := bit w 12
def dOver (w : Word) : Bool := bit w 18
def dBad (w : Word) : Bool := bit w 19
def dLen (w : Word) : Nat := fld w 20 4
def dRd (w : Word) : Nat := fld w 24 3
def dRs (w : Word) : Nat := fld w 27 3
def dSrc (w : Word) : Nat := fld w 30 2
def dT1 (w : Word) : Nat := fld w 32 8
def dT2 (w : Word) : Nat := fld w 40 8

/-- The operation width in bits, and the element size in bytes (R123, R146). -/
def dWidth (w : Word) : Nat := 64 / 2 ^ dWid w
def dSize (w : Word) : Nat := 8 / 2 ^ dWid w

/-- The dispatch index of a decoded instruction (R125, R130, R137). -/
def dispIndex (w : Word) : Nat := if dOver w then 511 else if dBad w then 510 else if dEsc w then 256 + dOp w else dOp w

/-- Whether the front end performs the instruction itself: CALL, CALLR, RET of the primary map (R149). -/
def isCall (w : Word) : Bool := !dEsc w && !dOver w && !dBad w && (dOp w == 0x72 || dOp w == 0x73)
def isRet (w : Word) : Bool := !dEsc w && !dOver w && !dBad w && dOp w == 0x74

/-- What a macro-step leaves: the routine that follows, a wait or a park with what follows it, or a fault already taken. -/
inductive RNext where
  | to (r : Routine)
  | wait (r : Routine)
  | park (r : Option Routine) (maddr : BitVec 14)
  | entry (a : BitVec 14)
  | faulted
  deriving DecidableEq, Repr

/-- What a macro-step asks of the context before it can issue (R60): the bank read latch, the queue answers, the divide. -/
structure RNeeds where
  bank : Bool
  queue : Bool
  div : Bool
  deriving DecidableEq, Repr

/-- Needs of macro-step `phase` of the shipped routine of a dispatch index; `dir` is QMOVE's direction. -/
def rNeeds (op phase dir : Nat) : RNeeds :=
  if 256 ≤ op then ⟨false, false, false⟩
  else if phase = 0 then ⟨false, false, decide (0xD3 ≤ op ∧ op ≤ 0xD6)⟩
  else if 0x40 ≤ op ∧ op ≤ 0x4F then ⟨true, false, false⟩
  else if 0xA0 ≤ op ∧ op ≤ 0xA4 then ⟨false, true, false⟩
  else if 0xD3 ≤ op ∧ op ≤ 0xD6 then ⟨false, false, true⟩
  else if op = 0x80 ∨ op = 0x81 then ⟨phase == 2, false, false⟩
  else if op = 0x86 then ⟨phase == 2, false, phase == 8 || phase == 9⟩
  else if op = 0x84 then ⟨phase == 2 || phase == 3, false, false⟩
  else if op = 0x85 then ⟨phase == 2, false, false⟩
  else if op = 0x87 then (if dir = 0 then ⟨false, phase == 2, false⟩ else ⟨phase == 2, phase == 3, false⟩)
  else ⟨false, false, false⟩

/-- Whether a macro-step carries POLL (R136, R158, R161): DISP words, the WAIT words, the words that complete an element. -/
def rPolls (op phase : Nat) : Bool :=
  (op == 0xA9 && phase == 2) || op == 0xAA || (decide (0x80 ≤ op ∧ op ≤ 0x87) && phase == 4)

/-- The words after a routine's last effect: `n` without effect, then its DISP word. -/
def restOf (n : Nat) : Routine := if n = 0 then .start else .pad n

/-- The words without effect that the shipped routine of a dispatch index issues between its last effect and its DISP word (R167);
a branch that is taken has one. -/
def oluPad (op : Nat) : Nat :=
  if 256 ≤ op then 1
  else if op ≤ 0x1C then 1
  else if 0x38 ≤ op ∧ op ≤ 0x5F then 1
  else if op = 0xA3 ∨ op = 0xA4 then 2
  else if op = 0xB0 ∨ op = 0xC2 ∨ op = 0xC3 then 1
  else if op = 0xC0 ∨ op = 0xC4 ∨ op = 0xC5 then 2
  else if op = 0xC1 then 3
  else if 0xD0 ≤ op ∧ op ≤ 0xD6 then 1
  else if 0xD7 ≤ op ∧ op ≤ 0xD9 then 4
  else 0

/-- V[rd] zero-extended from the operation width, written (R143). -/
def State.writeV (s : State) (c n v : Nat) : State := s.setG c n (BitVec.ofNat 64 v)

/-- A predicate written; P0 ignores it (R121). -/
def State.writeP (s : State) (c n : Nat) (v : Bool) : State := if n = 0 then s else s.put ⟨R.CTX_FLAGPRED c, 8 + n, 1⟩ (b2n v)

/-- The Olupo ALU operations (R143, R144) at width `n`: result and whether OV's cause occurred. -/
def oluAlu (op n v src : Nat) (immShift : Bool) (rawSrc : Word) : Nat × Bool :=
  let viaAlu := fun k => let o := aluAt k n v src false false; (o.res, o.v == some true)
  let one := fun k => let o := aluAt k n src 0 false false; (o.res, o.v == some true)
  let amount := if immShift then fld rawSrc 0 6 else fld rawSrc 0 8
  match op with
  | 0x00 => (src, false)
  | 0x01 => viaAlu 2
  | 0x02 => viaAlu 4
  | 0x03 => viaAlu 6
  | 0x04 => viaAlu 8
  | 0x05 => viaAlu 9
  | 0x06 => viaAlu 10
  | 0x07 => viaAlu 11
  | 0x08 => viaAlu 12
  | 0x09 => viaAlu 13
  | 0x0A => viaAlu 17
  | 0x0B => viaAlu 18
  | 0x0C => viaAlu 19
  | 0x0D => viaAlu 20
  | 0x0E => viaAlu 22
  | 0x0F => viaAlu 23
  | 0x10 => viaAlu 24
  | 0x11 => viaAlu 25
  | 0x12 => ((shiftAt n 0 v amount).1, false)
  | 0x13 => ((shiftAt n 1 v amount).1, false)
  | 0x14 => ((shiftAt n 2 v amount).1, false)
  | 0x15 => ((shiftAt n 3 v amount).1, false)
  | 0x16 => one 7
  | 0x17 => one 14
  | 0x18 => one 21
  | 0x19 => (clz n src, false)
  | 0x1A => (popBits n src, false)
  | 0x1B => (revBits n src, false)
  | _ => (bswap n src, false)

/-- CMP's relation (R153) at width `n`; none for the reserved ones. -/
def oluRel (rel n v src : Nat) : Option Bool :=
  match rel with
  | 0 => some (v == src)
  | 1 => some (v != src)
  | 2 => some (decide (sval n v < sval n src))
  | 3 => some (decide (sval n src ≤ sval n v))
  | 4 => some (decide (sval n v ≤ sval n src))
  | 5 => some (decide (sval n src < sval n v))
  | 6 => some (decide (v < src))
  | 7 => some (decide (src ≤ v))
  | 8 => some (decide (v ≤ src))
  | 9 => some (decide (src < v))
  | 10 => some (v &&& src == 0)
  | 11 => some (v &&& src != 0)
  | _ => none

/-- The MEMOP a load of `size` bytes uses (R48, R146). -/
def loadOp (size : Nat) (sx : Bool) : Nat :=
  match size with | 8 => 1 | 4 => if sx then 5 else 2 | 2 => if sx then 6 else 3 | _ => if sx then 7 else 4

/-- The MEMOP a store of `size` bytes uses (R48, R146). -/
def storeOp (size : Nat) : Nat := match size with | 8 => 8 | 4 => 9 | 2 => 10 | _ => 11

/-- The AMOD of a load or store mode (R146). -/
def oluAmod (mode : Nat) (amo : Bool) : Nat :=
  match mode with | 0 => 0 | 1 => if amo then 2 else 1 | 2 => if amo then 5 else 4 | _ => 6

/-- A cursor stepped by an element, modulo its modifier (R160). -/
def State.stepCursor (s : State) (c n size : Nat) (down : Bool) : State :=
  s.put (aRF c n) (modStep (s.get (aRF c n)) (if down then 2 ^ 32 - size else size) (s.get (mRF c n)))

/-- A class 2 fault for a reserved field value (R129): as an undefined opcode does. -/
def State.oluReserved (s : State) (c : Nat) (d : Decoded) (off : BitVec 14) : State × RNext :=
  (s.xopFault c 2 (d.bytes.extractLsb' 0 64) ((d.bytes.extractLsb' 64 48).setWidth 64) off, .faulted)

/-- An event operation of an Olupo instruction; one that R51 does not allow is counted as there (R158). -/
def State.oluEvent (s : State) (c op : Nat) (ev : BitVec 12) (off : BitVec 14) : State :=
  if evRefused op ev then
    let q := quireOf c
    ((s.inc (F.QUI_RSVCNT_COUNT q)).put (F.QUI_RSVCNT_LAST q) off.toNat).err (quiPage q)
  else s.evApply c op ev off

/-- A repeat's end (R161): OPC advances past the instruction. -/
def State.oluEnd (s : State) (c : Nat) (d : Decoded) (block : Bool) : State :=
  if block then s.writeOpc c ((d.addr.toNat + dLen d.word) % 2 ^ 32) else s

/-- RECTMOVE's next element (R163, R164): source and destination addresses for the count in LC0. -/
def State.rectAddrs (s : State) (c : Nat) (geo : Word) (size : Nat) : Nat × Nat :=
  let w := fld geo 0 16
  let total := w * fld geo 16 16
  let a0 := s.get (aRF c 0)
  let a1 := s.get (aRF c 1)
  let lc := s.get (lcRF c 0)
  let i := if a0 < a1 then lc - 1 else total - lc
  ((a0 + i / w * fld geo 32 16 + i % w * size) % 2 ^ 32, (a1 + i / w * fld geo 48 16 + i % w * size) % 2 ^ 32)

/-- Whether the next element of RECTMOVE begins a row in the order of copying (R164), for the count in LC0. -/
def State.rectRowStart (s : State) (c : Nat) (geo : Word) : Bool :=
  let w := fld geo 0 16
  let lc := s.get (lcRF c 0)
  if s.get (aRF c 0) < s.get (aRF c 1) then lc % w == 0 else (w * fld geo 16 16 - lc) % w == 0

/-- The words without effect of one element of a string or move instruction (R167), before the word that completes it. -/
def elementPad (op : Nat) (pop : Bool) : Nat :=
  if op = 0x82 ∨ op = 0x83 ∨ op = 0x85 then 2 else if op = 0x87 ∧ pop then 2 else 1

/-- The string and move instructions (R160-R164), word by word (R167). Phase 0 tests the count; 5 are the other words before the
first element, 7 those that begin a row, 8 and 9 the divide that locates an element of a rectangle taken up again; 1 reads or pops;
2 and 3 wait, compare and write; 6 are words without effect; 4 completes the element (the POLL word). `x` keeps a value between
words, `y` counts words without effect. -/
def State.oluString (s : State) (c op phase : Nat) (x y : Word) (d : Decoded) (off : BitVec 14) : State × RNext :=
  let dw := d.word
  let rect := op == 0x86
  let block := dRep dw || rect
  let qm := op == 0x87
  let size := if qm then 8 else dSize dw
  let n := size * 8
  let pop := qm && dRd dw % 2 == 0
  let strict := s.opt c 6
  let strictQ := s.opt c 8
  let src := (s.cx c).olatch
  let geo := s.g c (dRd dw)
  let total := fld geo 0 16 * fld geo 16 16
  let lc := s.get (lcRF c 0)
  let pd := dT1 dw % 8
  let addrs := if rect then s.rectAddrs c geo size else (s.get (aRF c 0), s.get (aRF c 1))
  let go := fun (p : Nat) (v w : Word) => RNext.to (.olupo op p v w)
  let first := if op == 0x82 || op == 0x83 then 2 else 1
  let complete := fun (s : State) => (s, go 6 0 (BitVec.ofNat 64 (elementPad op pop)))
  -- an early stop, with the words without effect that follow it
  let stop := fun (s : State) (k : Nat) => (s.oluEnd c d block, RNext.to (restOf k))
  -- the result predicate of an instruction that ends without an early stop
  let result := fun (s : State) => if op == 0x84 || op == 0x85 then s.writeP c pd false else if qm then s.writeP c pd true else s
  match phase with
  | 0 =>
    let again := rect && decide (lc < total)
    let s := if rect && total != 0 && decide (total < lc) then s.put (lcRF c 0) total else s
    let none := if rect then total == 0 || lc == 0 else dRep dw && lc == 0
    if none then (result s, .to (restOf (if again then 10 else if rect then 6 else 1)))
    else
      (if block then s.writeOpc c d.addr.toNat else s, if again then go 8 0 0 else go 5 0 (if rect then 6 else 1))
  | 5 => (s, if 1 < y.toNat then go 5 0 (y - 1) else if rect then go 7 0 3 else go first 0 0)
  | 7 => (s, if 1 < y.toNat then go 7 0 (y - 1) else go first 0 0)
  | 8 =>
    let i := if s.get (aRF c 0) < s.get (aRF c 1) then lc - 1 else total - lc
    (s.divStart c false (BitVec.ofNat 64 i) (BitVec.ofNat 64 (fld geo 0 16)), go 9 0 0)
  | 9 => (s, go 5 0 8)
  | 6 => (s, if 1 < y.toNat then go 6 0 (y - 1) else go 4 0 0)
  | 1 =>
    if pop then (s.queueStart c 5 (fld src 0 14) 0 off strictQ, go 2 0 0)
    else (s.memStart c (loadOp size false) addrs.1 0 off strict, go 2 0 0)
  | 2 =>
    if op == 0x84 then (s.memStart c (loadOp size false) addrs.2 0 off strict, go 3 (s.cx c).blatch 0)
    else if op == 0x85 then
      if (s.cx c).blatch.toNat % 2 ^ n == src.toNat % 2 ^ n then stop (s.writeP c pd true) 5 else complete s
    else if pop then
      if (s.cx c).qok then complete (s.memStart c 8 addrs.2 (s.cx c).qlatch off strict) else stop (s.writeP c pd false) 3
    else if qm then (s.queueStart c 4 (fld src 0 14) (s.cx c).blatch off strictQ, go 3 0 0)
    else complete (s.memStart c (storeOp size) addrs.2 (if op == 0x82 || op == 0x83 then src else (s.cx c).blatch) off strict)
  | 3 =>
    if op == 0x84 then
      if x != (s.cx c).blatch then stop (s.writeP c pd true) 4 else complete s
    else if (s.cx c).qok then complete s else stop (s.writeP c pd false) 2
  | _ =>
    let down := op == 0x81 || op == 0x83
    let mv0 := !rect && !(op == 0x82 || op == 0x83) && !pop
    let mv1 := !rect && op != 0x85 && !(qm && !pop)
    let s := if mv0 then s.stepCursor c 0 size down else s
    let s := if mv1 then s.stepCursor c 1 size down else s
    let s := if block then s.put (lcRF c 0) (lc - 1) else s
    if block && decide (1 < lc) then (s, if rect && s.rectRowStart c geo then go 7 0 3 else go first 0 0)
    else ((result s).oluEnd c d block, .to .start)

/-- The shipped routine of dispatch index `idx` past its guard (R141-R159), macro-step by macro-step; `d` is the current instruction,
whose fields it reads (R139). Choices (log entry 63): it changes none of G9 to G14 and no N, Z, C or V, which R122 lets it change;
CMP and ADDA set no OV; a narrow divide leaves in QUOT and REM the 64-bit results of its extended operands. A divide whose zero
divisor faulted reads its divisor register again when it is resumed (R155). -/
def State.oluOp (s : State) (c idx phase : Nat) (x y : Word) (d : Decoded) (off : BitVec 14) : State × RNext :=
  let dw := d.word
  let op := idx % 256
  let n := dWidth dw
  let rd := dRd dw
  let rs := dRs dw
  let src := (s.cx c).olatch
  let vrd := s.g c rd
  let vn := vrd.toNat % 2 ^ n
  let sn := src.toNat % 2 ^ n
  let pd := dT1 dw % 8
  let ok := RNext.to (restOf (oluPad idx))
  let opc := s.get (F.CTX_OPC_OPC c)
  let jump := fun (t : Nat) => (s.writeOpc c (t % 2 ^ 32), RNext.to (restOf 1))
  let q := fld src 0 14
  let strictQ := s.opt c 8
  let next := fun (p : Nat) => RNext.to (.olupo idx p x y)
  if 256 ≤ idx then
    match op with
    | 0 => (s.setG c rd (s.special c 0), ok)
    | 1 => (s.setG c rd (s.special c 12), ok)
    | _ => (s.writeV c rd (s.ostk c).length, ok)
  else if op ≤ 0x1C then
    let r := oluAlu op n vn sn (dSrc dw != 0) src
    ((s.writeV c rd r.1).setSticky c 5 r.2, ok)
  else if op ≤ 0x27 then
    let o := aluAt 26 n ((s.g c (op - 0x20)).toNat % 2 ^ n) 0 false false
    ((s.writeV c (op - 0x20) o.res).setSticky c 5 (o.v == some true), ok)
  else if op ≤ 0x2F then
    let o := aluAt 27 n ((s.g c (op - 0x28)).toNat % 2 ^ n) 0 false false
    ((s.writeV c (op - 0x28) o.res).setSticky c 5 (o.v == some true), ok)
  else if op ≤ 0x37 then (s.setG c (op - 0x30) 0, ok)
  else if op = 0x38 then (if 4 ≤ rs then s.oluReserved c d off else (s.writeV c rd (s.get (aRF c rs)), ok))
  else if op = 0x39 then (if 4 ≤ rd then s.oluReserved c d off else (s.put (aRF c rd) (fld src 0 32), ok))
  else if op = 0x3A then (if 4 ≤ rd then s.oluReserved c d off else (s.put (aRF c rd) (s.get (aRF c rd) + fld src 0 32), ok))
  else if op = 0x3B then (if 2 ≤ rs then s.oluReserved c d off else (s.writeV c rd (s.get (lcRF c rs)), ok))
  else if op = 0x3C then (if 2 ≤ rd then s.oluReserved c d off else (s.put (lcRF c rd) (fld src 0 32), ok))
  else if op = 0x3D then (if 4 ≤ rs then s.oluReserved c d off else (s.writeV c rd (s.get (mRF c rs)), ok))
  else if op = 0x3E then (if 4 ≤ rd then s.oluReserved c d off else (s.writeM c rd (fld src 0 6), ok))
  else if op ≤ 0x5F then
    let an := op / 4 % 4
    let size := dSize dw
    let a := s.get (aRF c an)
    let moved := fun (s : State) => s.put (aRF c an) (amodAddr (oluAmod (op % 4) (dAmo dw)) a size (s.get (mRF c an)) 0)
    if op ≤ 0x4F then
      if phase = 0 then (moved (s.memStart c (loadOp size (bit dw 27)) a 0 off (s.opt c 6)), next 1)
      else (s.setG c rd (s.cx c).blatch, ok)
    else (moved (s.memStart c (storeOp size) a vrd off (s.opt c 6)), ok)
  else if op ≤ 0x67 then (if s.pred c (op - 0x60) then jump (opc + fld src 0 32) else (s, ok))
  else if op ≤ 0x6F then (if s.pred c (op - 0x68) then (s, ok) else jump (opc + fld src 0 32))
  else if op = 0x70 then jump (opc + fld src 0 32)
  else if op = 0x71 then jump (fld src 0 32)
  else if op = 0x75 then
    let lc := s.get (lcRF c 1)
    let s' := s.decLc c 1
    if 1 < lc then (s'.writeOpc c ((opc + fld src 0 32) % 2 ^ 32), .to (restOf 1)) else (s', ok)
  else if 0x80 ≤ op ∧ op ≤ 0x87 then s.oluString c op phase x y d off
  else if op = 0xA0 then (if phase = 0 then (s.queueStart c 1 q vrd off strictQ, next 1) else (s, ok))
  else if op = 0xA1 then (if phase = 0 then (s.queueStart c 2 q 0 off strictQ, next 1) else (s.setG c rd (s.cx c).qlatch, ok))
  else if op = 0xA2 then (if phase = 0 then (s.queueStart c 3 q 0 off strictQ, next 1) else (s.setG c rd (s.cx c).qlatch, ok))
  else if op = 0xA3 then
    (if phase = 0 then (s.queueStart c 4 q vrd off strictQ, next 1) else (s.writeP c pd (s.cx c).qok, ok))
  else if op = 0xA4 then
    (if phase = 0 then (s.queueStart c 5 q 0 off strictQ, next 1)
     else ((s.setG c rd (s.cx c).qlatch).writeP c pd (s.cx c).qok, ok))
  else if op = 0xA5 then (s.queueStart c 6 q 0 off strictQ, ok)
  else if op = 0xA8 then (s.oluEvent c 1 (src.extractLsb' 0 12) off, ok)
  else if op = 0xA9 then
    (match phase with
     | 0 => (s.oluEvent c 2 (src.extractLsb' 0 12) off, next 1)
     | 1 => (s, next 2)
     | 2 => (s, .wait (.olupo idx 3 x y))
     | _ => (s.oluEvent c 7 (src.extractLsb' 0 12) off, ok))
  else if op = 0xAA then (s, .wait .start)
  else if op = 0xAB then (s.oluEvent c 2 (src.extractLsb' 0 12) off, ok)
  else if op = 0xAC then (s.oluEvent c 3 (src.extractLsb' 0 12) off, ok)
  else if op = 0xAD then (s.oluEvent c 5 (src.extractLsb' 0 12) off, ok)
  else if op = 0xAE then (s.oluEvent c 6 (src.extractLsb' 0 12) off, ok)
  else if op = 0xAF then (s.oluEvent c 7 (src.extractLsb' 0 12) off, ok)
  else if op = 0xB0 then (s.setG c rd s.beamPos, ok)
  else if op = 0xBB then (s.colrec c (dT1 dw + dT2 dw % 4 * 256) vrd src off, ok)
  else if op = 0xBC then (s, .park (some .start) off)
  else if op = 0xC0 then
    (match oluRel (dT1 dw / 16) n vn sn with
     | some b => (s.writeP c pd b, ok)
     | none => s.oluReserved c d off)
  else if op = 0xC1 then
    let tt := dT1 dw / 8 % 16
    (s.writeP c rd (tt.testBit (2 * b2n (s.pred c rs) + b2n (s.pred c pd))), ok)
  else if op = 0xC2 then (s.writeV c rd (s.preds c), ok)
  else if op = 0xC3 then (s.put (F.CTX_FLAGPRED_P1_7 c) (fld src 1 7), ok)
  else if op = 0xC4 then
    let i := if rs % 2 = 1 then 5 else 4
    let v := s.on (flagRF c i)
    let s' := s.writeP c rd v
    (if rs / 2 % 2 = 1 then s'.put (flagRF c i) 0 else s', ok)
  else if op = 0xC5 then (s.writeP c rd (bit src (dT1 dw % 64) != (dT1 dw).testBit 6), ok)
  else if op = 0xD0 then (s.writeV c rd (vn * sn % 2 ^ n), ok)
  else if op = 0xD1 then (s.writeV c rd (((sval n vn * sval n sn) / 2 ^ n) % 2 ^ n).toNat, ok)
  else if op = 0xD2 then (s.writeV c rd (vn * sn / 2 ^ n), ok)
  else if op ≤ 0xD6 then
    let signed := op == 0xD3 || op == 0xD5
    let a := if signed then sext n vn else BitVec.ofNat 64 vn
    let sn := if phase = 0 ∧ x ≠ 0 ∧ dSrc dw = 0 then (s.g c rs).toNat % 2 ^ n else sn
    let b := if signed then sext n sn else BitVec.ofNat 64 sn
    if phase = 0 then
      let s := s.setSticky c 4 (sn == 0)
      if sn = 0 ∧ s.opt c 5 then (s.faultCtx c 5 off off (some (.olupo idx 0 1 0)) a 0, .faulted)
      else
        let s := s.setSticky c 5 (signed && vn == 2 ^ (n - 1) && sn == 2 ^ n - 1)
        (s.divStart c signed a b, .to (.olupo idx 1 a b))
    else
      let r := divideAt n signed (x.toNat % 2 ^ n) (y.toNat % 2 ^ n)
      (s.writeV c rd (if op ≤ 0xD4 then r.1 else r.2), ok)
  else if op ≤ 0xD9 then
    let p := dT1 dw % 64
    let w := if dT2 dw % 64 = 0 then 64 else dT2 dw % 64
    (s.writeV c rd (if op = 0xD7 then extu src.toNat p w else if op = 0xD8 then exts src.toNat p w else insertField vrd.toNat src.toNat p w), ok)
  else (s, ok)

/-- The image-boot routine at 0x0080 (R375): it arms 0x240 and 0x280, signals 0x400, waits, and then starts the boot code or
records the halt and parks. -/
def State.bootStep (s : State) (c phase : Nat) (off : BitVec 14) : State × RNext :=
  match phase with
  | 0 => (((s.evAdd c 0x240 false off).evAdd c 0x280 false off), .to (.boot 1))
  | 1 => (s.post 0x400, .to (.boot 2))
  | 2 => (s, .wait (.boot 3))
  | _ =>
    if (s.cx c).entries.any (fun e => e.event == 0x240 && e.p) then (s.writeOpc c 0, .entry 0)
    else
      let f := s.free
      let g := f.2.free
      let t := g.2.free
      (t.2.colrec c 0x084 f.1 g.1 off, .park none (t.1.setWidth 14))

/-- The boundary action of a DISP word that carries one (R52, R167). -/
def State.dispAct (s : State) (c xop : Nat) (off : BitVec 14) : State :=
  match xop with
  | 1 => s.raise c
  | 2 => s.pressTrigger 1 2
  | 3 => s.blitgo c off
  | _ => s

/-- Whether the guard of the current instruction passes, true with none (R134, condition 34). -/
def State.curPasses (s : State) (c : Nat) : Bool :=
  match (s.cx c).cur with | some d => s.guardPasses c d.word | none => true

/-- A macro-step of a shipped routine, at its commit; `pass` is whether its effects take place (R56). An instruction whose guard fails
has no effect and causes no fault (R166), an undefined or over-long code among them. The traps record the opcode bytes of the current
instruction; reached with none, before a context's first DISP, they record zeros: DESIGN CHOICE, the spec names no bytes there
(log entry 63). -/
def State.routineStep (s : State) (c : Nat) (r : Routine) (off : BitVec 14) (pass : Bool) : State × RNext :=
  match r with
  | .start => (s, .to .start)
  | .act xop => (if pass then s.dispAct c xop off else s, .to .start)
  | .pad k => (s, .to (restOf (k - 1)))
  | .boot phase => s.bootStep c phase off
  | .trap cls =>
    match (s.cx c).cur with
    | some d =>
      if s.guardPasses c d.word then
        (s.xopFault c cls (d.bytes.extractLsb' 0 64) ((d.bytes.extractLsb' 64 48).setWidth 64) off, .faulted)
      else (s, .to .start)
    | none => (s.xopFault c cls 0 0 off, .faulted)
  | .olupo idx phase x y =>
    match (s.cx c).cur with
    | some d => if phase = 0 ∧ !s.guardPasses c d.word then (s, .to .start) else s.oluOp c idx phase x y d off
    | none => (s, .to .start)

/-- Whether a macro-step is a DISP word. -/
def Routine.disp (r : Routine) : Bool :=
  match r with
  | .start => true
  | .act _ => true
  | _ => false

/-- Instructions whose routine is its DISP word alone when the guard fails, or the branch is not taken (R167). -/
def shortWhenIdle (op : Nat) : Bool := decide (0x60 ≤ op ∧ op ≤ 0x71) || op == 0xAA || op == 0xBC

/-- Whether a BT or BF of a dispatch index is not taken as the predicates stand. -/
def State.fallsThrough (s : State) (c op : Nat) : Bool :=
  (decide (0x60 ≤ op ∧ op ≤ 0x67) && !s.pred c (op - 0x60)) || (decide (0x68 ≤ op ∧ op ≤ 0x6F) && s.pred c (op - 0x68))

/-- The word of a routine that would issue now: a routine with nothing to do is its DISP word (R167). -/
def State.liveRoutine (s : State) (c : Nat) (r : Routine) : Routine :=
  match r with
  | .olupo idx 0 x y =>
    if shortWhenIdle idx && (!s.curPasses c || s.fallsThrough c idx) then .start else .olupo idx 0 x y
  | r => r

/-- Whether a macro-step is a WAIT or PARK word. -/
def State.routineWaits (s : State) (c : Nat) (r : Routine) : Bool :=
  match r with
  | .boot p => p == 2
  | .olupo idx p _ _ => (idx == 0xA9 && p == 2) || (s.curPasses c && (idx == 0xAA || idx == 0xBC))
  | _ => false

/-- Whether a macro-step carries POLL (R136). -/
def Routine.polls (r : Routine) : Bool :=
  match r with
  | .olupo idx p _ _ => rPolls idx p
  | r => r.disp

/-- The cycle length of a macro-step (R167): a multiply's first word takes 2. -/
def State.routineCl (s : State) (c : Nat) (r : Routine) : Nat :=
  match r with
  | .olupo idx 0 _ _ => if decide (0xD0 ≤ idx ∧ idx ≤ 0xD2) && s.curPasses c then 2 else 1
  | _ => 1

/-- What a macro-step waits for (R60). -/
def State.routineBlocked (s : State) (c : Nat) (r : Routine) : Bool :=
  let x := s.cx c
  match r with
  | .olupo idx p _ _ =>
    let n := rNeeds idx p (match x.cur with | some d => dRd d.word % 2 | none => 0)
    (n.bank && x.bEmpty) || (n.queue && !x.qops.isEmpty) || (n.div && x.div.isSome)
  | r => r.disp && x.nxt.isNone

/-- The routine a dispatch index runs while its entry is shipped. CALL, CALLR, RET and NOP are a DISP word alone; DOORBELL, PRESS and
BLITGO are one with their action (R149, R167). -/
def indexRoutine (i : Nat) : Routine :=
  if i = 511 then .trap 3
  else if undefinedIndex i then .trap 2
  else if i = 0x3F ∨ i = 0x72 ∨ i = 0x73 ∨ i = 0x74 then .start
  else if 0xB8 ≤ i ∧ i ≤ 0xBA then .act (i - 0xB7)
  else .olupo i 0 0 0

/-- The defined dispatch index whose shipped routine begins at a ROM address, the lowest of several. -/
def romIndex (a : BitVec 14) : Option Nat :=
  (List.range 512).find? (fun i => !undefinedIndex i && shippedEntry i == a)

/-- The routine that begins at a ROM address (R24, R138, R139), none for any other ROM or RAM address. -/
def entryRoutine (a : BitVec 14) : Option Routine :=
  if 0x1000 ≤ a.toNat then none
  else if a = 0 then some .start
  else if a = 0x40 then some (.trap 2)
  else if a = 0x48 then some (.trap 3)
  else if a = 0x80 then some (.boot 0)
  else (romIndex a).map indexRoutine

end Sys2Proof.Machine
end

