-- ==== Sys2Proof/Machine/Canon.lean ====
section
/-! DEFINITION. The canonical form of a state: every sparse table lists its keys in rising order, and none at its default, so that equal
states are equal data. -/

namespace Sys2Proof.Machine

/-- Memory's canonical form: addresses strictly rising, and no byte equal to what an unlisted address reads as, zero. -/
def Memory.wf (m : List Host.Cell) : Bool := twf (fun _ => (0 : Byte)) m

/-- The tables of registers and memories, each against the form it is canonical in. -/
def State.memWf (s : State) : Bool :=
  [twf resetWord s.regs, twf (fun _ => none) s.held, Memory.wf s.mem, Memory.wf s.chk, twf (fun _ => (0 : Word)) s.snap,
    twf (fun k => shippedEntry (k % 512)) s.disp].all id

/-- The tables of the quires, the queues and the banks. -/
def State.coreWf (s : State) : Bool :=
  [twf (fun _ => (0 : Stored)) s.cst, twf (fun _ => Ctx.reset) s.ctx, twf (fun _ => Quire.reset) s.qui, twf (fun _ => Slice.reset) s.qsl,
    twf (fun _ => (0 : BitVec 72)) s.qdErr, twf (fun _ => none) s.qdHigh, twf (fun _ => Bank.reset) s.bnk].all id

/-- The tables of the timers, the boundary, the interrupt controller, the colophon and the domains. -/
def State.edgeWf (s : State) : Bool :=
  [twf (fun _ => Timer.reset) s.tmr, twf (fun _ => Keeper.reset) s.keep, twf (fun _ => 0) s.cvtrig, twf (fun _ => LpPort.reset) s.lp,
    twf (fun _ => SoundPort.reset) s.snd, twf (fun _ => none) s.int.offer, twf (fun _ => 0) s.int.srot,
    twf (fun _ => (0 : BitVec 256)) s.col.ring, twf (fun _ => 16) s.col.tokens, twf (fun _ => false) s.col.sat,
    twf (fun _ => 0) s.pwr.cur, twf (fun _ => none) s.pwr.moves, twf (fun _ => false) s.pwr.kept].all id

/-- The tables of the pins, the engines, the channels and the stitches. -/
def State.ioWf (s : State) : Bool :=
  [twf (fun _ => Pin.reset) s.pin, twf (fun _ => Engine.reset) s.pio, twf (fun _ => Dma.reset) s.dma, twf (fun _ => 7) s.dmaTurn,
    twf (fun _ => (0 : BitVec 32)) s.resp.gpio, twf (fun _ => Stitch.reset) s.sti, twf (fun _ => 4) s.rho.routes].all id

/-- Every sparse table of the state is canonical. -/
def State.wf (s : State) : Bool := s.memWf && s.coreWf && s.edgeWf && s.ioWf

end Sys2Proof.Machine
end

