-- ==== Sys2Proof/Machine/Bch.lean ====
section
/-! DEFINITION. The code of a stored microword (R21, R22). -/

namespace Sys2Proof.Machine

/-! The code of R21. A stored word is the polynomial with check bit j at x^j and data bit i at x^(i + 16). -/

/-- The generator g(x) = m1(x) m3(x), of degree 16, for m1 = x^8 + x^4 + x^3 + x^2 + 1 and m3 = x^8 + x^6 + x^5 + x^4 + x^2 + x + 1,
the minimal polynomial of the cube of m1's root (R21). -/
def bchGen : Nat := 0x11D ^^^ (0x11D <<< 1) ^^^ (0x11D <<< 2) ^^^ (0x11D <<< 4) ^^^ (0x11D <<< 5) ^^^ (0x11D <<< 6) ^^^ (0x11D <<< 8)

/-- The remainder of a polynomial's terms below x^(16 + k) modulo g, highest first. -/
def bchRem : Nat → Nat → Nat
  | 0, v => v
  | k + 1, v => bchRem k (if v.testBit (16 + k) then v ^^^ (bchGen <<< k) else v)

/-- A stored word as a polynomial (R21). -/
def storedPoly (w : Stored) : Nat := fld w 192 16 + fld w 0 192 * 2 ^ 16

/-- The stored word of a polynomial. -/
def polyStored (p : Nat) : Stored := BitVec.ofNat 208 (p / 2 ^ 16 % 2 ^ 192 + p % 2 ^ 16 * 2 ^ 192)

/-- The syndrome of a stored word: the remainder modulo g, zero for a codeword (DEDUCED: the spec names no other form). -/
def bchSyndrome (w : Stored) : Nat := bchRem 192 (storedPoly w)

/-- A microword with its check bits (R21). -/
def bchEncode (w : Micro) : Stored := polyStored (w.toNat * 2 ^ 16 + bchRem 192 (w.toNat * 2 ^ 16))

/-- The remainders of x^0, x^1, ... modulo g: the syndromes of single errors. -/
def bchColumns : Nat → Nat → List Nat
  | 0, _ => []
  | k + 1, r => r :: bchColumns k (if (2 * r).testBit 16 then (2 * r) ^^^ bchGen else 2 * r)

/-- The pair of positions, from position `i` on, whose columns give a syndrome. -/
def bchPair (s : Nat) : Nat → List Nat → Option (Nat × Nat)
  | _, [] => none
  | i, r :: rs =>
    match rs.idxOf? (s ^^^ r) with
    | some j => some (i, i + 1 + j)
    | none => bchPair s (i + 1) rs

/-- The decoding of a stored word (R22): the corrected word and whether it was corrected, or none for an uncorrectable pattern. -/
def bchDecode (w : Stored) : Option (Stored × Bool) :=
  let s := bchSyndrome w
  if s = 0 then some (w, false)
  else
    let cols := bchColumns 208 1
    match cols.idxOf? s with
    | some i => some (polyStored (storedPoly w ^^^ 2 ^ i), true)
    | none =>
      match bchPair s 0 cols with
      | some (i, j) => some (polyStored (storedPoly w ^^^ 2 ^ i ^^^ 2 ^ j), true)
      | none => none

end Sys2Proof.Machine
end

