-- ==== Sys2Proof/Machine/Issue.lean ====
section
/-! DEFINITION. The issue of a word (R58): what holds a context in STALL (R60), operands and condition and guard, the next
address and the micro return stack (R28-R36), the safe point (R57, R108), poll starvation (R112), the faults taken before
issue (R114), and the dispatch of an Olupo instruction (R134, R149, R150). -/

namespace Sys2Proof.Machine

/-- The address a context's word register is read from next (R58): the next address of the word in flight, or MADDR. -/
def Ctx.fetchAddr (x : Ctx) : BitVec 14 :=
  match x.inflight with
  | some i => i.next
  | none => x.maddr

/-- The stored word at a micro address of a quire (R20, R21): the ROM's words carry their check bits as the RAM's do. -/
def State.storeWord (s : State) (q a : Nat) : Stored :=
  if a < 0x1000 then bchEncode (Config.romWord a) else tget (fun _ => (0 : Stored)) s.cst (q * 16384 + a)

/-- The state with a RAM word of a control store written. -/
def State.setStore (s : State) (q a : Nat) (w : Stored) : State :=
  { s with cst := tset (fun _ => (0 : Stored)) (q * 16384 + a) w s.cst }

/-- Whether a folio of a quire is being loaded or reloaded, so that words in it are not read (R22, R379, R382). -/
def State.folioBusy (s : State) (q : Nat) (a : BitVec 14) : Bool :=
  let f := a.toNat / 512
  let on := fun (l : Option StoreLoad) => match l with | some l => l.folio == f | none => false
  on (s.qu q).load || on (s.qu q).reload

/-- Whether a word held for issue is a DISP word (R131). -/
def WordReg.isDisp (w : WordReg) : Bool :=
  match w with
  | .good w => mSeq w == 7
  | .shipped r => r.disp
  | _ => false

/-- The word a word register would issue now (R167): a routine with nothing to do issues its DISP word. -/
def State.liveWord (s : State) (c : Nat) (w : WordReg) : WordReg :=
  match w with
  | .shipped r => .shipped (s.liveRoutine c r)
  | w => w

/-- A cause of R60 that holds a given word back: an empty latch it selects, a condition that waits, a divide it needs, a
decode it needs. -/
def State.wordBlocked (s : State) (c : Nat) (w : WordReg) : Bool :=
  let x := s.cx c
  match w with
  | .empty => true
  | .bad _ _ => false
  | .shipped r => s.routineBlocked c (s.liveRoutine c r)
  | .good w =>
    (mBsel w == 2 && x.bEmpty) || (mBsel w == 3 && x.qEmpty) ||
    (mUsesCond w && ((mCond w == 14 && !x.qops.isEmpty) ||
      ((mCond w == 15 || mCond w == 16 || mCond w == 27) && !x.ops.isEmpty))) ||
    (decide (6 ≤ mMduop w ∧ mMduop w ≤ 9) && x.div.isSome) ||
    (mSeq w == 7 && x.nxt.isNone)

/-- Whether any cause of R60 holds a context back. -/
def State.stalled (s : State) (c : Nat) : Bool :=
  let x := s.cx c
  s.wordBlocked c x.word || s.folioBusy (quireOf c) x.maddr || x.hold.isSome

/-- A decode is requested for a context (R131): at the end of its quire's order, once. -/
def State.requestDecode (s : State) (c : Nat) : State :=
  let q := quireOf c
  if c ∈ (s.qu q).dq then s else s.setQu q { s.qu q with dq := (s.qu q).dq ++ [c] }

/-- The level condition of R131: the word register holds a DISP word and no next instruction is held. -/
def State.wantDecode (s : State) (c : Nat) : State :=
  let x := s.cx c
  if (s.liveWord c x.word).isDisp && x.nxt.isNone && x.st != .idle then s.requestDecode c else s

/-- A context whose causes of R60 have cleared becomes READY, or is faulted with class 1 on an uncorrectable word (R22, R87);
otherwise it is in STALL. -/
def State.settle (s : State) (c : Nat) : State :=
  let x := s.cx c
  if s.stalled c then s.setCx c { x with st := .stall }
  else
    match x.word with
    | .bad syn rel => s.faultCtx c 1 x.maddr x.maddr x.routine (syn.setWidth 64) (BitVec.ofNat 64 (b2n rel))
    | _ => s.setCx c { x with st := .ready }

/-! The Olupo return stack (R150, R151). -/

/-- The Olupo return stack holding the given entries from the top. -/
def State.setOstk (s : State) (c : Nat) (l : List Nat) : State :=
  let e := fun (i : Nat) => match l[i]? with | some a => a % 2 ^ 25 + 2 ^ 31 | none => 0
  (List.range 8).foldl (fun s k => s.setReg (R.CTX_OSTK c k) (BitVec.ofNat 64 (e (2 * k) + e (2 * k + 1) * 2 ^ 32))) s

/-- The record of an Olupo stack event (R150): the spec states no arguments. -/
def State.ostkEvent (s : State) (c code : Nat) : State := (s.err (ctxPage c)).occurFree code c

/-- CALL and CALLR push the next instruction's address; a push onto a full stack discards the oldest and is counted (R149, R150). -/
def State.olupoPush (s : State) (c : Nat) (ret : Nat) : State :=
  let l := s.ostk c
  let s := if 16 ≤ l.length then (s.inc (F.QUI_FECNT_OSWRAP (quireOf c))).ostkEvent c 0x01C else s
  s.setOstk c ((ret % 2 ^ 25 :: l).take 16)

/-- RET pops the top entry into OPC; on an empty stack it continues and is counted (R149, R150). -/
def State.olupoPop (s : State) (c : Nat) : State :=
  match s.ostk c with
  | a :: rest => (s.setOstk c rest).writeOpc c a
  | [] => (s.inc (F.QUI_FECNT_OSUNDER (quireOf c))).ostkEvent c 0x01D

/-- The operand latch of a dispatched instruction (R134). -/
def State.latchFor (s : State) (c : Nat) (d : Decoded) : Word :=
  let dw := d.word
  let fmt := if dOver dw || dBad dw then OFormat.n else if dEsc dw then escapeFormat (dOp dw) else primaryFormat (dOp dw)
  match fmt with
  | .n => 0
  | .j8 => d.imm
  | .j32 => d.imm
  | _ => if dSrc dw = 0 then s.g c (dRs dw) else d.imm

/-- What the front end does when a DISP word issues (R131, R134, R149): OPC past the instruction, the operand latch, the
current instruction, CALL, CALLR and RET performed, BADFETCH counted, and the next decode requested. -/
def State.dispatch (s : State) (c : Nat) (d : Decoded) : State :=
  let nextOpc := (d.addr.toNat + dLen d.word) % 2 ^ 32
  let ol := s.latchFor c d
  let s := s.put (F.CTX_OPC_OPC c) nextOpc
  let s := s.setCx c { s.cx c with cur := some d, nxt := none, olatch := ol }
  let s := if dBad d.word then s.inc (F.QUI_FECNT_BADFETCH (quireOf c)) else s
  let pass := s.guardPasses c d.word
  let s :=
    if isCall d.word && pass then
      (s.olupoPush c nextOpc).writeOpc c ((if dOp d.word = 0x72 then nextOpc + fld ol 0 32 else fld ol 0 32) % 2 ^ 32)
    else if isRet d.word && pass then s.olupoPop c
    else s
  s.requestDecode c

/-! Issue. -/

/-- What a word does to the sequencing of its context, decided in its issue cycle (R28): the next address, the routine there,
what it pushes, whether it pops, and whether it is a RET on an empty stack. -/
structure SeqPlan where
  next : BitVec 14
  cont : Option Routine
  pushes : List MEntry
  popped : Bool
  underflow : Bool
  deriving DecidableEq, Repr

/-- The sequencing of a microword with effective condition `eff` (R28-R33, R36). -/
def State.seqPlan (s : State) (c : Nat) (addr : BitVec 14) (w : Micro) (a : Word) (eff : Bool) : SeqPlan :=
  let inc := addr + 1
  let go := fun (t : BitVec 14) => (⟨t, none, [], false, false⟩ : SeqPlan)
  let usable := !condReserved (mCond w)
  match mSeq w with
  | 1 => go (mTarget w)
  | 2 => go (if eff && usable then mTarget w else inc)
  | 3 => go (if !eff && usable then mTarget w else inc)
  | 4 => { go (mTarget w) with pushes := [⟨inc, false, none⟩] }
  | 5 => if eff && usable then { go (mTarget w) with pushes := [⟨inc, false, none⟩] } else go inc
  | 6 =>
    if eff && usable then
      match (s.cx c).mstk with
      | e :: _ => { go e.addr with cont := e.cont, popped := true }
      | [] => { go inc with underflow := true }
    else go inc
  | 7 =>
    match (s.cx c).nxt with
    | some d =>
      let i := dispIndex d.word
      let q := quireOf c
      { go (s.dispEntry q i) with
        cont := if s.dispShipped q i then some (indexRoutine i) else entryRoutine (s.dispEntry q i) }
    | none => go inc
  | 8 =>
    if 1 ≤ mCond w ∧ mCond w ≤ 14 then go (mTarget w + BitVec.ofNat 14 (extu a.toNat (mShamt w) (mCond w))) else go inc
  | 9 =>
    let lc := s.get (lcRF c (if mCpol w then 1 else 0))
    go (if 1 < lc then mTarget w else inc)
  | 10 => go (if eff && usable then mTarget w else inc)
  | 11 => go (mTarget w)
  | _ => go inc

/-- Whether a word is a WAIT or PARK word, for the diversion of R57; a WAIT word with a reserved COND is a CONT word (R29). -/
def State.waitsOrParks (s : State) (c : Nat) (w : WordReg) : Bool :=
  match w with
  | .good w => (mSeq w == 10 && !condReserved (mCond w)) || mSeq w == 11
  | .shipped r => s.routineWaits c r
  | _ => false

/-- Whether a word carries POLL. -/
def WordReg.polls (w : WordReg) : Bool :=
  match w with
  | .good w => mPoll w
  | .shipped r => r.polls
  | _ => false

/-- Poll starvation without the strict option (R112): counted once until a safe point, recorded, and the doorbell raised. -/
def State.starve (s : State) (c : Nat) (addr : BitVec 14) : State :=
  let x := s.cx c
  if x.starved then s
  else
    let s := s.setCx c { x with starved := true }
    let s := ((s.inc (F.CTX_STARVCNT_STARVCNT c)).err (ctxPage c)).put (F.CTX_STATUS_STARVED c) 1
    let s := s.occur 0x01A c false (BitVec.ofNat 64 x.pollcnt) (BitVec.ofNat 64 (s.get (F.CTX_CTXCFG_POLLLIM c))) (addr.setWidth 64)
    s.raiseIf (s.on (F.CTX_EVEN_SDOOR c)) c

/-- POLLCNT after a word that issues (R111). -/
def pollNext (x : Ctx) (poll : Bool) : Ctx :=
  if poll then { x with pollcnt := 0, starved := false } else { x with pollcnt := Nat.min (x.pollcnt + 1) 65535 }

/-- A context whose word enters the datapath (R58, R111). -/
def Ctx.enter (x : Ctx) (poll : Bool) (i : Issued) : Ctx := { pollNext x poll with st := .run, word := .empty, inflight := some i }

/-- The address pushed by the first push that would not fit a stack of `depth` entries (R30, R114). -/
def firstOverflow (depth : Nat) (pushes : List MEntry) : Option (BitVec 14) :=
  if depth + pushes.length ≤ 4 then none else (pushes[4 - depth]?).map (·.addr)

/-- Whether a microword starts a divide by zero that its context traps (R80). -/
def State.divTraps (s : State) (c : Nat) (w : Micro) (b : Word) : Bool :=
  s.guardOk c w && (mMduop w == 6 || mMduop w == 7) && b == 0 && s.opt c 5

/-- Whether the instruction a DISP word would dispatch overflows the Olupo stack under OSTRAP (R150). -/
def State.olupoTraps (s : State) (c : Nat) (w : WordReg) : Bool :=
  match w.isDisp, (s.cx c).nxt with
  | true, some d => isCall d.word && s.guardPasses c d.word && s.opt c 4 && decide (16 ≤ (s.ostk c).length)
  | _, _ => false

/-- The microword a word register holds; no microword for a shipped routine. -/
def WordReg.micro (w : WordReg) : Micro := match w with | .good m => m | _ => 0

/-- The effective condition of a word (R29): its condition against CPOL. -/
def State.effCond (s : State) (c : Nat) (m : Micro) : Bool :=
  s.condition c m (s.g c (mAreg m)) (s.operandB c m) (mCond m) != mCpol m

/-- The sequencing a word asks for, before any diversion (R28, R138). -/
def State.ownPlan (s : State) (c : Nat) (w : WordReg) : SeqPlan :=
  let addr := (s.cx c).maddr
  match w with
  | .good m => s.seqPlan c addr m (s.g c (mAreg m)) (s.effCond c m)
  | .shipped r =>
    if r.disp then s.seqPlan c addr (setFld (0 : Micro) 188 4 7) (s.g c 0) (s.effCond c 0) else ⟨addr, some r, [], false, false⟩
  | _ => ⟨addr, none, [], false, false⟩

/-- The safe point (R57, R108): a POLL word with an urgent event pending diverts. -/
def State.diverts (s : State) (c : Nat) (w : WordReg) : Bool := w.polls && (s.cx c).urgentMet && !(s.cx c).urg

/-- A WAIT or PARK word that diverts does nothing and runs again (R57). -/
def State.skips (s : State) (c : Nat) (w : WordReg) : Bool := s.diverts c w && s.waitsOrParks c w

/-- The sequencing of a word, its diversion aside (R57). -/
def State.plan (s : State) (c : Nat) (w : WordReg) : SeqPlan :=
  if s.skips c w then ⟨(s.cx c).maddr, (s.cx c).routine, [], false, false⟩ else s.ownPlan c w

/-- What a word pushes on the micro return stack: its own return, then the diversion's (R30, R108). -/
def State.pushesOf (s : State) (c : Nat) (w : WordReg) : List MEntry :=
  let p := s.plan c w
  p.pushes ++ (if s.diverts c w then [⟨p.next, true, p.cont⟩] else [])

/-- A word's guard (R56): that of a DISP word with an action is the current instruction's (R166). -/
def State.wordGuard (s : State) (c : Nat) (w : WordReg) : Bool :=
  match w with
  | .shipped (.act _) => s.curPasses c
  | w => s.guardOk c w.micro

/-- A word from its issue on (R58): everything read and decided in the issue cycle. -/
def State.issued (s : State) (c : Nat) (w : WordReg) : Issued :=
  let m := w.micro
  let d := s.diverts c w
  let p := s.plan c w
  { addr := (s.cx c).maddr, word := w, a := s.g c (mAreg m), b := s.operandB c m
    eff := s.effCond c m && !condReserved (mCond m)
    psetVal := if 2 ≤ mPset m ∧ !condReserved (mCond m) then some (s.effCond c m != (mPset m % 2 == 1)) else none
    guardOk := s.wordGuard c w && !s.skips c w
    next := if d then BitVec.ofNat 14 (s.get (F.CTX_URGVEC_URGVEC c)) else p.next
    cont := if d then none else p.cont
    pushes := s.pushesOf c w, popped := p.popped, underflow := p.underflow
    divert := if d then some (s.cx c).lowestU else none
    handover := s.skips c w }

/-- A word counted once for its reserved encodings and refused operations, with its address (R26). -/
def State.countReserved (s : State) (q : Nat) (addr : BitVec 14) : State :=
  ((s.inc (F.QUI_RSVCNT_COUNT q)).put (F.QUI_RSVCNT_LAST q) addr.toNat).err (quiPage q)

/-- Whether a word that issues now reaches the poll limit (R112). -/
def State.starving (s : State) (c : Nat) (w : WordReg) : Bool :=
  !w.polls && (s.cx c).pollcnt == s.get (F.CTX_CTXCFG_POLLLIM c)

/-- The return address of the first push that MSTRAP does not let a word make (R30, R114). -/
def State.overflows (s : State) (c : Nat) (w : WordReg) : Option (BitVec 14) :=
  let n := (s.cx c).mstk.length
  if s.opt c 3 then firstOverflow (if (s.plan c w).popped then n - 1 else n) (s.pushesOf c w) else none

/-- A divide whose zero divisor is trapped (R80, R114): the word issues, so POLLCNT, starvation and R26 count it (log entry 58); of its
effects only DZ commits. -/
def State.divFault (s : State) (c : Nat) (w : WordReg) : State :=
  let x := s.cx c
  let m := w.micro
  let b := s.operandB c m
  let a := s.g c (mAreg m)
  let s := if s.starving c w then s.starve c x.maddr else s
  let s := s.setCx c (pollNext (s.cx c) (w.polls))
  let s := if encReserved m || nameRefused m b then s.countReserved (quireOf c) x.maddr else s
  (s.setSticky c 4 true).faultCtx c 5 x.maddr x.maddr x.routine a 0

/-- The fault a context takes in place of a word's issue, if any (R80, R112, R114-R116, R150): class 9 that waited, 7, 4, 5. -/
def State.issueFault (s : State) (c : Nat) (w : WordReg) : Option State :=
  let x := s.cx c
  match x.pend9 with
  | some (off, lim) => some (s.faultCtx c 9 x.maddr off x.routine 3 (BitVec.ofNat 64 lim))
  | none =>
    if s.starving c w && s.opt c 7 then
      some (s.faultCtx c 7 x.maddr x.maddr x.routine (BitVec.ofNat 64 x.pollcnt) (BitVec.ofNat 64 (s.get (F.CTX_CTXCFG_POLLLIM c))))
    else
      match s.overflows c w with
      | some ret => some (s.faultCtx c 4 x.maddr x.maddr x.routine 0 (ret.setWidth 64))
      | none =>
        if s.olupoTraps c w && !s.skips c w then
          x.nxt.map (fun d => s.faultCtx c 4 x.maddr x.maddr x.routine 1
            (BitVec.ofNat 64 ((d.addr.toNat + dLen d.word) % 2 ^ 32 % 2 ^ 25)))
        else if s.divTraps c w.micro (s.operandB c w.micro) && !s.skips c w then some (s.divFault c w)
        else none

/-- A word enters the datapath (R58, R111, R112); the front end dispatches with a DISP word (R131). -/
def State.startWord (s : State) (c : Nat) (w : WordReg) : State :=
  let x := s.cx c
  let i := s.issued c w
  let s := if s.starving c w then s.starve c x.maddr else s
  let s := s.setCx c ((s.cx c).enter (w.polls) i)
  match w.isDisp, x.nxt with
  | true, some d => s.dispatch c d
  | _, _ => s

/-- A word of context `c` issues (MICROWORD_ISSUE, R58). The context must be able to issue it. -/
def State.issueWord (s : State) (c : Nat) (w : WordReg) : State :=
  let w := s.liveWord c w
  (s.issueFault c w).getD (s.startWord c w)

end Sys2Proof.Machine
end

