-- ==== Sys2Proof/Machine/Commit.lean ====
section
/-! DEFINITION. The commit of a word (R58): its effects with the precedences of R67, its sequencing, the wait and park
transitions (R34, R35, R87), the holds of R115, a pending STOP (R90); and what a satisfied or urgent event does to a waiting
context (R104, R110). -/

namespace Sys2Proof.Machine

/-- The result of a word and the flags its ALU and shifter offer (R62, R74, R75). -/
def State.wordResult (s : State) (c : Nat) (w : Micro) (a b : Word) : Word × DpOut :=
  let base := if mDsel w = 1 then (s.g c (mDreg w)).toNat else 0
  let dp := datapath (mAluop w) (mShop w) (mShamt w) (iWidth w) base a b (s.on (flagRF c 1)) (s.on (flagRF c 0))
  let x := s.cx c
  let r :=
    match mMduop w with
    | 1 => (product 1 a b).1
    | 2 => (product 2 a b).2
    | 3 => (product 3 a b).2
    | 4 => (product 4 a b).1
    | 5 => (product 5 a b).1
    | 8 => x.quot
    | 9 => x.rem
    | 10 => x.hiprod
    | _ => BitVec.ofNat 64 dp.res
  (r, dp)

/-- The destination and the flags of a word (R41, R45, R67): `v` is the V offered. A word with CMP or TST writes no destination, the
result of a multiply or read operation beside it included: R43 suppresses the DSEL write, R46 gives the result no other place;
DESIGN CHOICE (log entry 62). -/
def State.writeResult (s : State) (c dsel dreg flagw : Nat) (r : Word) (dp : DpOut) (v : Option Bool) : State :=
  let s := if dp.writes then s.writeDest c dsel dreg r else s
  let s := s.writeFlag c 3 (flagw.testBit 3) dp.n
  let s := s.writeFlag c 2 (flagw.testBit 2) dp.z
  let s := s.writeFlag c 1 (flagw.testBit 1) dp.c
  s.writeFlag c 0 (flagw.testBit 0) v

/-- The register, flag and predicate writes of a word (R41, R45, R55, R67). -/
def State.wordWrites (s0 : State) (c : Nat) (w : Micro) (i : Issued) : State :=
  let s := s0
  let r := s.wordResult c w i.a i.b
  let dp := r.2
  let divOv := (mMduop w == 6 || mMduop w == 7) && divOverflows (mMduop w == 6) i.a i.b
  let divZ := (mMduop w == 6 || mMduop w == 7) && i.b == 0
  let aold := s.get (aRF c (mMemar w))
  let anew := amodAddr (mAmod w) aold (memSize (mMemop w)) (s.get (mRF c (mMemar w))) (iStep w)
  let s := if 1 ≤ mAmod w ∧ mAmod w ≤ 6 then s.put (aRF c (mMemar w)) anew else s
  let s := s.writeResult c (mDsel w) (mDreg w) (mFlagw w) r.1 dp (if divOv then some true else dp.v)
  let s := s.setSticky c 5 (divOv || dp.v == some true)
  let s := s.setSticky c 4 divZ
  let s := match i.psetVal with
    | some v => s.writeP c (mPset w / 2) v
    | none => s
  let s := if lcConflict w then s else s.lcop s0 c (mLcop w) i.b
  let s := if mMduop w = 4 ∨ mMduop w = 5 then s.setCx c { s.cx c with hiprod := (product (mMduop w) i.a i.b).2 } else s
  if mMduop w = 6 ∨ mMduop w = 7 then s.divStart c (mMduop w == 6) i.a i.b else s

/-- The requests and actions of a word (R48, R50, R51, R52); `s0` is the state before the word. -/
def State.wordActions (s : State) (s0 : State) (c : Nat) (w : Micro) (i : Issued) : State :=
  let s := if memActs (mMemop w) then
      s.memStart c (mMemop w) (s0.get (aRF c (mMemar w))) i.a i.addr (s0.opt c 6)
    else s
  let s := if 1 ≤ mQop w ∧ mQop w ≤ 6 then
      s.queueStart c (mQop w) (if mQsrc w then fld i.b 0 14 else iQueue w) i.a i.addr (s0.opt c 8)
    else s
  let s := s.evApply c (evBase (mEvop w)) (evNumber w i.b) i.addr (s0.get (F.CTX_OPC_OPC c))
  match mXop w with
  | 1 => s.raise c
  | 2 => s.pressTrigger 1 2
  | 3 => s.blitgo c i.addr
  | 4 => s.colrec c (iCode w) i.a i.b i.addr (s0.get (F.CTX_OPC_OPC c))
  | 5 => if iClass w = 2 ∨ iClass w = 3 then s.xopFault c (iClass w) i.a i.b i.addr else s
  | _ => s

/-- The effects of a microword (R56: none when its guard fails, or when it diverted as a WAIT or PARK), and the count of R26, which
is made at each execution, gated off or diverted ones too (log entry 58). -/
def State.wordEffects (s : State) (c : Nat) (w : Micro) (i : Issued) : State :=
  let s1 := if encReserved w || nameRefused w i.b || (i.guardOk && opRefused w i.b) then s.countReserved (quireOf c) i.addr else s
  if i.guardOk then (s1.wordWrites c w i).wordActions s c w i else s1

/-- The registers the front end writes at a DISP word's commit (R134): G8 and G15, over the word's own write. `s0` is the
state before the word. -/
def State.dispCommit (s s0 : State) (c : Nat) : State :=
  match (s0.cx c).cur with
  | some d =>
    let dw := d.word
    let fmt := if dOver dw || dBad dw then OFormat.n else if dEsc dw then escapeFormat (dOp dw) else primaryFormat (dOp dw)
    let g8 := match fmt with
      | .n => (0 : Word)
      | .j8 => 0
      | .j32 => 0
      | _ => s0.g c (dRd dw)
    (s.setG c 8 g8).setG c 15 dw
  | none => s

/-- A push on the micro return stack under the wrap rule (R30, R108). -/
def State.pushMicro (s : State) (c : Nat) (e : MEntry) : State :=
  let x := s.cx c
  if x.mstk.length < 4 then s.setCx c { x with mstk := e :: x.mstk }
  else
    let lost := (x.mstk.drop 3).any (·.urgent)
    let s := s.setCx c { x with mstk := e :: x.mstk.take 3, urg := x.urg && !lost }
    (s.inc (F.QUI_SEQERR_MSWRAP (quireOf c))).err (quiPage (quireOf c))

/-- A taken RET's pop: URG clears with the marked entry (R108). -/
def State.popMicro (s : State) (c : Nat) : State :=
  let x := s.cx c
  match x.mstk with
  | e :: rest => s.setCx c { x with mstk := rest, urg := x.urg && !e.urgent }
  | [] => s

/-- The stack work of a committed word (R30, R31, R108). At the diversion EVLAST is the lowest pending urgent event; when the word itself
consumed the last one, it is the one the diversion was decided on (log entry 59). -/
def State.stackWork (s : State) (c : Nat) (i : Issued) (pushes : List MEntry) : State :=
  let s := if i.popped then s.popMicro c else s
  let s := if i.underflow then (s.inc (F.QUI_SEQERR_MSUNDER (quireOf c))).err (quiPage (quireOf c)) else s
  let s := pushes.foldl (fun s e => s.pushMicro c e) s
  match i.divert with
  | some ev =>
    let x := s.cx c
    s.setCx c { x with urg := true, evlast := if x.urgentMet then x.lowestU else ev }
  | none => s

/-- A context in WAIT diverts on an urgent event (R110): as if its WAIT word had issued with the event pending, so MSTRAP and URGVEC
are those from before that word (R57, R67). -/
def State.urgentWake (s : State) (c : Nat) : State :=
  let x := s.cx c
  if x.waitTrap && decide (4 ≤ x.mstk.length) then s.faultCtx c 4 x.ownAddr x.ownAddr x.ownRt 0 (x.ownAddr.setWidth 64)
  else
    let ev := x.lowestU
    let s := s.pushMicro c ⟨x.ownAddr, true, x.ownRt⟩
    let s := s.setCx c { s.cx c with urg := true, evlast := ev, word := .empty, routine := none, maddr := x.waitVec }
    s.settle c

/-- A context whose WAIT word has taken effect (R34, R87, R110): ready at once if the mask is satisfied, diverted if an urgent
event is pending and the word carried POLL, otherwise in WAIT. The word's own WMODE decides (R67). -/
def State.enterWait (s : State) (c : Nat) : State :=
  let x := s.cx c
  if x.waitMet x.waitAll then s.settle c
  else if x.waitPoll && x.urgentMet && !x.urg then s.urgentWake c
  else s.setCx c { x with st := .wait }

/-- What follows a committed word, or a released hold (R87, R115). -/
def State.followOn (s : State) (c : Nat) (f : Follow) : State :=
  match f with
  | .cont => s.settle c
  | .wait => s.enterWait c
  | .park => s.setCx c { s.cx c with st := .parked }

/-- A class 9 fault that waited for the commit is taken at once outside READY (R115, R116). -/
def State.take9 (s : State) (c : Nat) : State :=
  let x := s.cx c
  match x.pend9 with
  | some (off, lim) => if x.st = .ready ∨ x.st = .run then s else (s.setCx c { x with pend9 := none }).timeout9 c off lim
  | none => s

/-- The hold of R115 for a word whose effects are done: operations still unanswered that the strict options cover. -/
def holdOf (x0 x : Ctx) (strictOwn strictQ : Bool) (f : Follow) : Option Hold :=
  let reqs := fun (x : Ctx) => (x.ops.filter (fun o => o.phase == .requested)).length
  let qs := fun (x : Ctx) => (x.qops.filter (fun o => o.answer.isNone)).length
  let b := strictOwn && decide (reqs x0 < reqs x)
  let q := strictQ && decide (qs x0 < qs x)
  if b || q then some ⟨b, q, f⟩ else none

/-- EVLAST at the commit of a WAIT word whose mask is already satisfied (R104): the lowest of the pending W entries. -/
def State.noteMet (s : State) (c : Nat) (f : Follow) : State :=
  let x := s.cx c
  if f = .wait ∧ x.waitMet x.waitAll then s.setCx c { x with evlast := x.lowestW } else s

/-- A context goes to IDLE (R90). -/
def State.goIdle (s : State) (c : Nat) : State :=
  (s.setCx c { s.cx c with st := .idle, word := .empty, stopPend := false, hold := none, pend9 := none }).dropTimeouts c

/-- The end of a commit: the context goes to IDLE under a pending STOP, to STALL under a hold, or on. -/
def State.endCommit (s : State) (c : Nat) (hold : Option Hold) (f : Follow) : State :=
  let s := s.noteMet c f
  let x := s.cx c
  if x.stopPend then s.goIdle c
  else
    match hold with
    | some h => ((s.setCx c { x with st := .stall, hold := some h }).take9 c).wantDecode c
    | none => ((s.followOn c f).take9 c).wantDecode c

/-- LOOP's decrement (R32) of the counter as it stood before the word (R67), done whatever the guard (R56). -/
def State.loopDec (s s0 : State) (c : Nat) (w : Micro) : State :=
  if mSeq w = 9 then s.decFrom s0 c (if mCpol w then 1 else 0) else s

/-- A context whose word leaves the datapath: what governs it while it waits at that word is kept, options and URGVEC as they stood
before the word in `s0` (R57, R67). -/
def State.leaving (s0 : State) (c : Nat) (x : Ctx) (i : Issued) (rt : Option Routine) (poll : Bool) : Ctx :=
  { x with
    inflight := none, ownAddr := i.addr, ownRt := rt, waitPoll := poll
    waitAll := s0.opt c 9, waitTrap := s0.opt c 3, waitVec := BitVec.ofNat 14 (s0.get (F.CTX_URGVEC_URGVEC c)) }

/-- The context goes on at a micro address, where a routine may stand (R58). -/
def Ctx.goOn (x : Ctx) (next : BitVec 14) (cont : Option Routine) : Ctx := { x with maddr := next, routine := cont }

/-- A word that faulted its context has committed: a STOP that came while it ran takes the context on to IDLE (R87, R90). -/
def State.afterFault (s s0 : State) (c : Nat) : State := if (s0.cx c).stopPend then s.goIdle c else s

/-- What follows a microword (R34, R35, R57). -/
def Issued.follow (i : Issued) (w : Micro) : Follow :=
  if mSeq w == 10 && i.eff && !i.handover then .wait else if mSeq w == 11 && !i.handover then .park else .cont

/-- The commit of a microword. -/
def State.commitMicro (s0 : State) (c : Nat) (w : Micro) (i : Issued) : State :=
  let s := s0.wordEffects c w i
  let s := if mSeq w = 7 then s.dispCommit s0 c else s
  if (s.cx c).st = .faulted then s.afterFault s0 c
  else
    let s := s.loopDec s0 c w
    let s := s.stackWork c i i.pushes
    let f := i.follow w
    let hold := holdOf (s0.cx c) (s.cx c) (s0.opt c 6) (s0.opt c 8) f
    (s.setCx c ((s0.leaving c (s.cx c) i none (mPoll w)).goOn i.next i.cont)).endCommit c hold f

/-- Where a macro-step leaves its context: the routine and the address that follow, and whether it waits or parks. -/
def RNext.after (n : RNext) (r : Routine) (i : Issued) : Option Routine × BitVec 14 × Follow :=
  match n with
  | .to r' => (if r.disp then i.cont else some r', i.next, .cont)
  | .wait r' => (some r', i.next, .wait)
  | .park r' a => (r', a, .park)
  | .entry a => (none, a, .cont)
  | .faulted => (none, i.next, .cont)

/-- The commit of a macro-step of a shipped routine. -/
def State.commitShipped (s0 : State) (c : Nat) (r : Routine) (i : Issued) : State :=
  let step := if i.handover then (s0, RNext.to r) else s0.routineStep c r i.addr i.guardOk
  let s := if r.disp then step.1.dispCommit s0 c else step.1
  if (s.cx c).st = .faulted then s.afterFault s0 c
  else
    let a := step.2.after r i
    let f := a.2.2
    let pushes := if i.divert.isSome && !i.handover && !r.disp then i.pushes.map (fun e => { e with cont := a.1 }) else i.pushes
    let s := s.stackWork c i pushes
    let hold := holdOf (s0.cx c) (s.cx c) (s0.opt c 6) (s0.opt c 8) f
    let x := s0.leaving c (s.cx c) i (some r) r.polls
    (s.setCx c (if i.divert.isSome then x.goOn i.next none else x.goOn a.2.1 a.1)).endCommit c hold f

/-- A context's word in flight commits (MICROWORD_COMMIT, R58); with none in flight nothing commits. -/
def State.commitWord (s : State) (c : Nat) : State :=
  match (s.cx c).inflight with
  | none => s
  | some i =>
    match i.word with
    | .good w => s.commitMicro c w i
    | .shipped r => s.commitShipped c r i
    | _ => s.commitMicro c 0 i

/-- Whether a context can issue a given word now: started and not waiting, no word in flight, no cause of R60 (R60, R87). -/
def State.canIssue (s : State) (c : Nat) (w : WordReg) : Bool :=
  let x := s.cx c
  (x.st == .ready || x.st == .stall) && x.inflight.isNone && !s.wordBlocked c w && !s.folioBusy (quireOf c) x.maddr &&
  x.hold.isNone && s.unitOn (domQuire (quireOf c))

/-- A word carrying one operation issues and commits at once, standing in the context's word register (log entry 3); a context
that cannot issue it is left as it is. -/
def State.runMicro (s : State) (c : Nat) (w : Micro) : State :=
  if s.canIssue c (.good w) then (s.issueWord c (.good w)).commitWord c else s

end Sys2Proof.Machine
end

