-- ==== Sys2Proof/Machine/Banks.lean ====
section
/-! DEFINITION. Bank memory (chapter 06): the error-correcting code (R178-R180), the two ports (R170-R177), ownership and
handover (R181-R184), column repair (R185), the march engine (R186-R189) and error injection (R191). Commands come in the
order in which their events take effect; simultaneous accesses come in the order in which R176 resolves them (log entry 18). -/

namespace Sys2Proof.Machine

/-- A bank's typed state. -/
def State.bk (s : State) (n : Nat) : Bank := tget (fun _ => Bank.reset) s.bnk n

/-- The state with a bank's typed state replaced. -/
def State.setBk (s : State) (n : Nat) (x : Bank) : State := { s with bnk := tset (fun _ => Bank.reset) n x s.bnk }

/-- A bank's register page (R190). -/
def bankPage (n : Nat) : Nat := 0x100 + n

/-! The code of R178. -/

/-- The columns of data bits 0 to 31: the values of weight 3 in increasing order. -/
def secColumnsLow : List Nat :=
  [0x07, 0x0B, 0x0D, 0x0E, 0x13, 0x15, 0x16, 0x19, 0x1A, 0x1C, 0x23, 0x25, 0x26, 0x29, 0x2A, 0x2C,
   0x31, 0x32, 0x34, 0x38, 0x43, 0x45, 0x46, 0x49, 0x4A, 0x4C, 0x51, 0x52, 0x54, 0x58, 0x61, 0x62]

/-- The columns of data bits 32 to 63: the rest of weight 3, then eight of weight 5. -/
def secColumnsHigh : List Nat :=
  [0x64, 0x68, 0x70, 0x83, 0x85, 0x86, 0x89, 0x8A, 0x8C, 0x91, 0x92, 0x94, 0x98, 0xA1, 0xA2, 0xA4,
   0xA8, 0xB0, 0xC1, 0xC2, 0xC4, 0xC8, 0xD0, 0xE0, 0x1F, 0x2F, 0x37, 0x3B, 0x3D, 0x3E, 0x4F, 0x57]

/-- The columns of the 64 data bits (R178). -/
def secColumns : List Nat := secColumnsLow ++ secColumnsHigh

/-- The XOR of the columns of the bits of `x` that are 1, from bit `i` on. -/
def secXor (x : Nat) : Nat → List Nat → Nat
  | _, [] => 0
  | i, k :: ks => (if x.testBit i then k else 0) ^^^ secXor x (i + 1) ks

/-- The check bits of a word (R178). -/
def secCheck (w : Word) : BitVec 8 := BitVec.ofNat 8 (secXor w.toNat 0 secColumns)

/-- The syndrome of a stored word: data in bits [63:0], check bits in bits [71:64] (R178). -/
def secSyndrome (v : BitVec 72) : BitVec 8 := secCheck (v.setWidth 64) ^^^ v.extractLsb' 64 8

/-- A stored word with fresh check bits. -/
def secEncode (w : Word) : BitVec 72 := w.setWidth 72 ||| ((secCheck w).setWidth 72 <<< 64)

/-- What a read makes of a syndrome (R178): correct, corrected, or poisoned. -/
inductive SecOut where
  | ok | corrected | poisoned
  deriving DecidableEq, Repr

/-- The decoding of stored data bits with a syndrome (R178). -/
def secDecode (w : Word) (syn : BitVec 8) : Word × SecOut :=
  if syn = 0 then (w, .ok)
  else
    match secColumns.idxOf? syn.toNat with
    | some i => (w ^^^ (1 <<< i), .corrected)
    | none => if popBits 8 syn.toNat = 1 then (w, .corrected) else (w, .poisoned)

/-! The array, and the save buffer of a preserving march (R188). Words are numbered through bank space. -/

/-- The stored word of the array: data in bits [63:0], check bits in bits [71:64]. -/
def State.arrWord (s : State) (w : Nat) : BitVec 72 :=
  let b := fun (i : Nat) => (tget (fun _ => (0 : Byte)) s.mem (8 * w + i)).toNat * 2 ^ (8 * i)
  BitVec.ofNat 72 (b 0 + b 1 + b 2 + b 3 + b 4 + b 5 + b 6 + b 7 + (tget (fun _ => (0 : Byte)) s.chk w).toNat * 2 ^ 64)

/-- The state with a word of the array stored. -/
def State.setArrWord (s : State) (w : Nat) (v : BitVec 72) : State :=
  { s with
    mem := (List.range 8).foldl (fun m i => tset (fun _ => (0 : Byte)) (8 * w + i) (v.extractLsb' (8 * i) 8) m) s.mem
    chk := tset (fun _ => (0 : Byte)) w (v.extractLsb' 64 8) s.chk }

/-- The place of a word in the save buffer of its bank's preserving march, while its row is under test (R188). -/
def State.savedAt (s : State) (w : Nat) : Option Nat :=
  match (s.bk (w / 32768)).march with
  | some m =>
    let line := w % 32768 / 2
    let i := 2 * (line % 8) + w % 2
    if m.preserving && line / 8 == m.group && decide (i < m.save.length) && decide (m.pos ≤ 168 + line % 8) then some i else none
  | none => none

/-- A stored word as both ports see it. -/
def State.rawWord (s : State) (w : Nat) : BitVec 72 :=
  match s.savedAt w, (s.bk (w / 32768)).march with
  | some i, some m => m.save.getD i 0
  | _, _ => s.arrWord w

/-- A word stored by either port: into the save buffer while its row is under test; a waiting write-back of it is discarded (R179). -/
def State.setRawWord (s : State) (w : Nat) (v : BitVec 72) : State :=
  let n := w / 32768
  let b := s.bk n
  let s := s.setBk n { b with wb := b.wb.filter (· != w) }
  match s.savedAt w, b.march with
  | some i, some m => s.setBk n { s.bk n with march := some { m with save := m.save.set i v } }
  | _, _ => s.setArrWord w v

/-! Reads and writes of requesters. -/

/-- A bank's record (R180, R182). -/
def State.bankRec (s : State) (n code : Nat) (a0 a1 a2 : Nat) : State :=
  s.occur code (sourceOfPage (bankPage n)) false (BitVec.ofNat 64 a0) (BitVec.ofNat 64 a1) (BitVec.ofNat 64 a2)

/-- A bank's EVEN.EV posted when its enable is set. -/
def State.bankEv (s : State) (n : Nat) (on : RF) : State := s.postIf (s.on on) (s.get (F.BNK_EVEN_EV n))

/-- A correctable word waits to be written back (R179). -/
def State.queueWb (s : State) (w : Nat) (data : Word) (syn : BitVec 8) : State :=
  let n := w / 32768
  let b := s.bk n
  if (secDecode data syn).2 == .corrected && s.on (F.BNK_CTRL_WBEN n) && !b.wb.contains w then
    s.setBk n { b with wb := b.wb ++ [w] }
  else s

/-- What a read of a stored word counts and logs, and the data it delivers (R179, R180). `port` is 0 for Port A. -/
def State.eccCount (s : State) (w port req : Nat) (data : Word) (syn : BitVec 8) : Word × SecOut × State :=
  let n := w / 32768
  match secDecode data syn with
  | (d, .ok) => (d, .ok, s)
  | (d, .corrected) => (d, .corrected, (s.inc (F.BNK_ECCCNT_CORR n)).put (F.BNK_STATUS_CORRSEEN n) 1)
  | (d, .poisoned) =>
    let s := ((s.inc (F.BNK_ECCCNT_UNC n)).err (bankPage n)).put (F.BNK_STATUS_UNCSEEN n) 1
    let s := ((s.put (F.BNK_ECCLOG_WORD n) (w % 32768)).put (F.BNK_ECCLOG_SYND n) syn.toNat).put (F.BNK_ECCLOG_PORT n) port
    let s := s.bankRec n 0x031 (8 * w) (syn.toNat + port * 256) req
    (d, .poisoned, s.bankEv n (F.BNK_EVEN_ONUNC n))

/-- A read of a stored word at its check, the write-back of a corrected one included (R179, R180). -/
def State.eccOutcome (s : State) (w port req : Nat) (data : Word) (syn : BitVec 8) : Word × SecOut × State :=
  (s.queueWb w data syn).eccCount w port req data syn

/-- A read of a word through its check (R178-R180). -/
def State.eccRead (s : State) (w port req : Nat) : Word × SecOut × State :=
  let v := s.rawWord w
  s.eccOutcome w port req (v.setWidth 64) (secSyndrome v)

/-- A word stored on behalf of a requester, with the injection of R191 if one is armed. -/
def State.storeFor (s : State) (w : Nat) (data : Word) : State :=
  let n := w / 32768
  let v := secEncode data
  if s.on (F.BNK_INJ_ARM n) then
    let v := v ^^^ (BitVec.ofNat 72 (s.get (F.BNK_INJ_CFLIP n)) <<< 64)
    let v := if s.on (F.BNK_INJ_DEN n) then v ^^^ (1 <<< s.get (F.BNK_INJ_DBIT n)) else v
    (s.put (F.BNK_INJ_ARM n) 0).setRawWord w v
  else s.setRawWord w v

/-- The bytes of `new` selected by `mask` over the bytes of `old`. -/
def mergeBytes (old new : Word) (mask : Nat) : Word :=
  (List.range 8).foldl (fun acc i => if mask.testBit i then setFld acc (8 * i) 8 (fld new (8 * i) 8) else acc) old

/-- A partial write that finds its word poisoned is not performed (R180). -/
def State.dropWrite (s : State) (w port req : Nat) (syn : BitVec 8) : State :=
  let n := w / 32768
  ((s.inc (F.BNK_NDROP_COUNT n)).err (bankPage n)).bankRec n 0x032 (8 * w) (syn.toNat + port * 256) req

/-- A write of up to one word through a port in one step: a full write, or the read and the merged write of a partial one
(R171, R174, R180). -/
def State.writeThrough (s : State) (w port req : Nat) (data : Word) (mask : Nat) : State :=
  if mask % 256 = 255 then s.storeFor w data
  else if mask % 256 = 0 then s
  else
    let syn := secSyndrome (s.rawWord w)
    match s.eccRead w port req with
    | (_, .poisoned, s) => s.dropWrite w port req syn
    | (old, _, s) => s.storeFor w (mergeBytes old data mask)

/-! Port A. -/

/-- A violation (R182): counted, recorded, and the requester's access refused. Kinds: 0 read, 1 write, 2 AADD, 3 ASWP, 4 fetch. -/
def State.violation (s : State) (addr req kind : Nat) : State :=
  let n := bankOf addr
  let s := ((s.inc (F.BNK_VIOL_VCOUNT n)).err (bankPage n)).put (F.BNK_STATUS_VIOLSEEN n) 1
  let s := (s.put (F.BNK_VIOL_VREQ n) req).put (F.BNK_VIOL_VWORD n) (addr / 8 % 32768)
  (s.bankRec n 0x030 addr req kind).bankEv n (F.BNK_EVEN_ONVIOL n)

/-- How Port A of a bank meets a requester (R175, R182, R183): held, refused as a violation, or accepted. -/
inductive PortAGate where
  | held | refused | accepted
  deriving DecidableEq, Repr

/-- The check of a request step. -/
def State.portAGate (s : State) (n req : Nat) : PortAGate :=
  if !s.unitOn (domBank n) then .held
  else if s.get (F.BNK_OWN_OWNER n) ≠ req then .refused
  else if s.on (F.BNK_OWN_PEND n) then .held
  else .accepted

/-- The word a Port A read step sees: the latest write step still to come, or the stored word (R172). -/
def State.portAWord (s : State) (w : Nat) : BitVec 72 :=
  match ((s.bk (w / 32768)).wsteps.filter (fun p => p.word == w && p.drop.isNone && p.mask != 0)).getLast? with
  | some p => secEncode p.data
  | none => s.rawWord w

/-- A Port A read of one word by a requester other than a quire's data operation. -/
def State.portARead (s : State) (w req : Nat) : Word × SecOut × State :=
  let v := s.portAWord w
  s.eccOutcome w 0 req (v.setWidth 64) (secSyndrome v)

/-- A write step joins its bank's list. -/
def State.addWStep (s : State) (p : WStep) : State :=
  let n := p.word / 32768
  s.setBk n { s.bk n with wsteps := (s.bk n).wsteps ++ [p] }

/-- The request step of a write on Port A of the bytes of word `w` that `mask` selects: full, or with its read step and merge
(R171, R180). -/
def State.storeMasked (s : State) (w mask req : Nat) (data : Word) (chan line : Option Nat := none) : State :=
  if mask % 256 = 255 then s.addWStep ⟨w, data, 255, none, req, false, chan, line⟩
  else
    let v := s.portAWord w
    let syn := secSyndrome v
    match s.eccOutcome w 0 req (v.setWidth 64) syn with
    | (_, .poisoned, s) => s.addWStep ⟨w, 0, mask, some syn, req, false, chan, line⟩
    | (old, _, s) => s.addWStep ⟨w, mergeBytes old data mask, mask, none, req, false, chan, line⟩

/-- The request step of a store of `size` bytes (R171). -/
def State.storeStep (s : State) (addr size req : Nat) (data : Word) : State :=
  s.storeMasked (addr / 8) ((2 ^ size - 1) * 2 ^ (addr % 8)) req (data <<< (8 * (addr % 8)))

/-- A hold of R115 whose bank or queue answer has come; the context goes on when none is missing. -/
def State.releaseHold (s : State) (c : Nat) (bank queue : Bool) : State :=
  let x := s.cx c
  match x.hold with
  | some h =>
    let b := h.bank && !bank
    let q := h.queue && !queue
    if b || q then s.setCx c { x with hold := some { h with bank := b, queue := q } }
    else (s.setCx c { x with hold := none }).followOn c h.follow
  | none => s

/-- A strict refusal faults its context with class 6 or 8 (R114, R115): MADDR is the next word's address, or the WAIT word's own. -/
def State.strictFault (s : State) (c cls : Nat) (off : BitVec 14) (a1 a2 : Word) : State :=
  let x := s.cx c
  match x.hold with
  | some ⟨_, _, .wait⟩ => s.faultCtx c cls x.ownAddr off x.ownRt a1 a2
  | _ => s.faultCtx c cls x.maddr off x.routine a1 a2

/-- The kind of access a bank operation is, for the record of a violation (R182). -/
def memKind (memop : Nat) : Nat := if memop = 12 then 2 else if memop = 13 then 3 else if memIsStore memop then 1 else 0

/-- The first operation that satisfies `p` replaced by `f` of it, or removed. -/
def updFirst (p : BankOp → Bool) (f : BankOp → List BankOp) : List BankOp → List BankOp
  | [] => []
  | o :: os => if p o then f o ++ os else o :: updFirst p f os

/-- Whether an operation still waits for its request step. -/
def BankOp.waiting (o : BankOp) : Bool := o.phase == .requested

/-- The request step of an accepted operation at its bank (R171, R172, R177, R180). -/
def State.opStep (s : State) (c : Nat) (op : BankOp) : State :=
  let q := quireOf c
  let m := op.memop.toNat
  let addr := op.addr.toNat
  let w := addr / 8
  let x := s.cx c
  if memIsStore m then
    let s := s.setCx c { x with ops := updFirst (· == op) (fun _ => []) x.ops }
    s.storeStep addr (memSize m) q op.data
  else
    let v := s.portAWord w
    let data : Word := v.setWidth 64
    let syn := secSyndrome v
    let s := s.setCx c { x with ops := updFirst (· == op) (fun o => [{ o with phase := .delivered data syn }]) x.ops }
    let s := s.queueWb w data syn
    if m = 12 then
      match secDecode data syn with
      | (_, .poisoned) => s.addWStep ⟨w, 0, 0, none, q, true, none, none⟩
      | (old, _) => s.addWStep ⟨w, old + op.data, 255, none, q, true, none, none⟩
    else if m = 13 then s.addWStep ⟨w, op.data, 255, none, q, true, none, none⟩
    else s

/-- A refused operation (R182): a load fills its latch with zero, unless the strict option leaves the latch empty and faults. -/
def State.opRefused (s : State) (c : Nat) (op : BankOp) : State :=
  let x := s.cx c
  let m := op.memop.toNat
  let strict := op.strict && x.st != .idle && x.st != .faulted
  let s := s.setCx c { x with
    ops := updFirst (· == op) (fun o => if memFills m && !strict then [{ o with phase := .delivered 0 0 }] else []) x.ops }
  if strict then s.strictFault c 6 op.off (op.addr.setWidth 64) (op.memop.setWidth 64) else s.releaseHold c op.strict false

/-- The oldest operation of a context that waits for its request step and whose bank does not hold it (R172, R175, R183). -/
def State.nextOp (s : State) (c : Nat) : Option BankOp :=
  (s.cx c).ops.find? (fun o => o.waiting && s.portAGate (bankOf o.addr.toNat) (quireOf c) != .held)

/-- PORT_A_REQUEST_STEP (R172, R182): the context's next operation meets its bank's Port A. -/
def State.requestStep (s : State) (c : Nat) : State :=
  let q := quireOf c
  if !s.unitOn (domQuire q) then s
  else
    match s.nextOp c with
    | none => s
    | some op =>
      if s.portAGate (bankOf op.addr.toNat) q == .accepted then (s.opStep c op).releaseHold c op.strict false
      else (s.violation op.addr.toNat q (memKind op.memop.toNat)).opRefused c op

/-- What a load puts in the latch: its bytes, zero- or sign-extended (R48). -/
def loadValue (memop addr : Nat) (w : Word) : Word :=
  let bits := 8 * memSize memop
  let v := fld w (8 * (addr % 8)) bits
  if 5 ≤ memop ∧ memop ≤ 7 then sext bits v else BitVec.ofNat 64 v

/-- The latch, and conditions 15, 16 and 27, when an operation's data arrive (R37, R48, R172, R180). -/
def State.fillLatch (s : State) (c : Nat) (op : BankOp) (word : Word) (syn : BitVec 8) : State :=
  let m := op.memop.toNat
  let addr := op.addr.toNat
  let r := if inSpace addr then s.eccCount (addr / 8) 0 (quireOf c) word syn else (word, SecOut.ok, s)
  let v := if r.2.1 = .poisoned then word else r.1
  let s := r.2.2
  let x := s.cx c
  let ops := updFirst (· == op) (fun _ => []) x.ops
  s.setCx c { x with
    ops := ops
    blatch := loadValue m addr v
    bEmpty := ops.any (fun o => memFills o.memop.toNat)
    atomZero := if m = 12 then v + op.data == 0 else if m = 13 then v == 0 else x.atomZero
    poisoned := r.2.1 == .poisoned
    corrected := r.2.1 == .corrected }

/-- BANK_READ_LATCH_FILL (R40, R172, R177, R179, R180): the context's oldest load or atomic is delivered once it has been read. -/
def State.latchFill (s : State) (c : Nat) : State :=
  match (s.cx c).ops.find? (fun o => memFills o.memop.toNat) with
  | some op =>
    match op.phase with
    | .delivered word syn => s.fillLatch c op word syn
    | .requested => s
  | none => s

/-- The BCLK that the present FCLK lies in, from 1. -/
def State.bclk (s : State) : Nat := s.fclk / 2 + 1

/-- A Port A write step performed now. -/
def State.noteStep (s : State) (n : Nat) (p : WStep) : State :=
  let b := s.bk n
  s.setBk n { b with doneA := b.doneA.filter (fun d => d.bclk == s.bclk) ++ [⟨s.bclk, p.word, p.atomic⟩] }

/-- The event that follows a write step (R253). -/
def State.stepEvent (s : State) (p : WStep) : State :=
  match p.line with
  | some l => s.post l
  | none => s

/-- PORT_A_WRITE_STEP (R171, R180): the bank's oldest accepted write step is performed, and the event that follows it is posted. -/
def State.writeStep (s : State) (n : Nat) : State :=
  let b := s.bk n
  match b.wsteps with
  | [] => s
  | p :: rest =>
    let s := s.setBk n { b with wsteps := rest }
    let s := match p.drop with
      | some syn => s.dropWrite p.word 0 p.req syn
      | none => if p.mask = 0 then s else (s.storeFor p.word p.data).noteStep n p
    s.stepEvent p

/-! Port B. -/

/-- Whether a destructive march refuses the other users of Port B (R187). -/
def State.marchRefuses (s : State) (n : Nat) : Bool :=
  match (s.bk n).march with
  | some m => !m.preserving
  | none => false

/-- Whether an atomic's interlock covers a word (R177): from its read step to the end of the BCLK of its write step. -/
def State.interlocked (s : State) (w : Nat) : Bool :=
  let b := s.bk (w / 32768)
  b.wsteps.any (fun p => p.atomic && p.word == w) || b.doneA.any (fun d => d.atomic && d.word == w && d.bclk == s.bclk)

/-- Whether a write through a port finds its word poisoned and is not performed (R180). -/
def State.writeDrops (s : State) (w mask : Nat) : Bool :=
  let v := s.rawWord w
  mask % 256 != 255 && (secDecode (v.setWidth 64) (secSyndrome v)).2 == .poisoned

/-- Port B's write of one word: a collision with a Port A write of the same word in the same BCLK is counted (R176). -/
def State.portBWrite (s : State) (w req : Nat) (data : Word) (mask : Nat) : State :=
  let n := w / 32768
  let met := (s.bk n).doneA.any (fun d => d.bclk == s.bclk && d.word == w)
  let s := if mask % 256 != 0 && met && !s.writeDrops w mask then
      (s.inc (F.BNK_COLL_COUNT n)).put (F.BNK_STATUS_COLLSEEN n) 1
    else s
  s.writeThrough w 1 req data mask

/-- Whether no other user's access holds Port B in this BCLK (R174). The accesses of one user follow one another, each in a BCLK of its
own (log entry 18). -/
def State.portBFree (s : State) (n code : Nat) : Bool := decide ((s.bk n).busyB < s.bclk) || (s.bk n).userB == code

/-- Port B taken by a user for `k` BCLK from this one on (R174). -/
def State.takeB (s : State) (n code k : Nat) : State :=
  s.setBk n { s.bk n with busyB := Nat.max (s.bk n).busyB (s.bclk + k - 1), userB := code }

/-- The BCLK an access of a line with byte enables takes (R174): two for a write of part of a word. -/
def lineBclk (write : Bool) (enables : Nat) : Nat :=
  let part := fun (m : Nat) => m % 256 != 0 && m % 256 != 255
  if write && (part enables || part (enables / 256)) then 2 else 1

/-- Requester codes of the users of Port B (R170). -/
def portBCode : PortBUser → Nat
  | .march => 0x25
  | .queueManager => 0x24
  | .dma => 0x20
  | .hostWindow => 0x22

/-- Port B's order of choice (R174). -/
def portBRank : PortBUser → Nat
  | .march => 0
  | .queueManager => 1
  | .dma => 2
  | .hostWindow => 3

/-- A BCLK's wait of a user is counted (R174). -/
def State.portBStall (s : State) (n : Nat) (u : PortBUser) : State :=
  match u with
  | .march => s
  | .queueManager => s.inc (F.BNK_PBSTALL_QMG n)
  | .dma => s.inc (F.BNK_PBSTALL_DMA n)
  | .hostWindow => s.inc (F.BNK_PBSTALL_HOST n)

/-- One access of up to a line by a user other than the march engine (R174, R187); a read's data goes to `bdata` (log entry 13). -/
def State.portBPerform (s : State) (n : Nat) (r : PortBRequest) : State :=
  let code := portBCode r.user
  let w0 := n * 32768 + 2 * r.line.toNat
  let refused := s.marchRefuses n
  let s := if refused then s.err (bankPage n) else s
  if r.isWrite then
    if refused then s
    else
      let s := s.portBWrite w0 code (r.data.setWidth 64) (fld r.enables 0 8)
      s.portBWrite (w0 + 1) code (r.data.extractLsb' 64 64) (fld r.enables 8 8)
  else if refused then s.setBk n { s.bk n with bdata := 0 }
  else
    let a := s.eccRead w0 1 code
    let b := a.2.2.eccRead (w0 + 1) 1 code
    b.2.2.setBk n { b.2.2.bk n with bdata := BitVec.ofNat 128 (a.1.toNat + b.1.toNat * 2 ^ 64) }

/-- Whether Port B makes an access of a user to one of some words wait (R174, R177): another user's access holds the port, or an atomic's
interlock covers a word. A destructive march refuses accesses instead (R187). -/
def State.portBWaits (s : State) (n : Nat) (u : PortBUser) (words : List Nat) : Bool :=
  !s.marchRefuses n && (!s.portBFree n (portBCode u) || words.any (fun w => s.interlocked w))

/-- The words of an access. -/
def lineWords (n : Nat) (r : PortBRequest) : List Nat :=
  [n * 32768 + 2 * r.line.toNat, n * 32768 + 2 * r.line.toNat + 1]

/-- PORT_B_ACCESS (R174, R187): of the accesses presented in a BCLK, the highest in order is performed and every other requester
stalls; a destructive march refuses them all. The march engine's own access is MARCH_ACCESS; DMA and the host window use Port A of
a bank they own (R170). -/
def State.portBAccess (s : State) (n : Nat) (presented : List PortBRequest) : State :=
  if !s.unitOn (domBank n) then s
  else
    let rs := presented.filter (fun r => portBCode r.user != s.get (F.BNK_OWN_OWNER n))
    if s.marchRefuses n then (rs.filter (fun r => r.user != .march)).foldl (fun s r => s.portBPerform n r) s
    else
      let rank := minD 4 (rs.map (fun r => portBRank r.user))
      match rs.find? (fun r => portBRank r.user == rank) with
      | none => s
      | some r =>
        let wait := r.user != .march && s.portBWaits n r.user (lineWords n r)
        let losers := if wait then rs else rs.filter (fun o => portBRank o.user != rank)
        let s := losers.foldl (fun s o => s.portBStall n o.user) s
        if wait || r.user == .march then s
        else (s.portBPerform n r).takeB n (portBCode r.user) (lineBclk r.isWrite r.enables.toNat)

/-- ECC_WRITEBACK (R179): the bank's oldest corrected word is written back, unless it has been written since. -/
def State.eccWriteback (s : State) (n : Nat) : State :=
  let b := s.bk n
  match b.wb with
  | [] => s
  | w :: rest =>
    if s.unitOn (domBank n) && !s.marchRefuses n && decide ((s.bk n).busyB < s.bclk) then
      let s := s.setBk n { b with wb := rest }
      let v := s.rawWord w
      match secDecode (v.setWidth 64) (secSyndrome v) with
      | (d, .corrected) => s.setRawWord w (secEncode d)
      | _ => s
    else s

/-! Ownership (R181-R184). -/

/-- Whether an owner code is reserved (R170, R181). -/
def ownerReserved (code : Nat) : Bool := !(decide (code ≤ 0x23) || code == 0x3F)

/-- OWNERSHIP_HANDOVER (R183, R184): a write of OWN. -/
def State.ownWrite (s : State) (n owner : Nat) : State :=
  if s.on (F.BNK_LOCK_OWN n) || s.on (F.BNK_OWN_PEND n) || ownerReserved owner || s.marchRefuses n then s.rej (bankPage n)
  else if s.get (F.BNK_OWN_OWNER n) = owner then s
  else (s.put (F.BNK_OWN_OWNER n) owner).put (F.BNK_OWN_PEND n) 1

/-- HANDOVER_COMPLETE (R183): no accepted step of the old owner remains. -/
def State.handoverDone (s : State) (n : Nat) : State :=
  if s.on (F.BNK_OWN_PEND n) && (s.bk n).wsteps.isEmpty && s.unitOn (domBank n) then
    (s.put (F.BNK_OWN_PEND n) 0).bankEv n (F.BNK_EVEN_ONHAND n)
  else s

/-! The march engine (R186-R189). -/

/-- The pattern that stands for a 0 or a 1 in each half of a row under a background (R187). -/
def marchPattern (bg : Nat) (one : Bool) : BitVec 72 :=
  let zero : BitVec 72 := if bg = 0 then 0 else 0xAAAAAAAAAAAAAAAAAA
  if one then ~~~ zero else zero

/-- One access of the two-background test over `lines` lines (R187): background, element, line, whether it writes, and the
value written or expected. -/
structure MarchOp where
  bg : Nat
  elem : Nat
  line : Nat
  write : Bool
  one : Bool
  deriving DecidableEq, Repr

/-- Access number `pos` of the test over `lines` lines: 10 accesses a line and background. -/
def marchOp (lines pos : Nat) : MarchOp :=
  let bg := pos / (10 * lines)
  let r := pos % (10 * lines)
  if r < lines then ⟨bg, 0, r, true, false⟩
  else if r < 9 * lines then
    let e := (r - lines) / (2 * lines) + 1
    let i := (r - lines) % (2 * lines)
    let line := if 3 ≤ e then lines - 1 - i / 2 else i / 2
    ⟨bg, e, line, i % 2 == 1, (i % 2 == 1) == (e % 2 == 1)⟩
  else ⟨bg, 5, r - 9 * lines, false, false⟩

/-- The row of a line in the array, as its two stored words. -/
def State.arrRow (s : State) (n line : Nat) : BitVec 72 × BitVec 72 :=
  (s.arrWord (n * 32768 + 2 * line), s.arrWord (n * 32768 + 2 * line + 1))

/-- A row of the array written raw. -/
def State.setArrRow (s : State) (n line : Nat) (a b : BitVec 72) : State :=
  (s.setArrWord (n * 32768 + 2 * line) a).setArrWord (n * 32768 + 2 * line + 1) b

/-- The columns in which a row differs from its expected pattern (R169). -/
def failColumns (row : BitVec 72 × BitVec 72) (p : BitVec 72) : Nat := (row.1 ^^^ p).toNat + (row.2 ^^^ p).toNat * 2 ^ 72

/-- A failing read (R189). -/
def State.marchFail (s : State) (n line elem cols : Nat) : State :=
  let first := match (s.bk n).march with | some m => !m.failed | none => false
  let s := s.inc (F.BNK_MSTAT_FAILCNT n)
  let s := s.put ⟨R.BNK_REPAIRSUM n, 8 * (line / 2048) + 3, 1⟩ 1
  if first then
    let s := (s.put (F.BNK_MFAIL_LINE n) line).put (F.BNK_MFAIL_ELEM n) elem
    let s := s.put (F.BNK_MFAIL_COL n) (((List.range 144).find? (fun i => cols.testBit i)).getD 0)
    let s := s.put (F.BNK_MFAIL_NCOL n) (popBits 144 cols)
    match (s.bk n).march with
    | some m => s.setBk n { s.bk n with march := some { m with failed := true } }
    | none => s
  else s

/-- The end of a run (R189). -/
def State.marchEnd (s : State) (n : Nat) : State :=
  let s := s.setBk n { s.bk n with march := none }
  let fails := s.on (F.BNK_MSTAT_FAILCNT n)
  let s := (s.put (F.BNK_STATUS_MBUSY n) 0).put (F.BNK_STATUS_MDONE n) 1
  let s := if fails then s.put (F.BNK_STATUS_MFAIL n) 1 else s
  let s := if fails then s.bankRec n 0x033 n (s.get (F.BNK_MSTAT_FAILCNT n)) (s.reg (R.BNK_MFAIL n)).toNat else s
  s.bankEv n (F.BNK_EVEN_ONMARCH n)

/-- A march starts: its results are those of this run (R189). -/
def State.marchBegin (s : State) (n : Nat) (preserving : Bool) : State :=
  let s := s.setBk n { s.bk n with march := some ⟨preserving, 0, 0, [], false⟩ }
  let s := s.put (F.BNK_STATUS_MBUSY n) 1
  let s := (s.setReg (R.BNK_MFAIL n) 0).setReg (R.BNK_MSTAT n) (BitVec.ofNat 64 (if preserving then 2 else 1))
  (List.range 8).foldl (fun s k => s.put ⟨R.BNK_REPAIRSUM n, 8 * k + 3, 1⟩ 0) s

/-- A march's test access, over an area whose lines start at `base` (R187). -/
def State.marchTest (s : State) (n base : Nat) (o : MarchOp) : State :=
  let p := marchPattern o.bg o.one
  let line := base + o.line
  if o.write then s.setArrRow n line p p
  else
    let cols := failColumns (s.arrRow n line) p
    if cols = 0 then s else s.marchFail n line (6 * o.bg + o.elem) cols

/-- The march at its next access. -/
def State.marchAt (s : State) (n pos group : Nat) (save : List (BitVec 72)) : State :=
  match (s.bk n).march with
  | some m => s.setBk n { s.bk n with march := some { m with pos := pos, group := group, save := save } }
  | none => s

/-- An access of a destructive march (R187). -/
def State.destructiveAccess (s : State) (n : Nat) (m : March) : State :=
  if m.pos < 327680 then (s.marchTest n 0 (marchOp 16384 m.pos)).marchAt n (m.pos + 1) 0 []
  else
    let s := s.setArrRow n (m.pos - 327680) 0 0
    if m.pos + 1 < 344064 then s.marchAt n (m.pos + 1) 0 [] else s.marchEnd n

/-- An access of a preserving march (R188): save, test, restore, group by group. -/
def State.preservingAccess (s : State) (n : Nat) (m : March) : State :=
  let base := 8 * m.group
  if m.pos < 8 then
    let r := s.arrRow n (base + m.pos)
    s.marchAt n (m.pos + 1) m.group (m.save ++ [r.1, r.2])
  else if m.pos < 168 then (s.marchTest n base (marchOp 8 (m.pos - 8))).marchAt n (m.pos + 1) m.group m.save
  else
    let i := m.pos - 168
    let s := s.setArrRow n (base + i) (m.save.getD (2 * i) 0) (m.save.getD (2 * i + 1) 0)
    if m.pos + 1 < 176 then s.marchAt n (m.pos + 1) m.group m.save
    else if m.group + 1 < 2048 then s.marchAt n 0 (m.group + 1) []
    else s.marchEnd n

/-- MARCH_ACCESS (R174, R187, R188): the running march makes its next access, in a BCLK that no access holds. -/
def State.marchAccess (s : State) (n : Nat) : State :=
  match (s.bk n).march with
  | some m =>
    if !s.unitOn (domBank n) || !s.portBFree n (portBCode .march) then s
    else if m.preserving then (s.preservingAccess n m).takeB n (portBCode .march) 1
    else (s.destructiveAccess n m).takeB n (portBCode .march) 1
  | none => s

/-- A preserving march's group put back at once, from the rows saved and not yet restored (R188). -/
def State.restoreGroup (s : State) (n : Nat) (m : March) : State :=
  (List.range (m.save.length / 2)).foldl (fun s i =>
    if m.pos ≤ 168 + i then s.setArrRow n (8 * m.group + i) (m.save.getD (2 * i) 0) (m.save.getD (2 * i + 1) 0) else s) s

/-- An abort (R187, R188): a destructive march runs its final zero element from line 0, a preserving one restores its group and stops. -/
def State.marchAbort (s : State) (n : Nat) : State :=
  match (s.bk n).march with
  | some m =>
    let s := s.put (F.BNK_MSTAT_ABORTED n) 1
    if m.preserving then (s.restoreGroup n m).marchEnd n
    else s.marchAt n 327680 0 []
  | none => s

/-- Whether a march command is refused (R186). -/
def State.marchRefused (s : State) (n cmd : Nat) : Bool :=
  let start := (s.bk n).march.isNone && !s.on (F.BNK_LOCK_MARCH n)
  match cmd with
  | 1 => !(start && s.get (F.BNK_OWN_OWNER n) == 0x3F && !s.on (F.BNK_OWN_PEND n))
  | 2 => !start
  | _ => false

/-- An accepted march command (R186). -/
def State.marchCommand (s : State) (n cmd : Nat) : State :=
  match cmd with
  | 1 => s.marchBegin n false
  | 2 => s.marchBegin n true
  | 3 => s.marchAbort n
  | _ => s

/-- A write of MARCH, from its register or a test data register: the gap and the command (R186). A refused command rejects the write
that carries it (R411, R415, log entry 60). -/
def State.marchWrite (s : State) (n cmd gap : Nat) : State :=
  if s.marchRefused n cmd then s.rej (bankPage n) else (s.put (F.BNK_MARCH_GAP n) gap).marchCommand n cmd

/-- INJ_WRITE (R191): rejected as a whole while ARM is set. -/
def State.injWrite (s : State) (n : Nat) (v : Word) : State :=
  if s.on (F.BNK_INJ_ARM n) then s.rej (bankPage n) else s.setReg (R.BNK_INJ n) (BitVec.ofNat 64 (fld v 0 16))

/-! Column repair (R185). -/

/-- A spare's fuses: column, valid, parity (log entry 7 lays them out: 8, 1, 1 bits). -/
def State.spareFuse (s : State) (n sub spare : Nat) : Nat := tget (fun _ => 0x200) s.fuse.repair (n * 16 + sub * 2 + spare)

/-- Whether a spare's fuses are valid and well formed, before the comparison of the two (R185). -/
def spareGood (v : Nat) : Bool := v.testBit 8 && parity 10 v && decide (v % 256 ≤ 143)

/-- Whether a spare's fuses are rejected on their own: wrong parity, or a number above 143 (R185). -/
def spareBad (v : Nat) : Bool := !(parity 10 v && decide (v % 256 ≤ 143))

/-- Whether each spare of a subarray is in use: spare 1 is left unused when both name one column (R185). -/
def State.spareUsed (s : State) (n sub : Nat) : Bool × Bool :=
  let a := s.spareFuse n sub 0
  let b := s.spareFuse n sub 1
  (spareGood a, spareGood b && !(spareGood a && a % 256 == b % 256))

/-- A subarray's byte of REPAIRSUM without MFOUND (R185, R190). -/
def State.repairByte (s : State) (n sub : Nat) : Nat :=
  let a := s.spareFuse n sub 0
  let b := s.spareFuse n sub 1
  let u := s.spareUsed n sub
  b2n u.1 + b2n u.2 + 4 * b2n (spareBad a || spareBad b || (spareGood a && spareGood b && a % 256 == b % 256))

/-- REPAIRSUM as it reads: the fuses' part over the MFOUND bits (R190). -/
def State.repairSum (s : State) (n : Nat) : Word :=
  (List.range 8).foldl (fun v k => v ||| BitVec.ofNat 64 (s.repairByte n k * 2 ^ (8 * k))) (s.reg (R.BNK_REPAIRSUM n))

/-- REPAIRCOL[sub] as it reads (R190). -/
def State.repairCol (s : State) (n sub : Nat) : Word :=
  let a := s.spareFuse n sub 0
  let b := s.spareFuse n sub 1
  let u := s.spareUsed n sub
  BitVec.ofNat 64 ((if u.1 then a % 256 + 256 else 0) + (if u.2 then b % 256 + 256 else 0) * 2 ^ 16)

end Sys2Proof.Machine
end

