-- ==== Sys2Proof/Machine/FrontEnd.lean ====
section
/-! DEFINITION. The Olupo front end (R123-R132): the decoder over the bytes of a context's fetch buffer, the fetch of a line
on Port A (R173, R182), and the completion of a decode. -/

namespace Sys2Proof.Machine

/-- The prefixes seen (R123, R124): the last byte of each class decides. -/
structure Prefixes where
  guard : Option Nat
  wid : Nat
  rep : Bool
  amo : Bool
  deriving DecidableEq, Repr

/-- How far the bytes of an instruction have been read: a byte whose line is not held, an invalid byte, a 15th byte needed,
or the opcode and its place; `esc` says whether the escape byte was read. -/
inductive Scan where
  | missing (i : Nat)
  | invalid (i : Nat) (p : Prefixes) (esc : Bool)
  | overlong (p : Prefixes) (esc : Bool)
  | opcode (i : Nat) (p : Prefixes) (esc : Bool) (op : Nat)
  deriving DecidableEq, Repr

/-- Byte `i` of the instruction at `pc` in a fetch buffer: none where the line is not held, some none where it is invalid. -/
def lineByte (lines : List FetchLine) (pc i : Nat) : Option (Option Nat) :=
  let a := (pc + i) % 2 ^ 32
  match lines.find? (fun l => l.line.toNat == a / 16) with
  | some l => if l.invalid then some none else some (some (fld l.data (8 * (a % 16)) 8))
  | none => none

/-- The bytes up to the opcode (R123-R125). -/
def scanPrefixes (lines : List FetchLine) (pc : Nat) : Nat → Nat → Prefixes → Scan
  | 0, _, p => .overlong p false
  | fuel + 1, i, p =>
    if 14 ≤ i then .overlong p false
    else
      match lineByte lines pc i with
      | none => .missing i
      | some none => .invalid i p false
      | some (some b) =>
        if 0xE0 ≤ b ∧ b ≤ 0xEF then scanPrefixes lines pc fuel (i + 1) { p with guard := some (b % 16) }
        else if b = 0xF0 then scanPrefixes lines pc fuel (i + 1) { p with rep := true }
        else if b = 0xF1 then scanPrefixes lines pc fuel (i + 1) { p with amo := true }
        else if b = 0xF2 then scanPrefixes lines pc fuel (i + 1) { p with wid := 3 }
        else if b = 0xF3 then scanPrefixes lines pc fuel (i + 1) { p with wid := 2 }
        else if b = 0xF4 then scanPrefixes lines pc fuel (i + 1) { p with wid := 1 }
        else if b = 0xF8 then
          if 14 ≤ i + 1 then .overlong p true
          else
            match lineByte lines pc (i + 1) with
            | none => .missing (i + 1)
            | some none => .invalid (i + 1) p true
            | some (some op) => .opcode (i + 1) p true op
        else .opcode i p false b

/-- The bytes of an immediate by SRC (R128). -/
def immBytes (src : Nat) : Nat := match src with | 0 => 0 | 1 => 1 | 2 => 4 | _ => 8

/-- The operand bytes of a format, with the R byte's SRC where there is one (R127). -/
def operandBytes (f : OFormat) (src : Nat) : Nat :=
  match f with
  | .n => 0
  | .r => 1 + immBytes src
  | .rb => 2 + immBytes src
  | .rbb => 3 + immBytes src
  | .j8 => 1
  | .j32 => 4

/-- Whether a format has an R byte. -/
def hasR (f : OFormat) : Bool := f == .r || f == .rb || f == .rbb

/-- The decode word (R135). -/
def decodeWord (p : Prefixes) (esc : Bool) (op len rb t1 t2 : Nat) (tooLong bad : Bool) : Word :=
  let g := match p.guard with | some g => 2 ^ 13 + g / 2 * 2 ^ 14 + g % 2 * 2 ^ 17 | none => 0
  BitVec.ofNat 64 (op + b2n esc * 2 ^ 8 + b2n p.rep * 2 ^ 9 + p.wid * 2 ^ 10 + b2n p.amo * 2 ^ 12 + g + b2n tooLong * 2 ^ 18 +
    b2n bad * 2 ^ 19 + len * 2 ^ 20 + rb * 2 ^ 24 + t1 * 2 ^ 32 + t2 * 2 ^ 40)

/-- The value of bytes `i` to `i + n - 1`, least significant first. -/
def bytesAt (lines : List FetchLine) (pc i n : Nat) : Nat :=
  (List.range n).foldl (fun acc k =>
    match lineByte lines pc (i + k) with
    | some (some b) => acc + b * 2 ^ (8 * k)
    | _ => acc) 0

/-- The first of the bytes `i` to `i + n - 1` that is not held, or is invalid. -/
def firstGap (lines : List FetchLine) (pc i n : Nat) : Option (Nat × Bool) :=
  ((List.range n).find? (fun k => match lineByte lines pc (i + k) with | some (some _) => false | _ => true)).map
    (fun k => (i + k, match lineByte lines pc (i + k) with | none => true | _ => false))

/-- The outcome of a decode: a byte whose line must be fetched first, or the instruction. -/
inductive Decode where
  | missing (i : Nat)
  | done (d : Decoded)
  deriving DecidableEq, Repr

/-- The instruction at `pc` (R123-R130, R135); an over-long one has its first 14 bytes read (log entry 61). `free`
stands for the opcode of an instruction whose opcode byte was not read. -/
def decodeAt (lines : List FetchLine) (pc : Nat) (free : Word) : Decode :=
  let mk := fun (w : Word) (imm : Word) (len : Nat) =>
    Decode.done ⟨w, imm, BitVec.ofNat 32 pc, BitVec.ofNat 112 (bytesAt lines pc 0 len)⟩
  match scanPrefixes lines pc 15 0 ⟨none, 0, false, false⟩ with
  | .missing i => .missing i
  | .overlong p esc => mk (decodeWord p esc (fld free 0 8) 14 0 0 0 true false) 0 14
  | .invalid i p esc => mk (decodeWord p esc (fld free 0 8) (i + 1) 0 0 0 false true) 0 (i + 1)
  | .opcode i p esc op =>
    let f := if esc then escapeFormat op else primaryFormat op
    let rb : Option (Option Nat) := if hasR f then (if i + 1 < 14 then lineByte lines pc (i + 1) else some (some 0xC0)) else some (some 0)
    match rb with
    | none => .missing (i + 1)
    | some none => mk (decodeWord p esc op (i + 2) 0 0 0 false true) 0 (i + 2)
    | some (some rb) =>
      let src := rb / 64
      let len := i + 1 + operandBytes f src
      match firstGap lines pc (i + 1) (Nat.min 14 len - (i + 1)) with
      | some (g, true) => .missing g
      | some (g, false) => mk (decodeWord p esc op (g + 1) rb 0 0 false true) 0 (g + 1)
      | none =>
        if 14 < len then mk (decodeWord p esc op 14 (if hasR f && decide (i + 1 < 14) then rb else 0) 0 0 true false) 0 14
        else
          let ib := immBytes src
          let imm : Word :=
            match f with
            | .n => 0
            | .j8 => sext 8 (bytesAt lines pc (i + 1) 1)
            | .j32 => sext 32 (bytesAt lines pc (i + 1) 4)
            | _ => if ib = 0 then 0 else sext (8 * ib) (bytesAt lines pc (i + 2) ib)
          let t1 := if f = .rb ∨ f = .rbb then bytesAt lines pc (i + 2 + ib) 1 else 0
          let t2 := if f = .rbb then bytesAt lines pc (i + 3 + ib) 1 else 0
          mk (decodeWord p esc op len rb t1 t2 false false) imm len

/-- The context the front end of a quire serves now: the first request made (R132). -/
def State.decodeHead (s : State) (q : Nat) : Option Nat := (s.qu q).dq.head?

/-- A line joins the fetch buffer: two lines, those the instruction at OPC lies in (R130). -/
def Ctx.addLine (x : Ctx) (pc : Nat) (l : FetchLine) : Ctx :=
  let keep := x.lines.filter (fun m => m.line != l.line && (m.line.toNat == pc / 16 || m.line.toNat == (pc / 16 + 1) % 2 ^ 28))
  { x with lines := keep ++ [l] }

/-- The bytes of a line that could not be fetched: invalid, and their values are free (log entry 4). -/
def State.invalidLine (s : State) (c pc line : Nat) : State :=
  let a := s.free
  let b := a.2.free
  let s := b.2
  s.setCx c ((s.cx c).addLine pc ⟨BitVec.ofNat 28 line, BitVec.ofNat 128 (a.1.toNat + b.1.toNat * 2 ^ 64), true⟩)

/-- The line at a line number fetched for a context (R130, R173, R182). -/
def State.fetchLine (s : State) (c pc line : Nat) : State :=
  let q := quireOf c
  let addr := 16 * line
  if !inSpace addr then ((s.inc (F.QUI_SEQERR_OUTRANGE q)).err (quiPage q)).invalidLine c pc line
  else
    match s.portAGate (bankOf addr) q with
    | .held => s
    | .refused => (s.violation addr q 4).invalidLine c pc line
    | .accepted =>
      let v0 := s.portAWord (addr / 8)
      let a := s.eccOutcome (addr / 8) 0 q (v0.setWidth 64) (secSyndrome v0)
      let v1 := a.2.2.portAWord (addr / 8 + 1)
      let b := a.2.2.eccOutcome (addr / 8 + 1) 0 q (v1.setWidth 64) (secSyndrome v1)
      let s := b.2.2
      s.setCx c ((s.cx c).addLine pc ⟨BitVec.ofNat 28 line, BitVec.ofNat 128 (a.1.toNat + b.1.toNat * 2 ^ 64), false⟩)

/-- FRONT_END_LINE_FETCH (R130, R173): the next line that the decode being served needs is read. -/
def State.lineFetch (s : State) (c : Nat) : State :=
  let q := quireOf c
  if s.unitOn (domQuire q) ∧ s.decodeHead q = some c then
    let pc := s.get (F.CTX_OPC_OPC c)
    match decodeAt (s.cx c).lines pc 0 with
    | .missing i => s.fetchLine c pc ((pc + i) % 2 ^ 32 / 16)
    | .done _ => s
  else s

/-- DECODE_COMPLETE (R132): the decode being served completes once its lines are held; condition 31 becomes true. -/
def State.decodeComplete (s : State) (c : Nat) : State :=
  let q := quireOf c
  if s.unitOn (domQuire q) ∧ s.decodeHead q = some c then
    let pc := s.get (F.CTX_OPC_OPC c)
    let f := s.free
    match decodeAt (s.cx c).lines pc f.1 with
    | .missing _ => s
    | .done d =>
      let s := f.2.setCx c { s.cx c with nxt := some d }
      s.setQu q { s.qu q with dq := (s.qu q).dq.tail }
  else s

end Sys2Proof.Machine
end

