-- ==== Sys2Proof/Machine/Queues.lean ====
section
/-! DEFINITION. The hardware queues (chapter 07): descriptors and their code (R194-R198), grants (R205), decisions (R199-R202,
R209, R210), element accesses (R193, R199, R203), watermarks (R207, R208), host descriptor writes (R195). A requester other
than a quire is granted and served in its own command, after the operations granted before it (log entry 9). -/

namespace Sys2Proof.Machine

/-- A slice's register page (R212). -/
def slicePage (k : Nat) : Nat := 0x61 + k

/-! Descriptors. -/

/-- The error pattern standing in a stored descriptor word (R198): word 0 is CFG, word 1 PTR. -/
def State.qdPattern (s : State) (n word : Nat) : BitVec 72 := tget (fun _ => (0 : BitVec 72)) s.qdErr (2 * n + word)

/-- A descriptor word rewritten with fresh check bits. -/
def State.qdHeal (s : State) (n word : Nat) : State :=
  { s with qdErr := tset (fun _ => (0 : BitVec 72)) (2 * n + word) 0 s.qdErr }

/-- A read of a descriptor word (R198): corrected and queued for its write-back, or uncorrectable, which disables the queue. -/
def State.qdTouch (s : State) (n word : Nat) : State :=
  let p := s.qdPattern n word
  if p = 0 then s
  else
    let syn := secSyndrome p
    match secDecode (p.setWidth 64) syn with
    | (_, .ok) => s
    | (_, .corrected) =>
      let k := n % 16
      let s := s.inc F.QMG_DERR_CORR
      if (s.sl k).wback.contains (n, word == 1) then s
      else s.setSl k { s.sl k with wback := (s.sl k).wback ++ [(n, word == 1)] }
    | (_, .poisoned) =>
      let s := ((s.inc F.QMG_DERR_UNC).err 0x60).put (F.QD_CFG_EN n) 0
      let s := ((s.put F.QMG_DLOG_QUEUE n).put F.QMG_DLOG_WORD word).put F.QMG_DLOG_SYND syn.toNat
      s.occur 0x044 (sourceOfPage (slicePage (n % 16))) false (BitVec.ofNat 64 (n + word * 2 ^ 14)) (syn.setWidth 64) 0

/-- The operations granted on a queue and not yet complete. -/
def State.qBusy (s : State) (n : Nat) : Bool :=
  let k := s.sl (n % 16)
  k.granted.any (fun r => r.1.queue == n) || k.accesses.any (fun a => a.req.queue == n)

/-- A queue's capacity in elements (R193). -/
def State.qCap (s : State) (n : Nat) : Nat := 2 ^ (s.get (F.QD_CFG_LOG2SZ n) - 3)

/-- The committed count (R194). -/
def State.qCount (s : State) (n : Nat) : Nat :=
  (s.get (F.QD_PTR_TAIL n) + 2 ^ 18 - s.get (F.QD_PTR_HEAD n)) % 2 ^ 18

/-- How many accepted operations of a kind on a queue wait for their element access (R199). -/
def State.qPending (s : State) (n : Nat) (push : Bool) : Nat :=
  ((s.sl (n % 16)).accesses.filter (fun a =>
    a.req.queue == n && (if push then a.req.qop == 1 || a.req.qop == 4 else a.req.qop == 2 || a.req.qop == 5))).length

/-- RTAIL and RHEAD (R199). -/
def State.rtail (s : State) (n : Nat) : Nat := (s.get (F.QD_PTR_TAIL n) + s.qPending n true) % 2 ^ 18
def State.rhead (s : State) (n : Nat) : Nat := (s.get (F.QD_PTR_HEAD n) + s.qPending n false) % 2 ^ 18

/-- The watermark evaluated (R207, R208): met, it is disarmed and the notification line posted. -/
def State.watermark (s : State) (n : Nat) : State :=
  let c := s.qCount n
  let wm := s.get (F.QD_PTR_WM n)
  let met := if s.on (F.QD_PTR_WMDIR n) then decide (c ≤ wm) else decide (wm ≤ c)
  if s.on (F.QD_PTR_ARMED n) && met then (s.put (F.QD_PTR_ARMED n) 0).post (0x800 + s.get (F.QD_CFG_NOTIFY n)) else s

/-! Decisions. -/

/-- Operation codes of R50. -/
def qopPushes (qop : Nat) : Bool := qop == 1 || qop == 4
def qopTakes (qop : Nat) : Bool := qop == 2 || qop == 3 || qop == 5

/-- The port a port queue's block side or port side pops from, and who may push to it (R209, R210, R302, R395): whether `port` may
perform `qop` on port queue `n`. -/
def portMay (port qop n : Nat) : Bool :=
  if 16284 ≤ n ∧ n ≤ 16347 then
    if qopPushes qop then decide (port ≤ 32) else decide (port = 59 + (n - 16284) / 16)
  else if n = 16348 then decide (port = 58)
  else if qopPushes qop then decide (port ≤ 31)
  else if n ≤ 16271 then decide (port = 33 + (n - 16256))
  else if n ≤ 16279 then decide (port = 49 + (n - 16272))
  else decide (port = 57)

/-- The cause of a refusal, 0 for none (R201, R210, R212). `en` is EN at the grant. -/
def State.refusalCause (s : State) (port qop n : Nat) (en : Bool) : Nat :=
  if 16349 ≤ n then 3
  else if !en then 4
  else if 16256 ≤ n then (if portMay port qop n then 0 else 6)
  else if port ≤ 31 then
    let own := s.get (F.QD_CFG_OWN n)
    if (qopTakes qop || qop == 6) && decide (own ≤ 31) && own != port then 5 else 0
  else if port = 32 ∨ (59 ≤ port ∧ port ≤ 62) then
    if qopTakes qop && s.get (F.QD_CFG_OWN n) != 0x3F then 5 else 0
  else 6

/-- What a slice decides of an operation (R199-R202). -/
inductive Verdict where
  | refused (cause : Nat)
  | full
  | empty
  | slot (index : Nat)
  | armed
  deriving DecidableEq, Repr

/-- The decision on an operation (R199, R200). -/
def State.verdict (s : State) (port qop n : Nat) (en : Bool) : Verdict :=
  let cause := s.refusalCause port qop n en
  if cause ≠ 0 then .refused cause
  else if qop = 6 then .armed
  else if qopPushes qop then
    let t := s.rtail n
    if (t + 2 ^ 18 - s.get (F.QD_PTR_HEAD n)) % 2 ^ 18 < s.qCap n then .slot t else .full
  else
    let h := s.rhead n
    if (s.get (F.QD_PTR_TAIL n) + 2 ^ 18 - h) % 2 ^ 18 = 0 then .empty else .slot h

/-- A counted event of a slice (R200, R201, R203, R212, R417): its counter, ERRCNT, LAST, STATUS, its event and its record. -/
def State.qEvent (s : State) (port n cause : Nat) (a1 : Word) (who : Nat) : State :=
  let k := n % 16
  let s := s.err (slicePage k)
  let s := match cause with
    | 1 => ((s.inc (F.QSL_OVF_OVFCNT k)).put (F.QSL_STATUS_OVFSEEN k) 1)
    | 2 => ((s.inc (F.QSL_OVF_UNFCNT k)).put (F.QSL_STATUS_UNFSEEN k) 1)
    | 7 => ((s.inc (F.QSL_REF_POISCNT k)).put (F.QSL_STATUS_POISSEEN k) 1)
    | _ => ((s.inc (F.QSL_REF_REFCNT k)).put (F.QSL_STATUS_REFSEEN k) 1)
  let s := ((s.put (F.QSL_LAST_QUEUE k) n).put (F.QSL_LAST_CAUSE k) cause).put (F.QSL_LAST_PORT k) port
  let on := match cause with
    | 1 => F.QSL_EVEN_ONOVF k
    | 2 => F.QSL_EVEN_ONUNF k
    | 7 => F.QSL_EVEN_ONPOIS k
    | _ => F.QSL_EVEN_ONREF k
  let s := s.postIf (s.on on) (s.get (F.QSL_EVEN_EV k))
  let code := match cause with | 1 => 0x040 | 2 => 0x041 | 7 => 0x043 | _ => 0x042
  s.occur code (sourceOfPage (slicePage k)) false (BitVec.ofNat 64 (n + port * 2 ^ 16 + cause * 2 ^ 24)) a1 (BitVec.ofNat 64 who)

/-- The argument of a record that is the push data, or 0 for another operation (R417). -/
def pushData (qop : Nat) (d : Word) : Word := if qopPushes qop then d else 0

/-- What a verdict other than acceptance counts (R200, R201, R210). -/
def State.countVerdict (s : State) (port qop n : Nat) (d : Word) (who : Nat) (v : Verdict) : State :=
  match v with
  | .refused cause => s.qEvent port n cause (pushData qop d) who
  | .full => if qop = 1 then s.qEvent port n 1 d who else s
  | .empty => if (qop == 2 || qop == 3) && decide (port ≤ 31) then s.qEvent port n 2 0 who else s
  | _ => s

/-- WMARM accepted (R200, R208). -/
def State.arm (s : State) (n : Nat) : State := (s.put (F.QD_PTR_ARMED n) 1).watermark n

/-! Element accesses. -/

/-- The address of an element index's word (R193), numbered in 64-bit words. -/
def State.elemWord (s : State) (n index : Nat) : Nat := (s.get (F.QD_CFG_BASE n) + index % s.qCap n) % 2 ^ 22

/-- Whether the bank of an element answers Port B now (R174, R175, R177). -/
def State.elemReady (s : State) (n index : Nat) : Bool :=
  let w := s.elemWord n index
  s.unitOn (domBank (w / 32768)) && !s.portBWaits (w / 32768) .queueManager [w]

/-- An element access that its bank does not answer: a stall at Port B of a bank that runs is counted (R174). -/
def State.elemWait (s : State) (n index : Nat) : State :=
  let bank := s.elemWord n index / 32768
  if s.unitOn (domBank bank) then s.portBStall bank .queueManager else s

/-- TAIL or HEAD advances (R199), the descriptor word is rewritten, and the watermark evaluated. -/
def State.advance (s : State) (n : Nat) (f : RF) : State := ((s.put f (s.get f + 1)).qdHeal n 1).watermark n

/-- The access of an accepted operation's element, and the pointer's advance (R199, R203): the element, whether it
is poisoned, and the state. -/
def State.elemAccess (s : State) (port qop n index : Nat) (d : Word) (who : Nat) : Word × Bool × State :=
  let w := s.elemWord n index
  let bank := w / 32768
  let refused := s.marchRefuses bank
  let s := if refused then s.err (bankPage bank) else s.takeB bank (portBCode .queueManager) 1
  if qopPushes qop then
    let s := if refused then s else s.portBWrite w 0x24 d 255
    (0, false, s.advance n (F.QD_PTR_TAIL n))
  else
    let r := if refused then ((0 : Word), SecOut.ok, s) else s.eccRead w 1 0x24
    let s := if r.2.1 = .poisoned then r.2.2.qEvent port n 7 r.1 who else r.2.2
    (r.1, r.2.1 == .poisoned, if qop = 3 then s else s.advance n (F.QD_PTR_HEAD n))

/-- The context number of an operation's record, 0x7FF for one of no quire (R417). -/
def QTag.who : QTag → Nat
  | .ctx c _ => c
  | _ => 0x7FF

/-- The list with the first element that satisfies `p` removed. -/
def dropFirst {α : Type} (p : α → Bool) : List α → List α
  | [] => []
  | a :: as => if p a then as else a :: dropFirst p as

/-- ELEMENT_ACCESS_COMPLETE (R199): the oldest accepted access of a queue completes. An access whose bank does not answer waits. -/
def State.elementDone (s : State) (n : Nat) : State :=
  let k := n % 16
  match (s.sl k).accesses.find? (fun a => a.req.queue == n) with
  | none => s
  | some a =>
    if s.unitOn (domSlice k) && s.elemReady n a.index then
      let s := s.setSl k { s.sl k with accesses := dropFirst (fun b => b.req.queue == n) (s.sl k).accesses }
      let r := s.elemAccess a.req.port a.req.qop n a.index a.req.data a.req.tag.who
      match a.req.tag with
      | .ctx c id => r.2.2.answerQ c id r.1 true
      | _ => r.2.2
    else if s.unitOn (domSlice k) then s.elemWait n a.index
    else s

/-- Whether STQ faults the context of an operation (R202); in IDLE and FAULTED no fault is taken (R90, R113). -/
def State.strictQ (s : State) (r : QReq) : Bool :=
  match r.tag with
  | .ctx c _ => r.strict && decide (1 ≤ r.qop ∧ r.qop ≤ 3) && (s.cx c).st != .idle && (s.cx c).st != .faulted
  | _ => false

/-- What a strict refusal leaves at the slice (R202, R212): ERRCNT, the sticky bit, LAST and the slice's event; OVFCNT and UNFCNT do not
count, and the fault record takes the place of the slice's (log entry 64). -/
def State.strictSeen (s : State) (r : QReq) (empty : Bool) : State :=
  let k := r.queue % 16
  let s := (s.err (slicePage k)).put (if empty then F.QSL_STATUS_UNFSEEN k else F.QSL_STATUS_OVFSEEN k) 1
  let s := ((s.put (F.QSL_LAST_QUEUE k) r.queue).put (F.QSL_LAST_CAUSE k) (if empty then 2 else 1)).put (F.QSL_LAST_PORT k) r.port
  s.postIf (s.on (if empty then F.QSL_EVEN_ONUNF k else F.QSL_EVEN_ONOVF k)) (s.get (F.QSL_EVEN_EV k))

/-- A class 8 refusal (R202, R114): the operation leaves the context's order without an answer, and a pop latch it would
have filled stays empty. -/
def State.fault8 (s : State) (r : QReq) (empty : Bool) : State :=
  match r.tag with
  | .ctx c id =>
    let s := s.strictSeen r empty
    let x := s.cx c
    let qops := x.qops.filter (fun o => o.id != id)
    let s := s.setCx c (deliverQ { x with qops := qops } qops)
    s.strictFault c 8 r.off (BitVec.ofNat 64 (r.queue + b2n empty * 2 ^ 16)) (pushData r.qop r.data)
  | _ => s

/-- An operation of a context is answered at its decision, and its hold released (R115, R200, R201). -/
def State.answerOp (s : State) (r : QReq) (v : Word) (ok : Bool) : State :=
  match r.tag with
  | .ctx c id => (s.answerQ c id v ok).releaseHold c false r.strict
  | _ => s

/-- The decision of a granted operation (R199-R202). -/
def State.qDecide (s : State) (r : QReq) (en : Bool) : State :=
  let v := s.verdict r.port r.qop r.queue en
  match v with
  | .refused _ => (s.countVerdict r.port r.qop r.queue r.data r.tag.who v).answerOp r 0 false
  | .full => if s.strictQ r then s.fault8 r false else (s.countVerdict r.port r.qop r.queue r.data r.tag.who v).answerOp r 0 false
  | .empty => if s.strictQ r then s.fault8 r true else (s.countVerdict r.port r.qop r.queue r.data r.tag.who v).answerOp r 0 false
  | .armed => (s.arm r.queue).answerOp r 0 true
  | .slot i =>
    let k := r.queue % 16
    let s := s.setSl k { s.sl k with accesses := (s.sl k).accesses ++ [⟨r, i⟩] }
    match r.tag with
    | .ctx c _ => s.releaseHold c false r.strict
    | _ => s

/-- The slice's oldest granted operation is decided. -/
def State.decideNext (s : State) (k : Nat) : State :=
  match (s.sl k).granted with
  | [] => s
  | r :: rest => (s.setSl k { s.sl k with granted := rest }).qDecide r.1 r.2

/-- PUSH, POP, PEEK, PUSHIF, POPIF, WMARM (R200): the slice's oldest granted operation is decided, if it is this one. -/
def State.decideRow (s : State) (n qop : Nat) : State :=
  let k := n % 16
  match (s.sl k).granted with
  | [] => s
  | r :: _ => if r.1.queue = n ∧ r.1.qop = qop ∧ s.unitOn (domSlice k) = true then s.decideNext k else s

/-! Grants. -/

/-- How far a port is after the last port served in the rotation (R205). -/
def turnsAfter (last port : Nat) : Nat := (port + 127 - last) % 64

/-- A wait for a grant in MAXWAIT (R212). -/
def State.noteWait (s : State) (k w : Nat) : State :=
  let wait := Nat.min w 65535
  if s.get (F.QSL_MAXWAIT_MAXWAIT k) < wait then s.put (F.QSL_MAXWAIT_MAXWAIT k) wait else s

/-- One grant: the oldest request of the next port in rotation that has one and is not `skip` (R204, R205, R212). -/
def State.grantOne (s : State) (k skip : Nat) : State :=
  let sl := s.sl k
  let reqs := sl.reqs.filter (fun r => r.port != skip)
  let near := minD 64 (reqs.map (fun r => turnsAfter sl.lastPort r.port))
  match reqs.find? (fun r => turnsAfter sl.lastPort r.port == near) with
  | none => s
  | some r =>
    let rest := dropFirst (fun o => o.port == r.port) sl.reqs
    let rest := match rest.find? (fun o => o.port == r.port) with
      | some _ => rest.map (fun o => if o.port = r.port then { o with since := Nat.max o.since (s.fclk + 1) } else o)
      | none => rest
    let s := s.setSl k { sl with reqs := rest, lastPort := r.port }
    let s := (s.qdTouch r.queue 0).qdTouch r.queue 1
    let s := s.setSl k { s.sl k with granted := (s.sl k).granted ++ [(r, s.on (F.QD_CFG_EN r.queue))] }
    s.noteWait k (s.fclk - r.since)

/-- The grants QUEUE_GRANT has made in this FCLK (R205). -/
def State.grantsNow (s : State) (k : Nat) : Nat := if (s.sl k).grants.1 = s.fclk then (s.sl k).grants.2 else 0

/-- A grant of QUEUE_GRANT, counted in its FCLK; with no request of another port than `skip`, nothing. -/
def State.grantCounted (s : State) (k skip : Nat) : State :=
  let t := s.grantOne k skip
  if (t.sl k).reqs.length < (s.sl k).reqs.length then t.setSl k { t.sl k with grants := (s.fclk, s.grantsNow k + 1) } else t

/-- QUEUE_GRANT (R205): up to two grants in an FCLK, to different ports. -/
def State.queueGrant (s : State) (k : Nat) : State :=
  if s.unitOn (domSlice k) then
    match s.grantsNow k with
    | 0 =>
      let s1 := s.grantCounted k 64
      if s1.grantsNow k = 1 then s1.grantCounted k (s1.sl k).lastPort else s1
    | 1 => s.grantCounted k (s.sl k).lastPort
    | _ => s
  else s

/-! Requesters other than a quire. -/

/-- Every operation of a slice granted before is decided, and the accesses of a queue complete, oldest first. -/
def State.drainQueue (s : State) (n : Nat) : State :=
  let k := n % 16
  let s := (List.range (s.sl k).granted.length).foldl (fun s _ => s.decideNext k) s
  (List.range (s.sl k).accesses.length).foldl (fun s _ => s.elementDone n) s

/-- The outcome of an operation of a boundary port, a stitch port, the DMA group or the colophon. -/
inductive QOut where
  | waits
  | refused (cause : Nat)
  | full
  | empty
  | ok (value : Word) (poisoned : Bool)
  deriving DecidableEq, Repr

/-- The requests that stand before `port` in the rotation, granted in its order (R205). -/
def State.grantsBefore (s : State) (k port : Nat) : Nat → State
  | 0 => s
  | n + 1 =>
    let sl := s.sl k
    if minD 64 (sl.reqs.map (fun r => turnsAfter sl.lastPort r.port)) < turnsAfter sl.lastPort port then
      (s.grantOne k 64).grantsBefore k port n
    else s

/-- The turn of a port other than a quire's (R205, R212): the requests before it in the rotation are granted, then it is served. -/
def State.takeTurn (s : State) (k port : Nat) : State :=
  let s := s.grantsBefore k port (s.sl k).reqs.length
  let since := tget (fun _ => 0) (s.sl k).since port
  let s := s.setSl k { s.sl k with lastPort := port, since := tset (fun _ => 0) port 0 (s.sl k).since }
  if since = 0 then s else s.noteWait k (s.fclk + 1 - since)

/-- A request of a port other than a quire's waits at a slice that does not run (R205, R212). -/
def State.waitTurn (s : State) (k port : Nat) : State :=
  if tget (fun _ => 0) (s.sl k).since port = 0 then
    s.setSl k { s.sl k with since := tset (fun _ => 0) port (s.fclk + 1) (s.sl k).since }
  else s

/-- An operation of a requester other than a quire, granted in its turn, decided and completed (R199-R205); each takes an FCLK of its
own. It waits where the slice does not run or the ring's bank does not answer; a slice in OFF is an absent endpoint and refuses it
(R365, log entry 17). -/
def State.portOp (s0 : State) (port qop n : Nat) (d : Word) : QOut × State :=
  let k := n % 16
  if !s0.unitKept (domSlice k) then (.refused 0, s0)
  else if !s0.unitOn (domSlice k) then (.waits, s0.waitTurn k port)
  else
    let s := (s0.takeTurn k port).drainQueue n
    let s := (s.qdTouch n 0).qdTouch n 1
    let v := s.verdict port qop n (s.on (F.QD_CFG_EN n))
    match v with
    | .refused cause => (.refused cause, s.countVerdict port qop n d 0x7FF v)
    | .full => (.full, s.countVerdict port qop n d 0x7FF v)
    | .empty => (.empty, s)
    | .armed => (.ok 0 false, s.arm n)
    | .slot i =>
      if s.elemReady n i && !(s.sl k).accesses.any (fun a => a.req.queue == n) then
        let r := s.elemAccess port qop n i d 0x7FF
        (.ok r.1 r.2.1, r.2.2)
      else (.waits, s0.elemWait n i)

/-! Host descriptor writes (R195). -/

/-- A rejected descriptor write (R195, R212). -/
def State.qdRej (s : State) (n : Nat) : State := s.rej (slicePage (n % 16))

/-- Whether a ring crosses the end of the bank that holds its start (R195). -/
def ringCrosses (base log2sz : Nat) : Bool := decide (2 ^ 18 < base * 8 % 2 ^ 18 + 2 ^ log2sz)

/-- QD_CFG_WRITE (R195): a write of CFG, presented through the host window's port 63, commits at its grant. -/
def State.qdCfgWrite (s : State) (n : Nat) (v : Word) : State :=
  let s := s.takeTurn (n % 16) 63
  if s.on F.QMG_LOCK_DESC then s.qdRej n
  else
    let s := s.qdTouch n 0
    let cur := s.reg (R.QD_CFG n)
    let badSz := !decide (6 ≤ fld v 24 5 ∧ fld v 24 5 ≤ 20)
    let badOwn := decide (32 ≤ fld v 32 6 ∧ fld v 32 6 ≤ 62)
    let sz := if badSz then fld cur 24 5 else fld v 24 5
    let own := if badOwn then fld cur 32 6 else fld v 32 6
    let base := fld v 0 22
    let en := fld v 63 1
    let new : Word := BitVec.ofNat 64 (base + sz * 2 ^ 24 + own * 2 ^ 32 + fld v 40 10 * 2 ^ 40 + en * 2 ^ 63)
    let commit := fun (s : State) => (s.setReg (R.QD_CFG n) new).qdHeal n 0
    if fld cur 63 1 = 1 then
      if base ≠ fld cur 0 22 ∨ sz ≠ fld cur 24 5 ∨ own ≠ fld cur 32 6 then s.qdRej n
      else if badSz || badOwn then (commit s).qdRej n else commit s
    else if en = 1 ∧ (ringCrosses base sz ∨ ¬ (6 ≤ sz ∧ sz ≤ 20)) then
      (s.qdRej n).occur 0x045 (sourceOfPage (slicePage (n % 16))) false (BitVec.ofNat 64 n) new
        (BitVec.ofNat 64 (b2n (!decide (6 ≤ sz ∧ sz ≤ 20)) + 2 * b2n (ringCrosses base sz)))
    else if badSz || badOwn then (commit s).qdRej n
    else commit s

/-- QD_PTR_WRITE (R195, R207): a write of PTR commits at its grant, and the watermark is evaluated. -/
def State.qdPtrWrite (s : State) (n : Nat) (v : Word) : State :=
  let s := s.takeTurn (n % 16) 63
  if s.on F.QMG_LOCK_DESC then s.qdRej n
  else
    let s := (s.qdTouch n 0).qdTouch n 1
    let cur := s.reg (R.QD_PTR n)
    let moves := fld v 0 36 != fld cur 0 36
    if moves && (s.on (F.QD_CFG_EN n) || s.qBusy n) then s.qdRej n
    else (((s.setReg (R.QD_PTR n) (BitVec.ofNat 64 (fld v 0 56))).qdHeal n 1).watermark n)

/-- A descriptor word as it stands stored: an uncorrectable one is left as read (R198). -/
def State.qdWord (s : State) (n word : Nat) : Word :=
  let home := s.reg (if word = 0 then R.QD_CFG n else R.QD_PTR n)
  let p := s.qdPattern n word
  match (secDecode (p.setWidth 64) (secSyndrome p)).2 with
  | .poisoned => home ^^^ p.setWidth 64
  | _ => home

/-- A host read of a descriptor word at its grant (R195, R198): the word as read, after what its code makes of it. -/
def State.qdRead (s : State) (n word : Nat) : Word × State :=
  let s := (s.takeTurn (n % 16) 63).qdTouch n word
  (s.qdWord n word, s)

/-- DESCRIPTOR_WRITEBACK (R198): the slice's oldest corrected descriptor word is written back. -/
def State.descWriteback (s : State) (k : Nat) : State :=
  match (s.sl k).wback with
  | [] => s
  | (n, ptr) :: rest =>
    if s.unitOn (domSlice k) then
      let s := s.setSl k { s.sl k with wback := rest }
      let word := if ptr then 1 else 0
      let p := s.qdPattern n word
      match secDecode (p.setWidth 64) (secSyndrome p) with
      | (_, .corrected) => s.qdHeal n word
      | _ => s
    else s

end Sys2Proof.Machine
end

