-- ==== Sys2Proof/Machine/ControlStore.lean ====
section
/-! DEFINITION. The control store (R20-R23) and its page (R378-R382): the BCH code, reads for execution, the scrubber, host
commits and broadcast, loads from a bank image and folio reloads. -/

namespace Sys2Proof.Machine

/-- A control store's page (R384). -/
def cstPage (q : Nat) : Nat := 0x40 + q

/-! Folio reloads (R382). -/

/-- The contexts of a quire, block-wide numbers (R13). -/
def quireCtxs (q : Nat) : List Nat := (List.range 32).map (fun i => 32 * q + i)

/-- READY contexts whose next word lies in a folio that has become busy go to STALL (R379, R382). -/
def State.stallFolio (s : State) (q : Nat) : State :=
  (quireCtxs q).foldl (fun s c =>
    if (s.cx c).st = .ready ∧ s.folioBusy q (s.cx c).maddr = true then s.setCx c { s.cx c with st := .stall } else s) s

/-- Words read ahead from a folio are read afresh after its reload (R22). -/
def State.rereadFolio (s : State) (q f : Nat) : State :=
  (quireCtxs q).foldl (fun s c =>
    let x := s.cx c
    if x.fetchAddr.toNat / 512 = f ∧ x.word ≠ .empty then s.setCx c { x with word := .empty } else s) s

/-- A reload starts. -/
def State.reloadStart (s : State) (q f : Nat) : State :=
  let base := s.get (F.CST_IMG_IMGBASE q)
  let s := s.setQu q { s.qu q with reload := some ⟨f, f, base, s.get (F.CST_IMG_FIRST q)⟩ }
  let s := (s.put (F.CST_STATUS_RLBUSY q) 1).put (F.CST_STATUS_RLFOL q) f
  s.stallFolio q

/-- Whether a folio may be reloaded now (R382): RLEN set, the folio within the IMG range, its FOLBAD bit clear. -/
def State.reloadable (s : State) (q f : Nat) : Bool :=
  let first := s.get (F.CST_IMG_FIRST q)
  s.on (F.CST_CTRL_RLEN q) && decide (8 ≤ f) && decide (first ≤ f) && decide (f < first + s.get (F.CST_IMG_NFOL q)) &&
    !(s.get (F.CST_FOLBAD_FOLBAD q)).testBit (f - 8)

/-- A reload of folio `f` is asked for by an uncorrectable word (R382): whether it starts, waits or merges, and the state. -/
def State.reloadAsk (s : State) (q f : Nat) : Bool × State :=
  if s.reloadable q f then
    let x := s.qu q
    match x.reload with
    | some l => (true, if l.folio = f ∨ f ∈ x.reloadReq then s else s.setQu q { x with reloadReq := x.reloadReq ++ [f] })
    | none =>
      if x.load.isSome then (true, if f ∈ x.reloadReq then s else s.setQu q { x with reloadReq := x.reloadReq ++ [f] })
      else (true, s.reloadStart q f)
  else (false, s)

/-- The next waiting reload starts, of the oldest waiting folio for which R382 still holds; requests for others lapse. -/
def State.reloadNext (s : State) (q : Nat) : State :=
  match (s.qu q).reloadReq.dropWhile (fun f => !s.reloadable q f) with
  | f :: rest => (s.setQu q { s.qu q with reloadReq := rest }).reloadStart q f
  | [] => s.setQu q { s.qu q with reloadReq := [] }

/-! Reads for execution (R22, R58). -/

/-- A corrected word of RAM is passed to the scrubber (R22). -/
def State.scrubLater (s : State) (q a : Nat) (w : Stored) : State :=
  let x := s.qu q
  if 0x1000 ≤ a ∧ ¬ (x.wback.any (fun e => e.1 == a)) then s.setQu q { x with wback := x.wback ++ [(a, w)] } else s

/-- The word at a context's next address read, checked and corrected. -/
def State.readStore (s : State) (c : Nat) (a : BitVec 14) : State :=
  let q := quireOf c
  let w := s.storeWord q a.toNat
  match bchDecode w with
  | some (v, false) => s.setCx c { s.cx c with word := .good (v.setWidth 192) }
  | some (v, true) =>
    let s := (s.inc (F.QUI_CSERR_CORR q)).scrubLater q a.toNat v
    s.setCx c { s.cx c with word := .good (v.setWidth 192) }
  | none =>
    let s := (s.inc (F.QUI_CSERR_UNC q)).put (F.QUI_CSERR_UADDR q) a.toNat
    let r := s.reloadAsk q (a.toNat / 512)
    r.2.setCx c { r.2.cx c with word := .bad (BitVec.ofNat 16 (bchSyndrome w)) r.1 }

/-- The routine that stands at a context's next address, if it is a shipped one (log entry 6). -/
def Ctx.fetchRoutine (x : Ctx) : Option Routine :=
  let r := match x.inflight with | some i => i.cont | none => x.routine
  match r with
  | some r => some r
  | none => entryRoutine x.fetchAddr

/-- CONTROL_STORE_READ (R58, R22): a started context's word register, empty, receives its next word. A ROM routine's word is
the routine's next macro-step (log entry 6), read once the one before it has committed. -/
def State.csRead (s : State) (c : Nat) : State :=
  let q := quireOf c
  let x := s.cx c
  if x.word = .empty ∧ x.st ≠ .idle ∧ x.st ≠ .faulted ∧ s.unitOn (domQuire q) = true ∧ s.folioBusy q x.fetchAddr = false then
    match x.inflight, x.fetchRoutine with
    | none, some r => (s.setCx c { x with word := .shipped r, routine := some r }).wantDecode c
    | some i, some r =>
      match i.word with
      | .shipped .start => (s.setCx c { x with word := .shipped r }).wantDecode c
      | .shipped _ => s
      | _ => (s.setCx c { x with word := .shipped r }).wantDecode c
    | _, none => (s.readStore c x.fetchAddr).wantDecode c
  else s

/-- CONTEXT_READY (R87, R22): every cause of R60 has cleared. -/
def State.ctxReady (s : State) (c : Nat) : State :=
  if (s.cx c).st = .stall ∧ s.stalled c = false ∧ s.unitOn (domQuire (quireOf c)) = true then s.settle c else s

/-- SCRUB_WRITEBACK (R22): the oldest corrected word is written back. -/
def State.scrubWriteback (s : State) (q : Nat) : State :=
  match (s.qu q).wback with
  | (a, w) :: rest =>
    if s.unitOn (domQuire q) then (s.setQu q { s.qu q with wback := rest }).setStore q a w else s
  | [] => s

/-- SCRUB_READ (R381): the scrubber reads the word at POS and moves on. -/
def State.scrubRead (s : State) (q : Nat) : State :=
  if s.on (F.CST_CTRL_SCEN q) && s.unitOn (domQuire q) then
    let a := s.get (F.CST_SCRUB_POS q)
    if s.folioBusy q (BitVec.ofNat 14 a) then s
    else
      let s := s.put (F.CST_SCRUB_POS q) (if a = 0x3FFF then 0x1000 else a + 1)
      match bchDecode (s.storeWord q a) with
      | some (_, false) => s
      | some (v, true) => s.scrubLater q a v
      | none => (((s.inc (F.CST_RLCNT_SCRUBUNC q)).occurFree 0x083 (sourceOfPage (cstPage q))).reloadAsk q (a / 512)).2
  else s

/-! Host commits (R378, R380). -/

/-- A committed word at one quire (R23, R378): rejected and counted for a ROM address or under LOCK.CS. -/
def State.cstStore (s : State) (q a : Nat) (w : Micro) : State :=
  if a < 0x1000 ∨ s.on (F.CST_LOCK_CS q) = true then s.rej (cstPage q)
  else
    let x := s.qu q
    (s.setQu q { x with wback := x.wback.filter (fun e => e.1 != a) }).setStore q a (bchEncode w)

/-- CST_WORD_COMMIT (R378): the high half of DATA2 commits the word at ADDR, in every joined quire when the page is joined. -/
def State.cstCommit (s : State) (q : Nat) (d2 : Word) : State :=
  let s := s.setReg (R.CST_DATA q 2) d2
  let w : Micro := d2 ++ s.reg (R.CST_DATA q 1) ++ s.reg (R.CST_DATA q 0)
  let a := s.get (F.CST_ADDR_ADDR q)
  let s :=
    if s.on (F.CST_CTRL_JOIN q) then
      (List.range 32).foldl (fun s k => if s.on (F.CST_CTRL_JOIN k) && s.pageUp (domQuire k) then s.cstStore k a w else s) s
    else s.cstStore q a w
  s.put (F.CST_ADDR_ADDR q) (a + 1)

/-- A host read of DATA0 (R378): the corrected word at ADDR is returned in DATA0 to DATA2. Of an uncorrectable word the spec
states no value, so the data are free values. -/
def State.cstFetch (s : State) (q : Nat) : State :=
  match bchDecode (s.storeWord q (s.get (F.CST_ADDR_ADDR q))) with
  | some (v, _) =>
    ((s.setReg (R.CST_DATA q 0) (v.extractLsb' 0 64)).setReg (R.CST_DATA q 1) (v.extractLsb' 64 64)).setReg (R.CST_DATA q 2)
      (v.extractLsb' 128 64)
  | none =>
    let a := s.free
    let b := a.2.free
    let c := b.2.free
    ((c.2.setReg (R.CST_DATA q 0) a.1).setReg (R.CST_DATA q 1) b.1).setReg (R.CST_DATA q 2) c.1

/-! Loads from a bank image (R379). -/

/-- How the copy of a folio ended. -/
inductive CopyOut where
  | done | bad | held
  deriving DecidableEq, Repr

/-- One 64-bit word of the image read through the quire's bank port. -/
def State.imageWord (s : State) (q addr : Nat) : CopyOut × Word × State :=
  if !inSpace addr then (.bad, 0, s)
  else
    match s.portAGate (bankOf addr) q with
    | .held => (.held, 0, s)
    | .refused => (.bad, 0, s.violation addr q 0)
    | .accepted =>
      match s.portARead (addr / 8) q with
      | (_, .poisoned, s) => (.bad, 0, s)
      | (v, _, s) => (.done, v, s)

/-- Microwords `512 - n` to 511 of a folio copied from its image. -/
def State.copyWords (s : State) (q folio base first : Nat) : Nat → CopyOut × State
  | 0 => (.done, s)
  | n + 1 =>
    let k := 511 - n
    let at_ := base / 8 * 8 + 24 * (512 * (folio - first) + k)
    match s.imageWord q at_ with
    | (.done, d0, s) =>
      match s.imageWord q (at_ + 8) with
      | (.done, d1, s) =>
        match s.imageWord q (at_ + 16) with
        | (.done, d2, s) => (s.setStore q (512 * folio + k) (bchEncode (d2 ++ d1 ++ d0))).copyWords q folio base first n
        | (e, _, s) => (e, s)
      | (e, _, s) => (e, s)
    | (e, _, s) => (e, s)

/-- Whether LOAD is rejected now (R379, R380). -/
def State.loadRefused (s : State) (q : Nat) : Bool :=
  let first := s.get (F.CST_IMG_FIRST q)
  let n := s.get (F.CST_IMG_NFOL q)
  (s.qu q).load.isSome || (s.qu q).reload.isSome || s.on (F.CST_LOCK_CS q) || !decide (8 ≤ first ∧ 1 ≤ n ∧ first + n ≤ 32)

/-- LOAD (R379, R380): a load of the image's folios starts, or is rejected. -/
def State.cstLoad (s : State) (q : Nat) : State :=
  let x := s.qu q
  let first := s.get (F.CST_IMG_FIRST q)
  let n := s.get (F.CST_IMG_NFOL q)
  if s.loadRefused q then s.rej (cstPage q)
  else
    let s := s.setQu q { x with load := some ⟨first, first + n - 1, s.get (F.CST_IMG_IMGBASE q), first⟩ }
    (s.put (F.CST_STATUS_LBUSY q) 1).stallFolio q

/-- A load ends. -/
def State.loadEnd (s : State) (q : Nat) : State :=
  let s := (s.setQu q { s.qu q with load := none }).put (F.CST_STATUS_LBUSY q) 0
  (s.postIf (s.on (F.CST_EVEN_ONLOAD q)) (s.get (F.CST_EVEN_EV q))).reloadNext q

/-- FOLIO_LOAD_COMPLETE (R379): the load's current folio is copied; the load goes on, ends, or ends on a bad image word. -/
def State.folioLoaded (s : State) (q : Nat) : State :=
  match (s.qu q).load with
  | none => s
  | some l =>
    if !s.unitOn (domQuire q) then s
    else
      match s.copyWords q l.folio l.base l.first 512 with
      | (.held, _) => s
      | (.bad, s) => ((s.put (F.CST_STATUS_LOADERR q) 1).occurFree 0x087 (sourceOfPage (cstPage q))).loadEnd q
      | (.done, s) =>
        if l.folio < l.last then (s.setQu q { s.qu q with load := some { l with folio := l.folio + 1 } }).stallFolio q
        else s.loadEnd q

/-- FOLIO_RELOAD_COMPLETE (R382): the reload completes or fails, the held contexts read their words afresh, and the next
waiting reload starts. -/
def State.folioReloaded (s : State) (q : Nat) : State :=
  match (s.qu q).reload with
  | none => s
  | some l =>
    if !s.unitOn (domQuire q) then s
    else
      let finish := fun (s : State) =>
        let s := (s.setQu q { s.qu q with reload := none }).put (F.CST_STATUS_RLBUSY q) 0
        let s := s.rereadFolio q l.folio
        (s.postIf (s.on (F.CST_EVEN_ONRELOAD q)) (s.get (F.CST_EVEN_EV q))).reloadNext q
      match s.copyWords q l.folio l.base l.first 512 with
      | (.held, _) => s
      | (.bad, s) =>
        let s := s.put ⟨R.CST_FOLBAD q, l.folio, 1⟩ 1
        finish ((s.inc (F.CST_RLCNT_RLFAIL q)).occurFree 0x081 (sourceOfPage (cstPage q)))
      | (.done, s) => finish (s.inc (F.CST_RLCNT_RLCNT q))

end Sys2Proof.Machine
end

