-- ==== Sys2Proof/Machine/MicroRows.lean ====
section
/-! DEFINITION. The commands of the sequencer, the datapath and the contexts (chapters 02 to 04): the slot table's choice
(R59, R95, R96), a word's issue and commit, the rows that are one operation of a word (log entry 3), START, RESUME and STOP
(R88-R91), the divider (R78) and the Olupo return stack's host writes (R151). -/

namespace Sys2Proof.Machine

/-- The outcome type of a command's meaning. -/
abbrev Res := Host.Outcome State Fault Refusal

/-- The microword that holds the given fields (position, width, value) and zero elsewhere: the no-action value of every field (R25). -/
def mwd (fs : List (Nat × Nat × Nat)) : Micro := fs.foldl (fun w f => setFld w f.1 f.2.1 f.2.2) 0

/-! The slot table. -/

/-- Whether a context is READY with its word (R95). -/
def State.readyNow (s : State) (c : Nat) : Bool :=
  let x := s.cx c
  x.st == .ready && x.inflight.isNone && x.word != .empty && !s.stalled c

/-- The cycle length of the word a context holds (R47, R167). -/
def State.wordCl (s : State) (c : Nat) : Nat :=
  match (s.cx c).word with
  | .good w => effCl w
  | .shipped r => s.routineCl c r
  | _ => 1

/-- Whether a context's word fits in the cycles from entry `pos` on (R95). -/
def State.fits (s : State) (q c pos : Nat) : Bool :=
  (List.range (s.wordCl c - 1)).all (fun j =>
    let k := (pos + j + 1) % 64
    let kind := s.get (F.QUI_SLOT_KIND q k)
    !(kind == 2) && !(kind == 1 && s.get (F.QUI_SLOT_CTX q k) + 32 * q != c))

/-- The highest-priority ready context that fits, in round-robin order among equals (R95). -/
def State.pickCtx (s : State) (q minpri pos : Nat) : Option Nat :=
  let rr := s.get (F.QUI_RRSTART_RRSTART q)
  let order := (List.range 32).map (fun i => 32 * q + (rr + i) % 32)
  let good := order.filter (fun c => s.readyNow c && s.fits q c pos)
  (List.range 8).reverse.findSome? (fun p =>
    if minpri ≤ p then good.find? (fun c => s.get (F.CTX_CTXCFG_PRI c) == p) else none)

/-- The context the slot table chooses for the cycle of entry `pos` (R95). -/
def State.chooseCtx (s : State) (q pos : Nat) : Option Nat :=
  let kind := s.get (F.QUI_SLOT_KIND q pos)
  let own := 32 * q + s.get (F.QUI_SLOT_CTX q pos)
  if kind = 2 then none
  else if kind = 1 then
    if s.readyNow own && s.fits q own pos then some own
    else if s.on (F.QUI_SLOT_FALL q pos) then s.pickCtx q (s.get (F.QUI_SLOT_MINPRI q pos)) pos
    else none
  else s.pickCtx q (s.get (F.QUI_SLOT_MINPRI q pos)) pos

/-- Entries consumed from the slot position on, `rrstart` advancing when entry 63 is among them (R59, R96). -/
def State.consumeSlots (s : State) (q n : Nat) : State :=
  let pos := (s.qu q).slotPos
  let s := if 64 ≤ pos + n then s.put (F.QUI_RRSTART_RRSTART q) (s.get (F.QUI_RRSTART_RRSTART q) + 1) else s
  s.setQu q { s.qu q with slotPos := (pos + n) % 64 }

/-- MICROWORD_ISSUE (R58, R95): the entry of this cycle chooses a context and its word issues, occupying the entries of its
cycle length; with none chosen the entry passes. A context faulted before its issue leaves the datapath free. -/
def State.issueStep (s : State) (q : Nat) : State :=
  if !s.unitOn (domQuire q) then s
  else
    match s.chooseCtx q (s.qu q).slotPos with
    | none => s.consumeSlots q 1
    | some c =>
      let n := s.wordCl c
      let s := s.issueWord c (s.cx c).word
      s.consumeSlots q (if (s.cx c).inflight.isSome then n else 1)

def execMicrowordIssue (q : Fin 32) (s : State) : Res := .next (s.issueStep q)

/-- MICROWORD_COMMIT (R58). -/
def execMicrowordCommit (c : Fin 1024) (s : State) : Res :=
  .next (if s.unitOn (domQuire (quireOf c)) then s.commitWord c else s)

/-! Sequencer forms (R28). -/

def execCont (c : Fin 1024) (s : State) : Res := .next (s.runMicro c (mwd []))

def execJump (c : Fin 1024) (target : BitVec 14) (s : State) : Res :=
  .next (s.runMicro c (mwd [(188, 4, 1), (167, 14, target.toNat)]))

def execBrt (c : Fin 1024) (cond : BitVec 6) (cpol : Bool) (target : BitVec 14) (s : State) : Res :=
  .next (s.runMicro c (mwd [(188, 4, 2), (182, 6, cond.toNat), (181, 1, b2n cpol), (167, 14, target.toNat)]))

def execBrf (c : Fin 1024) (cond : BitVec 6) (cpol : Bool) (target : BitVec 14) (s : State) : Res :=
  .next (s.runMicro c (mwd [(188, 4, 3), (182, 6, cond.toNat), (181, 1, b2n cpol), (167, 14, target.toNat)]))

def execCall (c : Fin 1024) (target : BitVec 14) (s : State) : Res :=
  .next (s.runMicro c (mwd [(188, 4, 4), (167, 14, target.toNat)]))

def execCallc (c : Fin 1024) (cond : BitVec 6) (cpol : Bool) (target : BitVec 14) (s : State) : Res :=
  .next (s.runMicro c (mwd [(188, 4, 5), (182, 6, cond.toNat), (181, 1, b2n cpol), (167, 14, target.toNat)]))

def execRet (c : Fin 1024) (cond : BitVec 6) (cpol : Bool) (s : State) : Res :=
  .next (s.runMicro c (mwd [(188, 4, 6), (182, 6, cond.toNat), (181, 1, b2n cpol)]))

def execDisp (c : Fin 1024) (s : State) : Res := .next (s.runMicro c (mwd [(188, 4, 7)]))

def execTdisp (c : Fin 1024) (width : BitVec 6) (areg : BitVec 4) (shamt : BitVec 6) (target : BitVec 14) (s : State) : Res :=
  .next (s.runMicro c (mwd [(188, 4, 8), (182, 6, width.toNat), (167, 14, target.toNat), (150, 4, areg.toNat), (126, 6, shamt.toNat)]))

def execLoop (c : Fin 1024) (cpol : Bool) (target : BitVec 14) (s : State) : Res :=
  .next (s.runMicro c (mwd [(188, 4, 9), (181, 1, b2n cpol), (167, 14, target.toNat)]))

def execWait (c : Fin 1024) (cond : BitVec 6) (cpol poll : Bool) (target : BitVec 14) (s : State) : Res :=
  .next (s.runMicro c (mwd [(188, 4, 10), (182, 6, cond.toNat), (181, 1, b2n cpol), (167, 14, target.toNat), (164, 1, b2n poll)]))

def execPark (c : Fin 1024) (target : BitVec 14) (s : State) : Res :=
  .next (s.runMicro c (mwd [(188, 4, 11), (167, 14, target.toNat)]))

/-! Datapath operations (R43-R46, R55). -/

/-- ALU_OPERATION (R43). -/
def execAluOperation (c : Fin 1024) (aluop : BitVec 6) (areg : BitVec 4) (bsel : BitVec 3) (breg : BitVec 4) (dsel : BitVec 3)
    (dreg : BitVec 4) (flagw : BitVec 4) (imm : BitVec 64) (s : State) : Res :=
  .next (s.runMicro c (mwd [(154, 6, aluop.toNat), (150, 4, areg.toNat), (146, 4, breg.toNat), (143, 3, bsel.toNat),
    (139, 4, dreg.toNat), (136, 3, dsel.toNat), (122, 4, flagw.toNat), (0, 64, imm.toNat)]))

/-- SHIFTER_OPERATION (R44): ALUOP stays NONE, so its input is the A operand. -/
def execShifterOperation (c : Fin 1024) (shop : BitVec 4) (shamt : BitVec 6) (areg : BitVec 4) (bsel : BitVec 3) (breg : BitVec 4)
    (dsel : BitVec 3) (dreg : BitVec 4) (flagw : BitVec 4) (imm : BitVec 64) (s : State) : Res :=
  .next (s.runMicro c (mwd [(150, 4, areg.toNat), (146, 4, breg.toNat), (143, 3, bsel.toNat), (139, 4, dreg.toNat),
    (136, 3, dsel.toNat), (132, 4, shop.toNat), (126, 6, shamt.toNat), (122, 4, flagw.toNat), (0, 64, imm.toNat)]))

/-- PREDICATE_WRITE (R55). -/
def execPredicateWrite (c : Fin 1024) (pset : BitVec 4) (cond : BitVec 6) (cpol : Bool) (s : State) : Res :=
  .next (s.runMicro c (mwd [(182, 6, cond.toNat), (181, 1, b2n cpol), (89, 4, pset.toNat)]))

/-- A word that carries one multiply or divide operation, with CL at the operation's minimum (R46, R47). -/
def mduWord (op areg bsel breg dsel dreg imm : Nat) : Micro :=
  mwd [(165, 2, minCl op - 1), (150, 4, areg), (146, 4, breg), (143, 3, bsel), (139, 4, dreg), (136, 3, dsel), (118, 4, op), (0, 64, imm)]

def execMul (c : Fin 1024) (areg : BitVec 4) (bsel : BitVec 3) (breg : BitVec 4) (dsel : BitVec 3) (dreg : BitVec 4)
    (imm : BitVec 64) (s : State) : Res :=
  .next (s.runMicro c (mduWord 1 areg.toNat bsel.toNat breg.toNat dsel.toNat dreg.toNat imm.toNat))

def execMulhs (c : Fin 1024) (areg : BitVec 4) (bsel : BitVec 3) (breg : BitVec 4) (dsel : BitVec 3) (dreg : BitVec 4)
    (imm : BitVec 64) (s : State) : Res :=
  .next (s.runMicro c (mduWord 2 areg.toNat bsel.toNat breg.toNat dsel.toNat dreg.toNat imm.toNat))

def execMulhu (c : Fin 1024) (areg : BitVec 4) (bsel : BitVec 3) (breg : BitVec 4) (dsel : BitVec 3) (dreg : BitVec 4)
    (imm : BitVec 64) (s : State) : Res :=
  .next (s.runMicro c (mduWord 3 areg.toNat bsel.toNat breg.toNat dsel.toNat dreg.toNat imm.toNat))

def execMulw (c : Fin 1024) (areg : BitVec 4) (bsel : BitVec 3) (breg : BitVec 4) (dsel : BitVec 3) (dreg : BitVec 4)
    (imm : BitVec 64) (s : State) : Res :=
  .next (s.runMicro c (mduWord 4 areg.toNat bsel.toNat breg.toNat dsel.toNat dreg.toNat imm.toNat))

def execMulwu (c : Fin 1024) (areg : BitVec 4) (bsel : BitVec 3) (breg : BitVec 4) (dsel : BitVec 3) (dreg : BitVec 4)
    (imm : BitVec 64) (s : State) : Res :=
  .next (s.runMicro c (mduWord 5 areg.toNat bsel.toNat breg.toNat dsel.toNat dreg.toNat imm.toNat))

def execDivs (c : Fin 1024) (areg : BitVec 4) (bsel : BitVec 3) (breg : BitVec 4) (imm : BitVec 64) (s : State) : Res :=
  .next (s.runMicro c (mduWord 6 areg.toNat bsel.toNat breg.toNat 0 0 imm.toNat))

def execDivu (c : Fin 1024) (areg : BitVec 4) (bsel : BitVec 3) (breg : BitVec 4) (imm : BitVec 64) (s : State) : Res :=
  .next (s.runMicro c (mduWord 7 areg.toNat bsel.toNat breg.toNat 0 0 imm.toNat))

def execRdq (c : Fin 1024) (dsel : BitVec 3) (dreg : BitVec 4) (s : State) : Res :=
  .next (s.runMicro c (mduWord 8 0 0 0 dsel.toNat dreg.toNat 0))

def execRdr (c : Fin 1024) (dsel : BitVec 3) (dreg : BitVec 4) (s : State) : Res :=
  .next (s.runMicro c (mduWord 9 0 0 0 dsel.toNat dreg.toNat 0))

def execRdh (c : Fin 1024) (dsel : BitVec 3) (dreg : BitVec 4) (s : State) : Res :=
  .next (s.runMicro c (mduWord 10 0 0 0 dsel.toNat dreg.toNat 0))

/-- DIVIDE_COMPLETE (R77-R79): the divide in flight writes the result registers and condition 26 becomes true. -/
def State.divideDone (s : State) (c : Nat) : State :=
  let x := s.cx c
  match x.div with
  | some d =>
    let r := divide d.signed d.a d.b
    s.setCx c { x with quot := r.1, rem := r.2, div := none, divReady := true }
  | none => s

def execDivideComplete (c : Fin 1024) (s : State) : Res :=
  .next (if s.unitOn (domQuire (quireOf c)) then s.divideDone c else s)

/-! Bank operations (R48, R49). -/

/-- A word that carries one bank operation. -/
def memWord (memop memar amod step areg : Nat) : Micro :=
  mwd [(150, 4, areg), (114, 4, memop), (112, 2, memar), (109, 3, amod), (48, 16, step)]

def execLd64 (c : Fin 1024) (memar : BitVec 2) (amod : BitVec 3) (step : BitVec 16) (s : State) : Res :=
  .next (s.runMicro c (memWord 1 memar.toNat amod.toNat step.toNat 0))

def execLd32 (c : Fin 1024) (memar : BitVec 2) (amod : BitVec 3) (step : BitVec 16) (s : State) : Res :=
  .next (s.runMicro c (memWord 2 memar.toNat amod.toNat step.toNat 0))

def execLd16 (c : Fin 1024) (memar : BitVec 2) (amod : BitVec 3) (step : BitVec 16) (s : State) : Res :=
  .next (s.runMicro c (memWord 3 memar.toNat amod.toNat step.toNat 0))

def execLd8 (c : Fin 1024) (memar : BitVec 2) (amod : BitVec 3) (step : BitVec 16) (s : State) : Res :=
  .next (s.runMicro c (memWord 4 memar.toNat amod.toNat step.toNat 0))

def execLd32s (c : Fin 1024) (memar : BitVec 2) (amod : BitVec 3) (step : BitVec 16) (s : State) : Res :=
  .next (s.runMicro c (memWord 5 memar.toNat amod.toNat step.toNat 0))

def execLd16s (c : Fin 1024) (memar : BitVec 2) (amod : BitVec 3) (step : BitVec 16) (s : State) : Res :=
  .next (s.runMicro c (memWord 6 memar.toNat amod.toNat step.toNat 0))

def execLd8s (c : Fin 1024) (memar : BitVec 2) (amod : BitVec 3) (step : BitVec 16) (s : State) : Res :=
  .next (s.runMicro c (memWord 7 memar.toNat amod.toNat step.toNat 0))

def execSt64 (c : Fin 1024) (areg : BitVec 4) (memar : BitVec 2) (amod : BitVec 3) (step : BitVec 16) (s : State) : Res :=
  .next (s.runMicro c (memWord 8 memar.toNat amod.toNat step.toNat areg.toNat))

def execSt32 (c : Fin 1024) (areg : BitVec 4) (memar : BitVec 2) (amod : BitVec 3) (step : BitVec 16) (s : State) : Res :=
  .next (s.runMicro c (memWord 9 memar.toNat amod.toNat step.toNat areg.toNat))

def execSt16 (c : Fin 1024) (areg : BitVec 4) (memar : BitVec 2) (amod : BitVec 3) (step : BitVec 16) (s : State) : Res :=
  .next (s.runMicro c (memWord 10 memar.toNat amod.toNat step.toNat areg.toNat))

def execSt8 (c : Fin 1024) (areg : BitVec 4) (memar : BitVec 2) (amod : BitVec 3) (step : BitVec 16) (s : State) : Res :=
  .next (s.runMicro c (memWord 11 memar.toNat amod.toNat step.toNat areg.toNat))

def execAadd (c : Fin 1024) (areg : BitVec 4) (memar : BitVec 2) (amod : BitVec 3) (step : BitVec 16) (s : State) : Res :=
  .next (s.runMicro c (memWord 12 memar.toNat amod.toNat step.toNat areg.toNat))

def execAswp (c : Fin 1024) (areg : BitVec 4) (memar : BitVec 2) (amod : BitVec 3) (step : BitVec 16) (s : State) : Res :=
  .next (s.runMicro c (memWord 13 memar.toNat amod.toNat step.toNat areg.toNat))

/-! Event operations (R51), boundary actions (R52) and loop counters (R54). -/

/-- A word that carries one event operation naming its event in the immediate. -/
def evWord (evop event : Nat) : Micro := mwd [(100, 4, evop), (16, 12, event)]

def execSignal (c : Fin 1024) (event : BitVec 12) (s : State) : Res := .next (s.runMicro c (evWord 1 event.toNat))

def execWadd (c : Fin 1024) (event : BitVec 12) (s : State) : Res := .next (s.runMicro c (evWord 2 event.toNat))

def execWdel (c : Fin 1024) (event : BitVec 12) (s : State) : Res := .next (s.runMicro c (evWord 3 event.toNat))

def execWclr (c : Fin 1024) (s : State) : Res := .next (s.runMicro c (evWord 4 0))

def execUadd (c : Fin 1024) (event : BitVec 12) (s : State) : Res := .next (s.runMicro c (evWord 5 event.toNat))

def execUdel (c : Fin 1024) (event : BitVec 12) (s : State) : Res := .next (s.runMicro c (evWord 6 event.toNat))

def execConsume (c : Fin 1024) (event : BitVec 12) (s : State) : Res := .next (s.runMicro c (evWord 7 event.toNat))

def execDoorbell (c : Fin 1024) (s : State) : Res := .next (s.runMicro c (mwd [(96, 4, 1)]))

def execPress (c : Fin 1024) (s : State) : Res := .next (s.runMicro c (mwd [(96, 4, 2)]))

def execBlitgo (c : Fin 1024) (s : State) : Res := .next (s.runMicro c (mwd [(96, 4, 3)]))

def execColrec (c : Fin 1024) (code : BitVec 10) (areg breg : BitVec 4) (s : State) : Res :=
  .next (s.runMicro c (mwd [(150, 4, areg.toNat), (146, 4, breg.toNat), (96, 4, 4), (32, 10, code.toNat)]))

def execFault (c : Fin 1024) (cls : BitVec 4) (areg breg : BitVec 4) (s : State) : Res :=
  .next (s.runMicro c (mwd [(150, 4, areg.toNat), (146, 4, breg.toNat), (96, 4, 5), (32, 4, cls.toNat)]))

def execLd0 (c : Fin 1024) (bsel : BitVec 3) (breg : BitVec 4) (imm : BitVec 64) (s : State) : Res :=
  .next (s.runMicro c (mwd [(146, 4, breg.toNat), (143, 3, bsel.toNat), (93, 3, 1), (0, 64, imm.toNat)]))

def execLd1 (c : Fin 1024) (bsel : BitVec 3) (breg : BitVec 4) (imm : BitVec 64) (s : State) : Res :=
  .next (s.runMicro c (mwd [(146, 4, breg.toNat), (143, 3, bsel.toNat), (93, 3, 2), (0, 64, imm.toNat)]))

def execDec0 (c : Fin 1024) (s : State) : Res := .next (s.runMicro c (mwd [(93, 3, 3)]))

def execDec1 (c : Fin 1024) (s : State) : Res := .next (s.runMicro c (mwd [(93, 3, 4)]))

/-! The control store, readiness, and the front end. -/

def execControlStoreRead (c : Fin 1024) (s : State) : Res := .next (s.csRead c)

def execContextReady (c : Fin 1024) (s : State) : Res := .next (s.ctxReady c)

def execScrubWriteback (q : Fin 32) (s : State) : Res := .next (s.scrubWriteback q)

def execDecodeComplete (c : Fin 1024) (s : State) : Res := .next (s.decodeComplete c)

def execFrontEndLineFetch (c : Fin 1024) (s : State) : Res := .next (s.lineFetch c)

def execCstWordCommit (q : Fin 32) (data2 : BitVec 64) (s : State) : Res :=
  .next (s.hostWrite (domQuire q) (R.CST_DATA q 2 + 4) (fun s => s.cstCommit q data2))

def execLoad (q : Fin 32) (s : State) : Res := .next (s.hostWrite (domQuire q) (R.CST_CTRL q) (fun s => s.cstLoad q))

def execFolioLoadComplete (q : Fin 32) (s : State) : Res := .next (s.folioLoaded q)

def execScrubRead (q : Fin 32) (s : State) : Res := .next (s.scrubRead q)

def execFolioReloadComplete (q : Fin 32) (s : State) : Res := .next (s.folioReloaded q)

/-! Context commands (R88-R91). -/

/-- The valid bits of the Olupo return stack cleared from entry `n` on. -/
def State.clearOstkFrom (s : State) (c n : Nat) : State :=
  (List.range 16).foldl (fun s i => if n ≤ i then s.put ⟨R.CTX_OSTK c (i / 2), 32 * (i % 2) + 31, 1⟩ 0 else s) s

/-- START (R89), legal from IDLE. The operand latch is not named among the state START clears, so the value BSEL 6 reads stays: DESIGN
CHOICE (log entry 62). -/
def State.ctxStart (s : State) (c : Nat) : State :=
  let x := s.cx c
  if x.st ≠ .idle then s.rej (ctxPage c)
  else
    let s := s.clearOstkFrom c 0
    s.setCx c { x with
      st := .stall, word := .empty, inflight := none, stopPend := false, hold := none, pend9 := none,
      mstk := [], et := [], urg := false, pollcnt := 0, starved := false,
      blatch := 0, bEmpty := false, qlatch := 0, qEmpty := false,
      maddr := BitVec.ofNat 14 (s.get (F.CTX_ENTRY_ENTRY c)), routine := none, cur := none }

/-- RESUME (R91), legal from PARKED or FAULTED; it empties the fetch buffer and the next instruction decoded from it (R168). START and
RESUME clear POLLCNT without a safe point, and the spec does not say whether the once-only starvation count starts again: DESIGN
CHOICE, it does (log entry 62). -/
def State.ctxResume (s : State) (c : Nat) : State :=
  let x := s.cx c
  if x.st = .parked ∨ x.st = .faulted then
    s.setCx c { x with
      st := .stall, word := .empty, pollcnt := 0, starved := false, fclass := 0, pend9 := none, nxt := none, lines := [] }
  else s.rej (ctxPage c)

/-- STOP (R90), legal from any state but IDLE: a word in RUN commits first. -/
def State.ctxStop (s : State) (c : Nat) : State :=
  let x := s.cx c
  match x.st with
  | .idle => s.rej (ctxPage c)
  | .run => s.setCx c { x with stopPend := true }
  | _ => s.goIdle c

/-- A host write of a context's CTRL (R88, R330). -/
def State.ctxCommand (s : State) (c : Nat) (f : State → State) : State :=
  s.hostWrite (domQuire (quireOf c)) (R.CTX_CTRL c) f

def execCtxStart (c : Fin 1024) (s : State) : Res := .next (s.ctxCommand c (fun s => s.ctxStart c))

def execCtxResume (c : Fin 1024) (s : State) : Res := .next (s.ctxCommand c (fun s => s.ctxResume c))

def execCtxStop (c : Fin 1024) (s : State) : Res := .next (s.ctxCommand c (fun s => s.ctxStop c))

/-- Whether the host may write a context's state registers now (R92). -/
def State.ctxWritable (s : State) (c : Nat) : Bool :=
  let st := (s.cx c).st
  st == .idle || st == .parked || st == .faulted

/-- OSTK_WRITE (R151): a valid entry below an invalid one clears the valid bits after the first invalid entry. -/
def State.ostkWrite (s : State) (c k : Nat) (v : Word) : State :=
  if s.ctxWritable c then
    let w : Word := BitVec.ofNat 64 (fld v 0 25 + fld v 31 1 * 2 ^ 31 + fld v 32 25 * 2 ^ 32 + fld v 63 1 * 2 ^ 63)
    let s := s.setReg (R.CTX_OSTK c k) w
    let depth := (s.ostk c).length
    s.clearOstkFrom c (depth + 1)
  else s.rej (ctxPage c)

def execOstkWrite (c : Fin 1024) (k : Fin 8) (value : BitVec 64) (s : State) : Res :=
  .next (s.hostWrite (domQuire (quireOf c)) (R.CTX_OSTK c k) (fun s => s.ostkWrite c k value))

/-! Banks (chapter 06). -/

def execPortARequestStep (c : Fin 1024) (s : State) : Res := .next (s.requestStep c)

def execPortAWriteStep (n : Fin 128) (s : State) : Res := .next (if s.unitOn (domBank n) then s.writeStep n else s)

def execBankReadLatchFill (c : Fin 1024) (s : State) : Res :=
  .next (if s.pwr.running then s.latchFill c else s)

def execPortBAccess (n : Fin 128) (presented : List PortBRequest) (s : State) : Res := .next (s.portBAccess n presented)

def execEccWriteback (n : Fin 128) (s : State) : Res := .next (s.eccWriteback n)

def execOwnershipHandover (n : Fin 128) (owner : BitVec 6) (s : State) : Res :=
  .next (s.hostWrite (domBank n) (R.BNK_OWN n) (fun s => s.ownWrite n owner.toNat))

def execHandoverComplete (n : Fin 128) (s : State) : Res := .next (s.handoverDone n)

def execMarchStartDestructive (n : Fin 128) (gap : BitVec 8) (s : State) : Res :=
  .next (s.hostWrite (domBank n) (R.BNK_MARCH n) (fun s => s.marchWrite n 1 gap.toNat))

def execMarchStartPreserving (n : Fin 128) (gap : BitVec 8) (s : State) : Res :=
  .next (s.hostWrite (domBank n) (R.BNK_MARCH n) (fun s => s.marchWrite n 2 gap.toNat))

def execMarchAbort (n : Fin 128) (gap : BitVec 8) (s : State) : Res :=
  .next (s.hostWrite (domBank n) (R.BNK_MARCH n) (fun s => s.marchWrite n 3 gap.toNat))

def execMarchAccess (n : Fin 128) (s : State) : Res := .next (s.marchAccess n)

def execInjWrite (n : Fin 128) (value : BitVec 64) (s : State) : Res :=
  .next (s.hostWrite (domBank n) (R.BNK_INJ n) (fun s => s.injWrite n value))

/-! Queues (chapter 07). -/

def execQueueGrant (k : Fin 16) (s : State) : Res := .next (s.queueGrant k)

def execPush (n : BitVec 14) (s : State) : Res := .next (s.decideRow n.toNat 1)

def execPop (n : BitVec 14) (s : State) : Res := .next (s.decideRow n.toNat 2)

def execPeek (n : BitVec 14) (s : State) : Res := .next (s.decideRow n.toNat 3)

def execPushif (n : BitVec 14) (s : State) : Res := .next (s.decideRow n.toNat 4)

def execPopif (n : BitVec 14) (s : State) : Res := .next (s.decideRow n.toNat 5)

def execWmarm (n : BitVec 14) (s : State) : Res := .next (s.decideRow n.toNat 6)

def execElementAccessComplete (n : BitVec 14) (s : State) : Res := .next (s.elementDone n.toNat)

def execQdCfgWrite (n : BitVec 14) (value : BitVec 64) (s : State) : Res := .next (s.hostPair (domSlice (n.toNat % 16)) (R.QD_CFG n.toNat) (fun s => s.qdCfgWrite n.toNat value))

def execQdPtrWrite (n : BitVec 14) (value : BitVec 64) (s : State) : Res := .next (s.hostPair (domSlice (n.toNat % 16)) (R.QD_PTR n.toNat) (fun s => s.qdPtrWrite n.toNat value))

def execDescriptorWriteback (k : Fin 16) (s : State) : Res := .next (s.descWriteback k)

end Sys2Proof.Machine
end

