-- ==== Sys2Proof/Machine/Beam.lean ====
section
/-! DEFINITION. The beam generator and the timers (chapter 08): divider, position, geometry, events and compares (R213-R225),
the general timers (R226-R236) and the keeper timers (R239). A tick's effects on other units are composed in
`Machine/Events.lean`. -/

namespace Sys2Proof.Machine

/-- The BEAM page. -/
def beamPage : Nat := 0x180

/-- A timer's page (R238). -/
def tmrPage (t : Nat) : Nat := 0x181 + t / 16

/-- A timer's typed state. -/
def State.tm (s : State) (t : Nat) : Timer := tget (fun _ => Timer.reset) s.tmr t

/-- The state with a timer's typed state replaced. -/
def State.setTm (s : State) (t : Nat) (x : Timer) : State := { s with tmr := tset (fun _ => Timer.reset) t x s.tmr }

/-- The line and frame totals (R213, R217). -/
def State.hTotal (s : State) : Nat := s.get F.BEAM_GEOM_HTOT + 1
def State.vTotal (s : State) : Nat := s.get F.BEAM_GEOM_VTOT + 1

/-- Whether the beam runs. -/
def State.beamRun (s : State) : Bool := s.on F.BEAM_CTRL_RUN

/-! The general timers. -/

/-- A timer's COUNT: for T0 to T3 the beam's own counts (R213). -/
def State.tmCount (s : State) (t : Nat) : Nat :=
  match t with
  | 0 => s.beam.tick
  | 1 => s.beam.line
  | 2 => s.beam.frame % 2 ^ 32
  | 3 => s.beam.frame / 2 ^ 32 % 2 ^ 32
  | _ => s.get (F.TMR_COUNT_COUNT t)

/-- A timer's TOP: fixed by the beam for T0 to T3 (R238). -/
def State.tmTop (s : State) (t : Nat) : Nat :=
  match t with
  | 0 => s.get F.BEAM_GEOM_HTOT
  | 1 => s.get F.BEAM_GEOM_VTOT
  | 2 => 2 ^ 32 - 1
  | 3 => 2 ^ 32 - 1
  | _ => s.get (F.TMR_TOP_TOP t)

/-- A timer's EN: for T0 to T3 the beam's RUN (R238). -/
def State.tmEn (s : State) (t : Nat) : Bool := if t < 4 then s.beamRun else s.on (F.TMR_CFG_EN t)

/-- Whether a timer counts (R227). -/
def State.tmRunning (s : State) (t : Nat) : Bool :=
  if t < 4 then s.beamRun
  else s.on (F.TMR_CFG_EN t) && !s.on (F.TMR_TSTAT_WAITING t) && (s.get (F.TMR_CFG_SLV t) != 3 || s.on (F.TMR_TSTAT_GATE t))

/-- A direct action is triggered (R236): it waits for its FCLK, or is suppressed in SERVICE. -/
def State.tmAction (s : State) (t : Nat) : State :=
  let k := s.get (F.TMR_AUX_ACTK t)
  if k = 0 then s
  else if s.get F.BLK_MODE_MODE = 1 then s.put (F.TMR_TSTAT_ACTSUP t) 1
  else s.setTm t { s.tm t with acts := (s.tm t).acts ++ [(k, s.get (F.TMR_AUX_ACTT t))] }

/-- A master event reaches every slave of timer `t` (R233): it is applied at the slave's next step. -/
def State.masterEvent (s : State) (t : Nat) (ovf : Bool) : State :=
  (List.range 252).foldl (fun s i =>
    let k := i + 4
    let cfg := s.reg (R.TMR_CFG k)
    if fld cfg 44 8 = t ∧ bit cfg 43 = ovf ∧ (fld cfg 40 3 ≠ 0 ∨ fld cfg 4 3 = 5) then
      s.setTm k { s.tm k with mev := (s.tm k).mev + 1 }
    else s) s

/-- A match (R229): MATCHF, the match line, the direct action, auto-add, and the master event. -/
def State.tmMatch (s : State) (t : Nat) : State :=
  let s := (s.put (F.TMR_TSTAT_MATCHF t) 1).postIf (s.on (F.TMR_CFG_MEV t)) t
  let s := if s.on (F.TMR_AUX_ACTON t) then s else s.tmAction t
  let s := if s.on (F.TMR_CFG_AUTOADD t) then
      s.put (F.TMR_CMP_CMP t) ((s.get (F.TMR_CMP_CMP t) + s.get (F.TMR_INTERVAL_INTERVAL t)) % (s.tmTop t + 1))
    else s
  s.masterEvent t false

/-- An overflow (R229): OVFF, the overflow line, the direct action, the chained timer's count event, and the master event. -/
def State.tmOverflow (s : State) (t : Nat) : State :=
  let s := (s.put (F.TMR_TSTAT_OVFF t) 1).postIf (s.on (F.TMR_CFG_OEV t)) (0x100 + t)
  let s := if s.on (F.TMR_AUX_ACTON t) then s.tmAction t else s
  let s := if 3 ≤ t ∧ t < 255 ∧ s.get (F.TMR_CFG_SRC (t + 1)) = 3 ∧ s.tmRunning (t + 1) = true then s.setTm (t + 1) { s.tm (t + 1) with due := (s.tm (t + 1)).due + 1 } else s
  s.masterEvent t true

/-- The preload copied at a wrap or reset (R230). -/
def State.tmPreload (s : State) (t : Nat) : State :=
  if s.on (F.TMR_TSTAT_PREPEND t) then
    (s.put (F.TMR_CMP_CMP t) (s.get (F.TMR_CMPPRE_CMPPRE t))).put (F.TMR_TSTAT_PREPEND t) 0
  else s

/-- What follows a change of COUNT (R228, steps 4 to 6): a preload at a wrap, the overflow, a match with a CMP that is not above TOP
(R229). -/
def State.tmChanged (s : State) (t : Nat) (wrapped overflow : Bool) : State :=
  let s := if wrapped then s.tmPreload t else s
  let s := if overflow then s.tmOverflow t else s
  if s.tmCount t = s.get (F.TMR_CMP_CMP t) ∧ s.get (F.TMR_CMP_CMP t) ≤ s.tmTop t then s.tmMatch t else s

/-- A timer's prescaler phase restarts (R227). -/
def State.tmRestart (s : State) (t : Nat) : State := s.setTm t { s.tm t with phase0 := s.fclk }

/-- A capture (R235). -/
def State.tmCapture (s : State) (t : Nat) : State :=
  let s := if s.on (F.TMR_TSTAT_CAPF t) then s.put (F.TMR_TSTAT_OVR t) 1 else s
  let s := (s.put (F.TMR_CAPTURE_CAPTURE t) (s.tmCount t)).put (F.TMR_TSTAT_CAPF t) 1
  s.postIf (s.on (F.TMR_CFG_CEV t)) (0x100 + t)

/-- The captures that wait for a count event, one event nearer: those that it reaches take place now (R228, step 7). -/
def State.tmCaps (s : State) (t : Nat) : State :=
  let caps := (s.tm t).caps
  let s := s.setTm t { s.tm t with caps := (caps.filter (fun k => 1 < k)).map (· - 1) }
  (caps.filter (fun k => k ≤ 1)).foldl (fun s _ => s.tmCapture t) s

/-- The count events that have come are ignored by a timer that does not run (R227); captures behind them take place. -/
def State.tmForget (s : State) (t : Nat) : State :=
  let caps := (s.tm t).caps
  caps.foldl (fun s _ => s.tmCapture t) (s.setTm t { s.tm t with due := 0, caps := [] })

/-- EN set on a general timer (R227, R233): its phase restarts; a triggered slave waits, a gated one starts with its gate closed. -/
def State.tmStart (s : State) (t : Nat) : State :=
  if t < 4 ∨ s.on (F.TMR_CFG_EN t) = true then s
  else
    let slv := s.get (F.TMR_CFG_SLV t)
    let s := s.tmForget t
    let s := (s.put (F.TMR_CFG_EN t) 1).setTm t { s.tm t with phase0 := s.fclk, mev := 0 }
    (s.put (F.TMR_TSTAT_WAITING t) (b2n (slv == 1 || slv == 4))).put (F.TMR_TSTAT_GATE t) 0

/-- EN cleared (R233): a wait ends and the gate closes. -/
def State.tmStop (s : State) (t : Nat) : State :=
  if t < 4 then s
  else
    let s := ((s.put (F.TMR_CFG_EN t) 0).put (F.TMR_TSTAT_WAITING t) 0).put (F.TMR_TSTAT_GATE t) 0
    let s := s.tmForget t
    s.setTm t { s.tm t with mev := 0 }

/-- COUNT steps by one (R226): a step from TOP wraps, overflows, and under ONESHOT stops the timer. -/
def State.tmStep (s : State) (t : Nat) : State :=
  let c := s.get (F.TMR_COUNT_COUNT t)
  if c = s.get (F.TMR_TOP_TOP t) then
    let s := (s.put (F.TMR_COUNT_COUNT t) 0).tmChanged t true true
    if s.on (F.TMR_CFG_ONESHOT t) then s.tmStop t else s
  else (s.put (F.TMR_COUNT_COUNT t) (c + 1)).tmChanged t false false

/-- A waiting slave is released: its prescaler phase restarts (R227). -/
def State.tmRelease (s : State) (t : Nat) : State :=
  if s.on (F.TMR_TSTAT_WAITING t) then (s.put (F.TMR_TSTAT_WAITING t) 0).tmRestart t else s

/-- COUNT reset by a master event (R228, R233): a wrap without overflow, which matches a CMP of 0 if it changed COUNT. -/
def State.tmReset (s : State) (t : Nat) : State :=
  let moved := s.get (F.TMR_COUNT_COUNT t) != 0
  let s := (s.put (F.TMR_COUNT_COUNT t) 0).tmPreload t
  if moved && s.get (F.TMR_CMP_CMP t) == 0 then s.tmMatch t else s

/-- Whether the slave mode of a timer resets COUNT (R233). -/
def State.tmResets (s : State) (t : Nat) : Bool := s.get (F.TMR_CFG_SLV t) == 2 || s.get (F.TMR_CFG_SLV t) == 4

/-- A master event applied to a slave (R233), its reset of COUNT aside. -/
def State.tmSlave (s : State) (t : Nat) : State :=
  match s.get (F.TMR_CFG_SLV t) with
  | 1 => s.tmRelease t
  | 3 =>
    let g := s.get (F.TMR_TSTAT_GATE t)
    let s := s.put (F.TMR_TSTAT_GATE t) (1 - g)
    if g = 1 then s.tmForget t else s
  | 4 => s.tmRelease t
  | _ => s

/-- The count event of this FCLK is taken from those that have come, for a source whose events are counted as they come. -/
def State.tmTake (s : State) (t : Nat) : State :=
  s.setTm t { s.tm t with due := (s.tm t).due - 1 }

/-- TIMER_COUNT_EVENT (R226-R228): one FCLK of a general timer in which something acts on it. A master event that has come acts at the
end of the FCLK; a reset takes the place of the step. Otherwise a timer that ran in the FCLK steps on a count event: with SRC 0
or 1 the command is the event itself (log entry 19), with SRC 5 the master event is, with another source an event must have come. -/
def State.tmEvent (s : State) (t : Nat) : State :=
  if t < 4 then s
  else
    let clock := s.get (F.TMR_CFG_SRC t)
    let ran := s.tmRunning t
    let master := decide (0 < (s.tm t).mev) && s.on (F.TMR_CFG_EN t)
    let event := ran && (decide (clock ≤ 1) || (clock == 5 && master) || (clock != 5 && decide (0 < (s.tm t).due)))
    let s := if !ran then s.tmForget t else if event && decide (2 ≤ clock) && clock != 5 then s.tmTake t else s
    let s := if master then s.setTm t { s.tm t with mev := (s.tm t).mev - 1 } else s
    let s := if master && s.tmResets t then s.tmReset t else if event then s.tmStep t else s
    let s := if event then s.tmCaps t else s
    if master then s.tmSlave t else s

/-- A count event of source `src` has come for every running timer that counts it; `ev` is the event of SRC 4 (R226). -/
def State.tmSource (s : State) (src ev : Nat) : State :=
  (List.range 252).foldl (fun s i =>
    let k := i + 4
    let cfg := s.reg (R.TMR_CFG k)
    if fld cfg 4 3 = src ∧ (src ≠ 4 ∨ fld cfg 28 12 = ev) ∧ s.tmRunning k = true then
      s.setTm k { s.tm k with due := (s.tm k).due + 1 }
    else s) s

/-- An assertion reaches the timers: counted events (R226) and captures (R235). A timer that counts the same assertion captures after
that step (R228, step 7). -/
def State.tmAssert (s : State) (line : Nat) : State :=
  (List.range 256).foldl (fun s t =>
    if s.on (F.TMR_CFG_CAPEN t) && s.get (F.TMR_AUX_CAPEV t) == line then
      if 4 ≤ t ∧ s.get (F.TMR_CFG_SRC t) = 4 ∧ s.get (F.TMR_CFG_EVSRC t) = line ∧ s.tmRunning t = true then
        s.setTm t { s.tm t with caps := (s.tm t).caps ++ [(s.tm t).due] }
      else s.tmCapture t
    else s) (s.tmSource 4 line)

/-- CMPPRE_WRITE (R230). -/
def State.cmppreWrite (s : State) (t v : Nat) : State :=
  let s := s.put (F.TMR_CMPPRE_CMPPRE t) v
  if !s.tmEn t then s.put (F.TMR_CMP_CMP t) v
  else if s.on (F.TMR_CFG_CMPIMM t) then
    let s := s.put (F.TMR_CMP_CMP t) v
    if v ≤ s.tmCount t ∧ v ≤ s.tmTop t then s.tmMatch t else s
  else s.put (F.TMR_TSTAT_PREPEND t) 1

/-- A general timer's COUNT written (R228): the write takes the place of a step or reset that has come for this FCLK, and is neither a
wrap nor a match; a master event's other effect stays. -/
def State.tmCountSet (s : State) (t v : Nat) : State :=
  let master := decide (0 < (s.tm t).mev) && s.on (F.TMR_CFG_EN t)
  let due := decide (0 < (s.tm t).due)
  let s := if due then s.tmTake t else s
  let s := if master then s.setTm t { s.tm t with mev := (s.tm t).mev - 1 } else s
  let s := s.put (F.TMR_COUNT_COUNT t) v
  let s := if due then s.tmCaps t else s
  if master then s.tmSlave t else s

/-- TIMER_COUNT_WRITE (R219, R228); the beam's counts are writable only as R219 says. -/
def State.tmCountWrite (s : State) (t v : Nat) : State :=
  if 4 ≤ t then s.tmCountSet t v
  else if t ≤ 1 ∨ s.beamRun = true then s.rej (tmrPage t)
  else
    let f := s.beam.frame
    { s with beam := { s.beam with
        frame := if t = 2 then f / 2 ^ 32 * 2 ^ 32 + v % 2 ^ 32 else f % 2 ^ 32 + v % 2 ^ 32 * 2 ^ 32 } }

/-- CFG of T0 to T3 as it reads: the fields the beam fixes over the stored ones (R238). SRC reads 2 for T0 and 3 for T1 to T3
(DEDUCED: the sources R213 gives them). -/
def State.tmBeamCfg (s : State) (t : Nat) : Word :=
  let cfg := s.reg (R.TMR_CFG t)
  let fixed := b2n s.beamRun + (if t = 0 then 2 else 3) * 2 ^ 4 + 0x400 * 2 ^ 28 + s.get F.BEAM_CTRL_GSGRP * 2 ^ 52 +
    s.get F.BEAM_CTRL_GSARM * 2 ^ 55
  BitVec.ofNat 64 (fixed + fld cfg 2 2 * 2 ^ 2 + fld cfg 7 4 * 2 ^ 7)

/-- What a new slave mode makes of a timer whose EN stays 1 (R233): modes 1 and 4 wait for their first master event, mode 3 begins with
its gate closed, and a wait that the new mode does not know ends. -/
def State.tmNewMode (s : State) (t : Nat) : State :=
  let slv := s.get (F.TMR_CFG_SLV t)
  if slv = 1 ∨ slv = 4 then s.put (F.TMR_TSTAT_WAITING t) 1
  else if slv = 3 then (s.tmRelease t).put (F.TMR_TSTAT_GATE t) 0
  else s.tmRelease t

/-- A write of CFG (R226, R233, R238): reserved values leave their fields; EN starts or stops the timer. -/
def State.tmCfgWrite (s : State) (t : Nat) (v : Word) : State :=
  if t < 4 then
    let cur := s.tmBeamCfg t
    let keep := fun (lo w : Nat) => fld v lo w == fld cur lo w
    let same := keep 0 2 && keep 4 3 && keep 12 28 && keep 40 16
    let s := s.setReg (R.TMR_CFG t) (setFld (setFld (s.reg (R.TMR_CFG t)) 2 2 (fld v 2 2)) 7 4 (fld v 7 4))
    if same then s else s.rej (tmrPage t)
  else
    let cur := s.reg (R.TMR_CFG t)
    let badSrc := decide (6 ≤ fld v 4 3)
    let badEv := decide (0xC80 ≤ fld v 28 12)
    let badSlv := decide (6 ≤ fld v 40 3)
    let new := setFld v 0 1 (fld cur 0 1)
    let new := setFld (setFld new 11 1 0) 56 8 0
    let new := if badSrc then setFld new 4 3 (fld cur 4 3) else new
    let new := if badEv then setFld new 28 12 (fld cur 28 12) else new
    let new := if badSlv then setFld new 40 3 (fld cur 40 3) else new
    let s := s.setReg (R.TMR_CFG t) new
    let s := if bit v 0 && bit cur 0 && fld new 40 3 != fld cur 40 3 then s.tmNewMode t
      else if bit v 0 then s.tmStart t else if bit cur 0 then s.tmStop t else s
    if badSrc || badEv || badSlv then s.rej (tmrPage t) else s

/-- A write of TOP (R229, R238). -/
def State.tmTopWrite (s : State) (t v : Nat) : State :=
  if t < 4 ∨ v + 1 < s.get (F.TMR_INTERVAL_INTERVAL t) then s.rej (tmrPage t) else s.put (F.TMR_TOP_TOP t) v

/-- A write of INTERVAL (R229). -/
def State.tmIntervalWrite (s : State) (t v : Nat) : State :=
  if s.tmTop t + 1 < v then s.rej (tmrPage t) else s.put (F.TMR_INTERVAL_INTERVAL t) v

/-- A write of AUX (R236): an ACTT out of range for its kind keeps all of AUX. -/
def State.tmAuxWrite (s : State) (t : Nat) (v : Word) : State :=
  let cur := s.reg (R.TMR_AUX t)
  let badEv := decide (0xC80 ≤ fld v 0 12)
  let badK := decide (5 ≤ fld v 12 3)
  let k := if badK then fld cur 12 3 else fld v 12 3
  let a := fld v 16 8
  if (k == 3 && decide (64 ≤ a)) || (k == 4 && decide (8 ≤ a)) then s.rej (tmrPage t)
  else
    let s := s.setReg (R.TMR_AUX t)
      (BitVec.ofNat 64 ((if badEv then fld cur 0 12 else fld v 0 12) + k * 2 ^ 12 + fld v 15 1 * 2 ^ 15 + a * 2 ^ 16))
    if badEv || badK then s.rej (tmrPage t) else s

/-- TSTAT as it reads (R227, R238). -/
def State.tmStat (s : State) (t : Nat) : Word := setFld (s.reg (R.TMR_TSTAT t)) 0 1 (b2n (s.tmRunning t))

/-- STATE of a timer page (R231, R238): a carry is in flight where a chained timer has a count event to come. -/
def State.tmState (s : State) (k : Nat) : Word :=
  BitVec.ofNat 64 ((List.range 16).foldl (fun acc i =>
    let t := 16 * k + i
    let carry := decide (4 ≤ t) && s.get (F.TMR_CFG_SRC t) == 3 && s.tmRunning t && decide (0 < (s.tm t).due)
    acc + b2n (s.tmRunning t) * 2 ^ i + s.get (F.TMR_TSTAT_CAPF t) * 2 ^ (16 + i) + s.get (F.TMR_TSTAT_OVR t) * 2 ^ (32 + i) +
      b2n carry * 2 ^ (48 + i)) 0)

/-- The next direct action of timer `t`, if it is of kind `k`: its target, and the state without it (R236). -/
def State.tmTakeAct (s : State) (t k : Nat) : Option (Nat × State) :=
  match (s.tm t).acts with
  | (k', a) :: rest => if k' = k then some (a, s.setTm t { s.tm t with acts := rest }) else none
  | [] => none

/-- ACTION_START_TIMER (R236). -/
def State.actStart (s : State) (t : Nat) : State :=
  match s.tmTakeAct t 1 with
  | some (a, s) => (s.tmStart a).tmRestart a
  | none => s

/-- ACTION_STOP_TIMER (R236). -/
def State.actStop (s : State) (t : Nat) : State :=
  match s.tmTakeAct t 2 with
  | some (a, s) => s.tmStop a
  | none => s

/-- ACTION_CONVERTER_TRIGGER (R236): a one-FCLK pulse on CVTRIG; the FCLK of the last pulse, plus one, is kept. -/
def State.actConv (s : State) (t : Nat) : State :=
  match s.tmTakeAct t 4 with
  | some (a, s) => { s with cvtrig := tset (fun _ => 0) a (s.fclk + 1) s.cvtrig }
  | none => s

/-! The divider and the geometry. -/

/-- The effective period in units of 2^-24 FCLK before the clamp (R215). -/
def State.beamQ (s : State) : Int :=
  ((s.get F.BEAM_TICKDIV_INT * 2 ^ 24 + s.get F.BEAM_TICKDIV_FRAC : Nat) : Int) + sval 24 (s.get F.BEAM_DIVTRIM_TRIM)

/-- Whether the effective period is clamped to 4.0 (R215). -/
def State.beamClamped (s : State) : Bool := decide (s.beamQ < 4 * 2 ^ 24)

/-- The accumulator after the tick that follows `acc` (R215): the least whole number of FCLK that reaches Q. -/
def accAfter (acc q : Nat) : Nat :=
  let k := (q - acc + 2 ^ 24 - 1) / 2 ^ 24
  acc + k * 2 ^ 24 - q

/-- Whether the geometry of R217 stands. -/
def geomOk (geom hact vact : Word) : Bool :=
  let ht := fld geom 0 14
  let vt := fld geom 16 14
  decide (15 ≤ ht) && decide (1 ≤ vt) && decide (fld hact 0 14 ≤ fld hact 16 15) && decide (fld hact 16 15 ≤ ht + 1) &&
  decide (fld vact 0 14 ≤ fld vact 16 15) && decide (fld vact 16 15 ≤ vt + 1)

/-- The writable bits of a geometry register (R237). -/
def geomMask (which : GeomReg) (v : Word) : Word :=
  match which with
  | .geom => BitVec.ofNat 64 (fld v 0 14 + fld v 16 14 * 2 ^ 16)
  | .hact => BitVec.ofNat 64 (fld v 0 14 + fld v 16 15 * 2 ^ 16)
  | .vact => BitVec.ofNat 64 (fld v 0 14 + fld v 16 15 * 2 ^ 16)
  | .sync => BitVec.ofNat 64 (fld v 0 14 + fld v 16 15 * 2 ^ 16 + fld v 32 14 * 2 ^ 32 + fld v 48 15 * 2 ^ 48)

/-- The registers of the geometry. -/
def geomKey : GeomReg → Nat
  | .geom => R.BEAM_GEOM
  | .hact => R.BEAM_HACT
  | .vact => R.BEAM_VACT
  | .sync => R.BEAM_SYNC

/-- A geometry register's held write. -/
def State.heldOf (s : State) : GeomReg → Option Word
  | .geom => s.beam.heldGeom
  | .hact => s.beam.heldHact
  | .vact => s.beam.heldVact
  | .sync => s.beam.heldSync

/-- The value a geometry register will have. -/
def State.geomNext (s : State) (which : GeomReg) : Word := (s.heldOf which).getD (s.reg (geomKey which))

/-- A geometry write held (R217). -/
def State.holdGeom (s : State) (which : GeomReg) (v : Word) : State :=
  let b := match which with
    | .geom => { s.beam with heldGeom := some v }
    | .hact => { s.beam with heldHact := some v }
    | .vact => { s.beam with heldVact := some v }
    | .sync => { s.beam with heldSync := some v }
  ({ s with beam := b }).put F.BEAM_STATUS_GPEND 1

/-- GEOMETRY_WRITE (R217): checked against the geometry that will stand, then held while the beam runs, or in effect at once. -/
def State.geomWrite (s : State) (which : GeomReg) (v : Word) : State :=
  let v := geomMask which v
  let g := if which = .geom then v else s.geomNext .geom
  let h := if which = .hact then v else s.geomNext .hact
  let w := if which = .vact then v else s.geomNext .vact
  if which ≠ .sync ∧ geomOk g h w = false then s.rej beamPage
  else if s.beamRun then s.holdGeom which v
  else s.setReg (geomKey which) v

/-- The held writes take effect (R217). -/
def State.applyGeom (s : State) : State :=
  let s1 := [GeomReg.geom, .hact, .vact, .sync].foldl (fun t g =>
    match s.heldOf g with
    | some v => t.setReg (geomKey g) v
    | none => t) s
  ({ s1 with beam := { s1.beam with heldGeom := none, heldHact := none, heldVact := none, heldSync := none } }).put F.BEAM_STATUS_GPEND 0

/-- TICKDIV_WRITE (R216). -/
def State.tickdivWrite (s : State) (v : Word) : State :=
  let s := s.put F.BEAM_TICKDIV_FRAC (fld v 0 24)
  if fld v 24 16 < 4 then s.rej beamPage else s.put F.BEAM_TICKDIV_INT (fld v 24 16)

/-- LEAD_WRITE (R225). -/
def State.leadWrite (s : State) (v : Word) : State :=
  if s.beamRun then s.rej beamPage else s.setReg R.BEAM_LEAD v

/-- A write of DIVTRIM (R216): rejected while the wall reference disciplines it. -/
def State.divtrimWrite (s : State) (v : Word) : State :=
  if s.on F.BEAM_CTRL_REF then s.rej beamPage else s.put F.BEAM_DIVTRIM_TRIM (fld v 0 24)

/-- The sync outputs at the beam position (R223). -/
def windowActive (pos a b total : Nat) : Bool :=
  let a := a % total
  let b := b % total
  decide ((pos + total - a) % total < (b + total - a) % total)

def State.hsync (s : State) : Bool :=
  windowActive s.beam.tick (s.get F.BEAM_SYNC_HSS) (s.get F.BEAM_SYNC_HSE) s.hTotal != s.on F.BEAM_SYNC_HPOL

def State.vsync (s : State) : Bool :=
  windowActive s.beam.line (s.get F.BEAM_SYNC_VSS) (s.get F.BEAM_SYNC_VSE) s.vTotal != s.on F.BEAM_SYNC_VPOL

/-- The line whose deadline for port `p` is the beam's arrival at tick 0 of its present line (R224), with its frame count. -/
def State.deadlineLine (s : State) (p : Nat) : Nat × Nat :=
  let lead := fld (s.reg R.BEAM_LEAD) (4 * p) 4 + 1
  let n := s.beam.line + lead
  (n % s.vTotal, s.beam.frame + n / s.vTotal)

/-! Beam events (R220-R222). -/

/-- The compares that match at the beam position (R222): each posts its line, and mode 3 clears. The press compare is a press
trigger (R400). -/
def State.beamCompares (s : State) : State :=
  (List.range 32).foldl (fun s i =>
    let b := s.reg (R.BEAM_BCMP i)
    let mode := fld b 30 2
    let hit := fld b 16 14 == s.beam.tick && (mode == 1 || (decide (2 ≤ mode) && fld b 0 14 == s.beam.line))
    if hit && mode != 0 then
      let s := if mode = 3 then s.put (F.BEAM_BCMP_MODE i) 0 else s
      let s := s.post (0x3A0 + i)
      if s.get F.PRS_PBCMP_PBCMP = i then s.pressTrigger 3 1 else s
    else s) s

/-- The events at the beam position (R220, R221). `start` is a beam start (R218); `hEnd`, `vEnd` say that the line and the frame
just left ended their active area at their total. -/
def State.beamEvents (s : State) (start hEnd vEnd : Bool) : State :=
  let k := s.beam.tick
  let l := s.beam.line
  let has := s.get F.BEAM_HACT_HAS
  let hae := s.get F.BEAM_HACT_HAE
  let vas := s.get F.BEAM_VACT_VAS
  let vae := s.get F.BEAM_VACT_VAE
  let z := k == 0
  let s := s.postIf (z && s.on F.BEAM_EVEN_LS) 0x380
  let s := s.postIf (z && l == 0 && s.on F.BEAM_EVEN_FS) 0x381
  let s := s.postIf (k == has && has != hae && s.on F.BEAM_EVEN_HAB) 0x382
  let s := s.postIf (((k == hae && has != hae) || (z && !start && hEnd)) && s.on F.BEAM_EVEN_HAE) 0x383
  let s := s.postIf (z && l == vas && vas != vae && s.on F.BEAM_EVEN_VAB) 0x384
  let s := s.postIf (z && ((l == vae && vas != vae) || (l == 0 && !start && vEnd)) && s.on F.BEAM_EVEN_VAE) 0x385
  let s := if z then
      (List.range 16).foldl (fun s p => s.postIf ((s.get F.BEAM_EVEN_DL).testBit p) (0x390 + p)) s
    else s
  s.beamCompares

/-- Whether the active ticks, or lines, end at their total (R220). -/
def State.hEndsAtTotal (s : State) : Bool := s.get F.BEAM_HACT_HAS != s.get F.BEAM_HACT_HAE && s.get F.BEAM_HACT_HAE == s.hTotal
def State.vEndsAtTotal (s : State) : Bool := s.get F.BEAM_VACT_VAS != s.get F.BEAM_VACT_VAE && s.get F.BEAM_VACT_VAE == s.vTotal

/-- The position moves to a tick, line and frame; T0 to T3 match, overflow and copy preloads (R213, R228, R229). -/
def State.beamMove (s : State) (tick line frame : Nat) (w0 w1 : Bool) : State :=
  let f0 := s.beam.frame
  let s := { s with beam := { s.beam with tick := tick, line := line, frame := frame } }
  let s := s.tmChanged 0 w0 w0
  let s := if w0 then s.tmChanged 1 w1 w1 else s
  if w1 then
    let w2 := f0 % 2 ^ 32 == 2 ^ 32 - 1
    let s := s.tmChanged 2 w2 w2
    if w2 then
      let w3 := f0 / 2 ^ 32 % 2 ^ 32 == 2 ^ 32 - 1
      s.tmChanged 3 w3 w3
    else s
  else s

/-- The first-lock step (R315): at the next tick the position moves `k` ticks further than it would. -/
def State.beamJump (s : State) (k : Nat) : State :=
  let f := s.hTotal * s.vTotal
  let n := (s.beam.line * s.hTotal + s.beam.tick + 1 + k) % f
  let s := { s with beam := { s.beam with tick := n % s.hTotal, line := n / s.hTotal, coarse := none } }
  (s.tmChanged 0 false false).tmChanged 1 false false

/-- The divider's tick (R213, R215): the accumulator, the clamp, and the position one tick on. `next` gives the frame count at a
frame start (R316). -/
def State.beamStep (s : State) (next : Nat) : State :=
  let clamped := s.beamClamped
  let q := if clamped then 4 * 2 ^ 24 else s.beamQ.toNat
  let s := if clamped then (s.err beamPage).put F.BEAM_STATUS_CLAMP 1 else s
  let s := { s with beam := { s.beam with acc := accAfter s.beam.acc q, last := s.fclk } }
  let s := match s.beam.coarse with
    | some k => s.beamJump k
    | none =>
      let w0 := decide (s.hTotal ≤ s.beam.tick + 1)
      let w1 := w0 && decide (s.vTotal ≤ s.beam.line + 1)
      let tick := if w0 then 0 else s.beam.tick + 1
      let line := if w1 then 0 else if w0 then s.beam.line + 1 else s.beam.line
      s.beamMove tick line (if w1 then next else s.beam.frame) w0 w1
  s.tmSource 2 0

/-! The keeper timers (R239). -/

/-- A keeper timer's typed state. -/
def State.kt (s : State) (k : Nat) : Keeper := tget (fun _ => Keeper.reset) s.keep k

/-- The state with a keeper timer's typed state replaced. -/
def State.setKt (s : State) (k : Nat) (x : Keeper) : State := { s with keep := tset (fun _ => Keeper.reset) k x s.keep }

/-- Held writes of a keeper timer take effect at an SCLK edge (R239). -/
def State.ktApply (s : State) (k : Nat) : State :=
  let x := s.kt k
  let s := match x.count with | some v => s.put (F.PWR_KCOUNT_KCOUNT k) v | none => s
  let s := match x.cmp with | some v => s.put (F.PWR_KCMP_KCMP k) v | none => s
  s.setKt k Keeper.reset

/-- A keeper timer steps, its wrap stepping the next one when that counts wraps; the timers that matched are listed (R239). -/
def State.ktStep (s : State) (k : Nat) : Nat → List Nat × State
  | 0 => ([], s)
  | fuel + 1 =>
    if (s.kt k).count.isSome || (s.kt k).cmp.isSome then ([], s.ktApply k)
    else if !s.on (F.PWR_KCTRL_KEN k) then ([], s)
    else
      let c := (s.get (F.PWR_KCOUNT_KCOUNT k) + 1) % 2 ^ 32
      let s := s.put (F.PWR_KCOUNT_KCOUNT k) c
      let hit := c == s.get (F.PWR_KCMP_KCMP k)
      let s := if hit then s.put (F.PWR_KCTRL_MATCHF k) 1 else s
      let s := if hit && s.on (F.PWR_KCTRL_KAUTO k) then
          s.put (F.PWR_KCMP_KCMP k) ((s.get (F.PWR_KCMP_KCMP k) + s.get (F.PWR_KINT_KINT k)) % 2 ^ 32)
        else s
      let r := if c = 0 ∧ k < 7 ∧ s.on (F.PWR_KCTRL_KSRC (k + 1)) = true then s.ktStep (k + 1) fuel else ([], s)
      (if hit then k :: r.1 else r.1, r.2)

/-- An SCLK edge at keeper timer `k` (R239): a timer that counts wraps only takes its held writes. -/
def State.ktEdge (s : State) (k : Nat) : List Nat × State :=
  if s.on (F.PWR_KCTRL_KSRC k) && (s.kt k).count.isNone && (s.kt k).cmp.isNone then ([], s) else s.ktStep k 8

end Sys2Proof.Machine
end

