-- ==== Sys2Proof/Machine/Pins.lean ====
section
/-! DEFINITION. The pins (R280-R289, R292): what drives a pad, what reads it, function switches, pin events, and the private
GPIO ports. -/

namespace Sys2Proof.Machine

/-- A pin's typed state. -/
def State.pn (s : State) (n : Nat) : Pin := tget (fun _ => Pin.reset) s.pin n

/-- The state with a pin's typed state replaced. -/
def State.setPn (s : State) (n : Nat) (x : Pin) : State := { s with pin := tset (fun _ => Pin.reset) n x s.pin }

/-- A pin's register page (R292). -/
def pinPage (n : Nat) : Nat := 0x1D0 + n / 32

/-- A field of a pin's CFG (R292). -/
def pinCfg (n lo width : Nat) : RF := ⟨R.PIN_CFG (n / 32) (n % 32), lo, width⟩

/-- FSEL and SUB of a pin (R282). -/
def State.pinFsel (s : State) (n : Nat) : Nat := s.get (pinCfg n 0 3)
def State.pinSub (s : State) (n : Nat) : Nat := s.get (pinCfg n 4 5)

/-- The beam output that SUB names (R282, R283). -/
def State.beamOut (s : State) (sub : Nat) : Bool :=
  match sub with
  | 0 => s.hsync
  | 1 => s.vsync
  | 2 => s.activeTicks
  | 3 => s.activeLines
  | 4 => s.activeTicks && s.activeLines
  | 5 => s.beamRun && s.beam.tick == 0
  | 6 => s.beamRun && s.beam.tick == 0 && s.beam.line == 0
  | _ => false

/-- What a pin's function puts on the pad: none where it does not drive (R282, R283, R324). -/
def State.pinFn (s : State) (n : Nat) : Option Bool :=
  let sub := s.pinSub n
  match s.pinFsel n with
  | 0 => if (s.get (F.PIN_GPIOOE_GPIOOE (n / 32))).testBit (n % 32) then
      some ((s.get (F.PIN_GPIOOUT_GPIOOUT (n / 32))).testBit (n % 32)) else none
  | 1 => if (s.pn n).dir then some (s.pn n).val else none
  | 2 => some (s.beamOut sub)
  | 3 => some (if sub < 4 then s.on (F.STI_CTRL_WAKE sub) else s.beamOut 6)
  | 5 => some (tget (fun _ => 0) s.cvtrig sub == s.fclk + 1)
  | 6 => some (s.pn n).evOut
  | _ => none

/-- What the block drives on a pad now (R280, R284, R288, R289). -/
def State.pinDrive (s : State) (n : Nat) : Option Bool :=
  if s.on (pinCfg n 13 1) then none
  else
    match (s.pn n).gap with
    | some (w, d) => if s.fclk ≤ w + 2 then d else (s.pn n).hold.or (s.pinFn n)
    | none => (s.pn n).hold.or (s.pinFn n)

/-- The pad's level as the pad cell delivers it: the driven value, or the level from outside (R281, R285, log entry 20). With ANA
set every read path sees 0 (R284). -/
def State.padLevel (s : State) (n : Nat) : Bool := if s.on (pinCfg n 13 1) then false else (s.pinDrive n).getD (s.pn n).ext

/-- The levels of `count` pins from `base` on, modulo 128, as a number (R268). -/
def State.padBits (s : State) (base count : Nat) : Nat :=
  (List.range count).foldl (fun acc i => acc + b2n (s.padLevel ((base + i) % 128)) * 2 ^ i) 0

/-- An engine's write of one pin latch, ignored for a pin that is not the engine's (R280). -/
def State.latchPin (s : State) (e n : Nat) (dirs v : Bool) : State :=
  if s.pinFsel n = 1 ∧ s.pinSub n = e then
    s.setPn n (if dirs then { s.pn n with dir := v } else { s.pn n with val := v })
  else s

/-- An engine's write of `count` pins from `base` on; pins for which `skip` holds keep their value (R266, R268). -/
def State.latchPins (s : State) (e base count v : Nat) (dirs : Bool) (skip : Nat → Bool) : State :=
  (List.range count).foldl (fun s i =>
    let n := (base + i) % 128
    if skip n then s else s.latchPin e n dirs (v.testBit i)) s

/-! Pin events. -/

/-- One sample `p` of a pin's filter (R286): without a filter F is the sample; the glitch filter takes a level that FLEN samples in a row
have held; the debounce takes the first sample that differs, and then ignores FLEN samples. -/
def Pin.sample (x : Pin) (fmode flen : Nat) (p : Bool) : Pin :=
  if fmode = 1 ∧ flen ≠ 0 then
    if x.filt == p then { x with count := 0 }
    else if x.count + 1 < flen then { x with count := x.count + 1 }
    else { x with filt := p, count := 0 }
  else if fmode = 2 ∧ flen ≠ 0 then
    if x.count ≠ 0 then { x with count := x.count - 1 }
    else if x.filt == p then x
    else { x with filt := p, count := flen }
  else { x with filt := p, count := 0 }

/-- A sample of the pad reaches a pin's filter (R286): whether F made an edge that EDGE selects, and the state. A pin with ANA set or in a
switch makes no event; its line is posted, and EVSTAT set, only while FCLK runs. -/
def State.pinSample (s : State) (n : Nat) : Bool × State :=
  let x := s.pn n
  let keeper := s.pinFsel n == 4
  if s.on (pinCfg n 13 1) || s.on (pinCfg n 63 1) || (!keeper && !s.pwr.running) then (false, s)
  else
    let y := x.sample (s.get (pinCfg n 14 2)) (s.get (pinCfg n 16 8)) (s.padLevel n)
    let s := s.setPn n y
    let edge := y.filt != x.filt && (s.get (pinCfg n 24 2)).testBit (if y.filt then 0 else 1)
    if edge && s.pwr.running then
      (true, (s.put ⟨R.PIN_EVSTAT (n / 32), n % 32, 1⟩ 1).post (0x300 + n))
    else (edge, s)

/-- The level the pad cell delivers from outside. -/
def State.padInput (s : State) (n : Nat) (level : Bool) : State := s.setPn n { s.pn n with ext := level }

/-! Function switches (R282, R288). -/

/-- Whether SUB is reserved under a function (R282). -/
def subReserved (fsel sub : Nat) : Bool :=
  match fsel with
  | 0 => decide (8 ≤ sub)
  | 2 => decide (7 ≤ sub)
  | 3 => decide (8 ≤ sub)
  | 5 => decide (8 ≤ sub)
  | _ => false

/-- PIN_FUNCTION_SWITCH: a write of a pin's CFG (R282, R284, R288, R292). Reserved values leave their fields; a change of FSEL, SUB
or ANA starts a switch. -/
def State.pinCfgWrite (s : State) (n : Nat) (v : Word) : State :=
  let key := R.PIN_CFG (n / 32) (n % 32)
  let cur := s.reg key
  let badF := fld v 0 3 == 7
  let fsel := if badF then fld cur 0 3 else fld v 0 3
  let badS := subReserved fsel (fld v 4 5)
  let badP := fld v 11 2 == 3
  let badM := fld v 14 2 == 3
  let badE := decide (0xC80 ≤ fld v 28 12)
  let keep := fun (bad : Bool) (lo w : Nat) => (if bad then fld cur lo w else fld v lo w) * 2 ^ lo
  let new : Word := BitVec.ofNat 64 (fsel + keep badS 4 5 + fld v 9 2 * 2 ^ 9 + keep badP 11 2 + fld v 13 1 * 2 ^ 13 + keep badM 14 2 +
    fld v 16 10 * 2 ^ 16 + keep badE 28 12 + fld cur 63 1 * 2 ^ 63)
  let switch := fld new 0 9 != fld cur 0 9 || fld new 13 1 != fld cur 13 1
  let old := s.pinDrive n
  let s := s.setReg key new
  let s := if switch then
      let gap := match old, (if s.on (pinCfg n 13 1) then none else s.pinFn n) with
        | some v, some _ => some v
        | _, _ => none
      (s.setPn n { s.pn n with gap := some (s.fclk, gap), hold := none }).put (pinCfg n 63 1) 1
    else s
  if badF || badS || badP || badM || badE then s.rej (pinPage n) else s

/-- PIN_SWITCH_SETTLED (R288): F takes S, and SWPEND clears. -/
def State.pinSettle (s : State) (n : Nat) : State :=
  if s.on (pinCfg n 63 1) then
    let s := (s.setPn n { s.pn n with gap := none }).put (pinCfg n 63 1) 0
    s.setPn n { s.pn n with filt := s.padLevel n, count := 0 }
  else s

/-! Private GPIO ports (R287, R348). -/

/-- The bits of `mask` that name pins of word `b` owned by core `k`. -/
def State.ownedBits (s : State) (k b mask : Nat) : Nat :=
  (List.range 32).foldl (fun acc i =>
    let n := 32 * b + i
    if mask.testBit i && s.pinFsel n == 0 && s.pinSub n == k then acc + 2 ^ i else acc) 0

/-- A write operation of core `k`'s port on word `b` (R287): `f` makes the new word of the old one and the owned mask bits; the
others are counted. -/
def State.gpioOp (s : State) (k b mask : Nat) (field : RF) (f : Nat → Nat → Nat) : State :=
  if s.pwr.running then
    let own := s.ownedBits k b mask
    let s := s.put field (f (s.get field) own)
    s.add (errcnt (0x1D0 + b)) (popBits 32 (mask ^^^ own))
  else s

/-- The word operations of the ports and of GPIOSET, GPIOCLR and GPIOTOG. -/
def wordSet (w m : Nat) : Nat := w ||| m
def wordClr (w m : Nat) : Nat := w ^^^ (w &&& m)
def wordTog (w m : Nat) : Nat := w ^^^ m

/-- GPIO_READ (R287): the pad levels of word `b`. -/
def State.gpioRead (s : State) (k b : Nat) : State :=
  if s.pwr.running then
    { s with resp := { s.resp with gpio := tset (fun _ => 0) k (BitVec.ofNat 32 (s.padBits (32 * b) 32)) s.resp.gpio } }
  else s

/-- A host write of GPIOSET, GPIOCLR or GPIOTOG (R292). -/
def State.gpioHost (s : State) (k key v : Nat) (f : Nat → Nat → Nat) : State :=
  s.hostWrite 0 key (fun s => s.put (F.PIN_GPIOOUT_GPIOOUT k) (f (s.get (F.PIN_GPIOOUT_GPIOOUT k)) v))

/-- An assertion reaches the event-out pins (R283). -/
def State.pinAssert (s : State) (line : Nat) : State :=
  (List.range 128).foldl (fun s n =>
    if s.pinFsel n == 6 && s.get (pinCfg n 28 12) == line then s.setPn n { s.pn n with evOut := true } else s) s

/-! The rows. -/

def execPinFunctionSwitch (n : Fin 128) (cfg : BitVec 64) (s : State) : Res :=
  .next (s.hostPair 0 (R.PIN_CFG (n.val / 32) (n.val % 32)) (fun s => s.pinCfgWrite n.val cfg))

def execPinSwitchSettled (n : Fin 128) (s : State) : Res := .next (if s.pwr.running then s.pinSettle n.val else s)

/-- GPIO_READ (R287); a request with the OP code 7, which has no row of its own, does nothing and is counted (R348). -/
def execGpioRead (k : Fin 8) (ask : GpioAsk) (s : State) : Res :=
  .next (if ask.reserved then (if s.pwr.running then s.err (0x1D0 + ask.word.val) else s) else s.gpioRead k.val ask.word.val)

def execGpioSet (k : Fin 8) (word : Fin 4) (mask : BitVec 32) (s : State) : Res :=
  .next (s.gpioOp k.val word.val mask.toNat (F.PIN_GPIOOUT_GPIOOUT word.val) wordSet)

def execGpioClr (k : Fin 8) (word : Fin 4) (mask : BitVec 32) (s : State) : Res :=
  .next (s.gpioOp k.val word.val mask.toNat (F.PIN_GPIOOUT_GPIOOUT word.val) wordClr)

def execGpioTog (k : Fin 8) (word : Fin 4) (mask : BitVec 32) (s : State) : Res :=
  .next (s.gpioOp k.val word.val mask.toNat (F.PIN_GPIOOUT_GPIOOUT word.val) wordTog)

def execGpioOeset (k : Fin 8) (word : Fin 4) (mask : BitVec 32) (s : State) : Res :=
  .next (s.gpioOp k.val word.val mask.toNat (F.PIN_GPIOOE_GPIOOE word.val) wordSet)

def execGpioOeclr (k : Fin 8) (word : Fin 4) (mask : BitVec 32) (s : State) : Res :=
  .next (s.gpioOp k.val word.val mask.toNat (F.PIN_GPIOOE_GPIOOE word.val) wordClr)

def execGpiosetWrite (k : Fin 4) (value : BitVec 32) (s : State) : Res := .next (s.gpioHost k.val (R.PIN_GPIOSET k.val) value.toNat wordSet)

def execGpioclrWrite (k : Fin 4) (value : BitVec 32) (s : State) : Res := .next (s.gpioHost k.val (R.PIN_GPIOCLR k.val) value.toNat wordClr)

def execGpiotogWrite (k : Fin 4) (value : BitVec 32) (s : State) : Res := .next (s.gpioHost k.val (R.PIN_GPIOTOG k.val) value.toNat wordTog)

/-- EVENT_OUT_FALL (R283): 8 FCLK after the last assertion of EVSEL the event-out level falls. -/
def execEventOutFall (n : Fin 128) (s : State) : Res := .next (s.setPn n.val { s.pn n.val with evOut := false })

end Sys2Proof.Machine
end

