-- ==== Sys2Proof/Machine/Pio.lean ====
section
/-! DEFINITION. The I/O engines (R262-R281, R290, R291): instructions, shifters and queues, bank feeds, and starting and
stopping. -/

namespace Sys2Proof.Machine

/-- An engine's typed state. -/
def State.en (s : State) (e : Nat) : Engine := tget (fun _ => Engine.reset) s.pio e

/-- The state with an engine's typed state replaced. -/
def State.setEn (s : State) (e : Nat) (x : Engine) : State := { s with pio := tset (fun _ => Engine.reset) e x s.pio }

/-- An engine's register page (R290). -/
def pioPage (e : Nat) : Nat := 0x1A0 + e

/-- The depths of the queues under JOIN (R275). -/
def State.txCap (s : State) (e : Nat) : Nat :=
  match s.get (F.PIO_SHIFTCFG_JOIN e) with | 1 => 16 | 2 => 0 | _ => 8
def State.rxCap (s : State) (e : Nat) : Nat :=
  match s.get (F.PIO_SHIFTCFG_JOIN e) with | 1 => 0 | 2 => 16 | _ => 8

/-- The frame widths (R269, R290): 0 means 32. -/
def frameBits (n : Nat) : Nat := if n = 0 then 32 else n
def State.txFrame (s : State) (e : Nat) : Nat := frameBits (s.get (F.PIO_SHIFTCFG_TXFRAME e))
def State.rxFrame (s : State) (e : Nat) : Nat := frameBits (s.get (F.PIO_SHIFTCFG_RXFRAME e))

/-! The shifters (R268, R269), on the typed state alone. -/

/-- A TX entry taken as the new frame (R269). -/
def Engine.pull (x : Engine) (frame : Nat) (entry : BitVec 32) (rest : List (BitVec 32)) : Engine :=
  { x with txs := BitVec.ofNat 32 (fld entry 0 frame), txbits := frame, txq := rest, nodata := false }

/-- The next `k` bits of the current frame, and the shifter after them (R268); `k` is at most TXBITS. -/
def Engine.take (x : Engine) (msb : Bool) (k : Nat) : Nat × Engine :=
  if msb then (nfld x.txs.toNat (x.txbits - k) k, { x with txbits := x.txbits - k })
  else (fld x.txs 0 k, { x with txs := x.txs >>> k, txbits := x.txbits - k })

/-- `hi` bits already formed joined with `k` more, in the order of R268: most significant first, or least. -/
def joinBits (msb : Bool) (v n w k : Nat) : Nat := if msb then v * 2 ^ k + w else v + w * 2 ^ n

/-- The `n` bits an OUT sends under TXSTREAM (R268, R269): frames are joined end to end; none while the TX queue runs dry. -/
def Engine.outStream (x : Engine) (msb : Bool) (frame : Nat) : Nat → Nat → Nat → Nat → Option (Nat × Engine)
  | 0, _, _, _ => none
  | fuel + 1, v, have_, n =>
    if n = 0 then some (v, x)
    else if x.txbits = 0 then
      match x.txq with
      | [] => none
      | w :: rest => (x.pull frame w rest).outStream msb frame fuel v have_ n
    else
      let k := Nat.min n x.txbits
      let r := x.take msb k
      r.2.outStream msb frame fuel (joinBits msb v have_ r.1 k) (have_ + k) (n - k)

/-- The `n` bits an OUT sends without TXSTREAM: the frame's bits, then zeros (R268). -/
def Engine.outPlain (x : Engine) (msb : Bool) (n : Nat) : Nat × Engine :=
  let k := Nat.min n x.txbits
  let r := x.take msb k
  let y := if msb then r.2 else { r.2 with txs := x.txs >>> n }
  (joinBits msb r.1 k 0 (n - k), y)

/-- What gathering does: no room for a completed frame, or the shifter and queue after it, and how many words were discarded
under JOIN 1 (R268, R269, R275). -/
def Engine.gather (x : Engine) (msb stream : Bool) (frame cap : Nat) (joined : Bool) : Nat → Nat → Nat → Nat → Option (Engine × Nat)
  | 0, _, _, lost => some (x, lost)
  | fuel + 1, v, n, lost =>
    let k := Nat.min n (frame - x.rxbits)
    let first := if msb then v / 2 ^ (n - k) else v % 2 ^ k
    let rxs := if msb then BitVec.ofNat 32 (x.rxs.toNat * 2 ^ k + first) else x.rxs ||| BitVec.ofNat 32 (first * 2 ^ x.rxbits)
    let x := { x with rxs := rxs, rxbits := if n ≤ k then x.rxbits + n else frame }
    if stream && decide (frame ≤ x.rxbits) then
      if joined then
        let y := { x with rxs := 0, rxbits := 0 }
        if n - k = 0 then some (y, lost + 1)
        else y.gather msb stream frame cap joined fuel (if msb then v % 2 ^ (n - k) else v / 2 ^ k) (n - k) (lost + 1)
      else if cap ≤ x.rxq.length then none
      else
        let y := { x with rxs := 0, rxbits := 0, rxq := x.rxq ++ [x.rxs], noroom := false }
        if n - k = 0 then some (y, lost)
        else y.gather msb stream frame cap joined fuel (if msb then v % 2 ^ (n - k) else v / 2 ^ k) (n - k) lost
    else some (x, lost)

/-! Instructions. -/

/-- What an instruction does at an edge: it stalls with a STATUS cause, or executes with an optional jump target (R266). -/
inductive PioOut where
  | stall (cause : Nat)
  | done (jump : Option Nat)
  deriving DecidableEq, Repr

/-- The pins a SIDE field names with an action other than hold (R265, R266). -/
def State.sidePins (s : State) (e : Nat) (w : BitVec 32) (n : Nat) : Bool :=
  (List.range 4).any (fun j => fld w (14 + 2 * j) 2 != 0 && (s.get (F.PIO_PINMAP_SIDEBASE e) + j) % 128 == n)

/-- The SIDE actions of a word (R265, R266). -/
def State.sideActions (s : State) (e : Nat) (w : BitVec 32) : State :=
  (List.range 4).foldl (fun s j =>
    let n := (s.get (F.PIO_PINMAP_SIDEBASE e) + j) % 128
    match fld w (14 + 2 * j) 2 with
    | 1 => s.latchPin e n false true
    | 2 => s.latchPin e n false false
    | 3 => s.latchPin e n false (!(s.pn n).val)
    | _ => s) s

/-- Whether a word is reserved (R267). -/
def pioReserved (w : BitVec 32) : Bool :=
  match fld w 28 4 with
  | 0 => fld w 11 3 == 7
  | 1 => decide (6 ≤ fld w 11 3)
  | 3 => fld w 12 2 == 0 && decide (0xC80 ≤ fld w 0 12)
  | 7 => fld w 11 3 == 7 || fld w 8 3 == 7
  | 9 => decide (13 ≤ fld w 10 4)
  | n => decide (12 ≤ n)

/-- Gathering into RXS with its counts: none means no room (R268, R269). -/
def State.gatherIn (s : State) (e : Nat) (v n : Nat) : Option State :=
  match (s.en e).gather (s.on (F.PIO_SHIFTCFG_RXMSB e)) (s.on (F.PIO_SHIFTCFG_RXSTREAM e)) (s.rxFrame e) (s.rxCap e)
      (s.get (F.PIO_SHIFTCFG_JOIN e) == 1) 40 v n 0 with
  | some (x, lost) => some (if lost = 0 then s.setEn e x else (s.setEn e x).add (errcnt (pioPage e)) lost)
  | none => none

/-- OUT (R268). -/
def State.pioOut (s : State) (e : Nat) (w : BitVec 32) : PioOut × State :=
  let n := frameBits (fld w 0 5)
  let msb := s.on (F.PIO_SHIFTCFG_TXMSB e)
  let r := if s.on (F.PIO_SHIFTCFG_TXSTREAM e) then (s.en e).outStream msb (s.txFrame e) 80 0 0 n else some ((s.en e).outPlain msb n)
  match r with
  | none => (.stall 1, s)
  | some (v, x) =>
    let s' := s.setEn e x
    match fld w 11 3 with
    | 0 => (.done none, s'.latchPins e (s.get (F.PIO_PINMAP_OUTBASE e)) n v false (s.sidePins e w))
    | 1 => (.done none, s'.latchPins e (s.get (F.PIO_PINMAP_OUTBASE e)) n v true (fun _ => false))
    | 2 => (.done none, s.setEn e { x with x := BitVec.ofNat 32 v })
    | 3 => (.done none, s.setEn e { x with y := BitVec.ofNat 32 v })
    | 5 => (.done (some ((s.get (F.PIO_EXECCFG_WRAPBOT e) + v) % 64)), s')
    | 6 =>
      match s'.gatherIn e v n with
      | some t => (.done none, t)
      | none => (.stall 2, s)
    | _ => (.done none, s')

/-- IN (R268). -/
def State.pioIn (s : State) (e : Nat) (w : BitVec 32) : PioOut × State :=
  let n := frameBits (fld w 0 5)
  let x := s.en e
  let v := match fld w 11 3 with
    | 0 => s.padBits (s.get (F.PIO_PINMAP_INBASE e)) n
    | 1 => fld x.x 0 n
    | 2 => fld x.y 0 n
    | 4 => 2 ^ n - 1
    | 5 => (x.outPlain (s.on (F.PIO_SHIFTCFG_TXMSB e)) n).1
    | _ => 0
  match s.gatherIn e v n with
  | some t => (.done none, t)
  | none => (.stall 2, s)

/-- PULL (R269, R275). -/
def State.pioPull (s : State) (e : Nat) (w : BitVec 32) : PioOut × State :=
  let x := s.en e
  if bit w 1 && x.txbits != 0 then (.done none, s)
  else
    match x.txq with
    | v :: rest => (.done none, s.setEn e (x.pull (s.txFrame e) v rest))
    | [] => if bit w 0 then (.done none, s.setEn e { x with nodata := true }) else (.stall 1, s)

/-- PUSH (R269, R275). -/
def State.pioPush (s : State) (e : Nat) (w : BitVec 32) : PioOut × State :=
  let x := s.en e
  if bit w 1 && x.rxbits != s.rxFrame e then (.done none, s)
  else if s.get (F.PIO_SHIFTCFG_JOIN e) = 1 then (.done none, (s.setEn e { x with rxs := 0, rxbits := 0 }).err (pioPage e))
  else if x.rxq.length < s.rxCap e then
    (.done none, s.setEn e { x with rxs := 0, rxbits := 0, rxq := x.rxq ++ [x.rxs], noroom := false })
  else if bit w 0 then (.done none, (s.setEn e { x with noroom := true }).err (pioPage e))
  else (.stall 2, s)

/-- STAT (R270, R275). -/
def State.pioStat (s : State) (e : Nat) : BitVec 32 :=
  let x := s.en e
  BitVec.ofNat 32 (x.txq.length + x.rxq.length * 2 ^ 8 + x.txbits * 2 ^ 16 + x.rxbits * 2 ^ 24 + b2n x.nodata * 2 ^ 30 + b2n x.noroom * 2 ^ 31)

/-- The bytes of a word in reverse order (R270). -/
def byteReverse (v : BitVec 32) : BitVec 32 :=
  BitVec.ofNat 32 (fld v 24 8 + fld v 16 8 * 2 ^ 8 + fld v 8 8 * 2 ^ 16 + fld v 0 8 * 2 ^ 24)

/-- MOV (R270). -/
def State.pioMov (s : State) (e : Nat) (w : BitVec 32) : PioOut × State :=
  let x := s.en e
  let v : BitVec 32 := match fld w 8 3 with
    | 0 => BitVec.ofNat 32 (s.padBits (s.get (F.PIO_PINMAP_INBASE e)) 32)
    | 1 => x.x
    | 2 => x.y
    | 3 => x.txs
    | 4 => x.rxs
    | 5 => s.pioStat e
    | _ => 0
  let v := match fld w 6 2 with
    | 1 => ~~~ v
    | 2 => byteReverse v
    | 3 => v + 1
    | _ => v
  let base := s.get (F.PIO_PINMAP_OUTBASE e)
  let width := s.get (F.PIO_PINMAP_OUTW e)
  match fld w 11 3 with
  | 0 => (.done none, s.latchPins e base width v.toNat false (s.sidePins e w))
  | 1 => (.done none, s.setEn e { x with x := v })
  | 2 => (.done none, s.setEn e { x with y := v })
  | 3 => (.done none, s.setEn e { x with txs := v, txbits := s.txFrame e })
  | 4 => (.done none, s.setEn e { x with rxs := v, rxbits := s.rxFrame e })
  | 5 => (.done (some (fld v 0 6)), s)
  | _ => (.done none, s.latchPins e base width v.toNat true (fun _ => false))

/-- SETP (R270). -/
def State.pioSetp (s : State) (e : Nat) (w : BitVec 32) : PioOut × State :=
  let x := s.en e
  let v := fld w 0 10
  let base := s.get (F.PIO_PINMAP_SETBASE e)
  let width := s.get (F.PIO_PINMAP_SETW e)
  match fld w 12 2 with
  | 0 => (.done none, s.latchPins e base width v false (s.sidePins e w))
  | 1 => (.done none, s.latchPins e base width v true (fun _ => false))
  | 2 => (.done none, s.setEn e { x with x := BitVec.ofNat 32 v })
  | _ => (.done none, s.setEn e { x with y := BitVec.ofNat 32 v })

/-- WAITP (R271). -/
def State.pioWaitp (s : State) (e : Nat) (w : BitVec 32) : PioOut × State :=
  let pin := if bit w 12 then (s.get (F.PIO_PINMAP_INBASE e) + fld w 0 7) % 128 else fld w 0 7
  if s.padLevel pin == bit w 13 then (.done none, s) else (.stall 3, s)

/-- WAITE (R271): with LATCH the event latch, cleared as it completes; otherwise the record made since its first edge. -/
def State.pioWaite (s : State) (e : Nat) (w : BitVec 32) : PioOut × State :=
  if bit w 13 then
    if s.on (F.PIO_EVLATCH_LATCHED e) then (.done none, s.put (F.PIO_EVLATCH_LATCHED e) 0) else (.stall 4, s)
  else if (s.en e).seen then (.done none, s.setEn e { s.en e with seen := false })
  else (.stall 4, s)

/-- JCNT (R272). -/
def State.pioJcnt (s : State) (e : Nat) (w : BitVec 32) : PioOut × State :=
  let x := s.en e
  if bit w 13 then
    if x.y = 0 then (.done none, s) else (.done (some (fld w 0 6)), s.setEn e { x with y := x.y - 1 })
  else if x.x = 0 then (.done none, s)
  else (.done (some (fld w 0 6)), s.setEn e { x with x := x.x - 1 })

/-- The conditions of JCOND (R272, R275). -/
def State.pioCond (s : State) (e n : Nat) : Bool :=
  let x := s.en e
  match n with
  | 0 => true
  | 1 => x.x == 0
  | 2 => x.x != 0
  | 3 => x.y == 0
  | 4 => x.y != 0
  | 5 => x.x != x.y
  | 6 => s.padLevel (s.get (F.PIO_PINMAP_JPIN e))
  | 7 => x.txbits == 0
  | 8 => x.txq.isEmpty
  | 9 => s.get (F.PIO_SHIFTCFG_JOIN e) != 1 && decide (s.rxCap e ≤ x.rxq.length)
  | 10 => s.on (F.PIO_EVLATCH_LATCHED e)
  | 11 => x.nodata
  | 12 => x.noroom
  | _ => false

/-- What has reached the engines in this FCLK (R271). -/
def State.heardNow (s : State) : Heard := if s.heard.fclk = s.fclk then s.heard else ⟨s.fclk, [], []⟩

/-- Whether a word is a WAITE without the latch (R271), on the spine (`sib` clear) or on a sibling's mark. -/
def waitsFor (w : BitVec 32) (sib : Bool) : Bool := fld w 28 4 == 3 && !bit w 13 && bit w 12 == sib

/-- MARK m (R273): posted when its EVEN bit is set, and recorded by every sibling whose WAITE waits for it (R271). -/
def State.pioMark (s : State) (e m : Nat) : State :=
  let s := { s with heard := { s.heardNow with marks := s.heardNow.marks ++ [(e, m)] } }
  let s := s.postIf ((s.get (F.PIO_EVEN_MARKS e)).testBit m) (0x2C0 + 2 * e + m)
  (List.range 8).foldl (fun s i =>
    let k := e / 8 * 8 + i
    match (s.en k).stalled with
    | some t =>
      if waitsFor t.word true ∧ fld t.word 3 1 = m ∧ fld t.word 0 3 = e % 8 then
        s.setEn k { s.en k with seen := true }
      else s
    | none => s) s

/-- An instruction at an edge (R267): whether it stalls or jumps, and the state. A reserved word executes as IDLE and is counted. -/
def State.pioExec (s : State) (e addr : Nat) (w : BitVec 32) : PioOut × State :=
  if pioReserved w then
    (.done none, ((s.inc (F.PIO_RSVCNT_COUNT e)).put (F.PIO_RSVCNT_LAST e) addr).err (pioPage e))
  else
    match fld w 28 4 with
    | 0 => s.pioOut e w
    | 1 => s.pioIn e w
    | 2 => s.pioWaitp e w
    | 3 => s.pioWaite e w
    | 4 => s.pioSetp e w
    | 5 => s.pioPull e w
    | 6 => s.pioPush e w
    | 7 => s.pioMov e w
    | 8 => s.pioJcnt e w
    | 9 => (.done (if s.pioCond e (fld w 10 4) then some (fld w 0 6) else none), s)
    | 10 => (.done none, s.pioMark e (fld w 0 1))
    | _ => (.done none, s)

/-- The PC after an instruction (R266). -/
def State.pioNext (s : State) (e addr : Nat) (jump : Option Nat) : Nat :=
  match jump with
  | some t => t
  | none => if addr = s.get (F.PIO_EXECCFG_WRAPTOP e) then s.get (F.PIO_EXECCFG_WRAPBOT e) else (addr + 1) % 64

/-- A latched instruction tried at an edge (R266): it stalls, or executes, moves the PC and begins its delay. -/
def State.pioTry (s : State) (e addr : Nat) (w : BitVec 32) : State :=
  match s.pioExec e addr w with
  | (.stall cause, t) => t.setEn e { t.en e with stalled := some ⟨w, addr, cause⟩ }
  | (.done jump, t) => t.setEn e { t.en e with stalled := none, seen := false, delay := fld w 22 6, pc := t.pioNext e addr jump }

/-- Whether an engine takes edges (R277, R363). -/
def State.pioRuns (s : State) (e : Nat) : Bool := s.unitOn (domPio e) && s.on (F.PIO_CTRL_EN e)

/-- A mark of this FCLK reaches a WAITE that has started in it (R271). -/
def State.hearMarks (s : State) (e : Nat) (w : BitVec 32) : State :=
  if waitsFor w true && s.heardNow.marks.contains (e / 8 * 8 + fld w 0 3, fld w 3 1) && (s.en e).stalled.isSome then
    s.setEn e { s.en e with seen := true }
  else s

/-- A word started at an edge (R266, R271, R281): the instruction sees the pads as they are before its SIDE actions, and a WAITE the
lines that have reached the engine in this FCLK. -/
def State.pioStart (s : State) (e : Nat) (w : BitVec 32) : State :=
  let s := s.setEn e { s.en e with seen := waitsFor w false && s.heardNow.lines.contains (fld w 0 12) }
  ((s.pioTry e (s.en e).pc w).hearMarks e w).sideActions e w

/-- The divider of an engine moves to its edge (R264). -/
def State.pioDivide (s : State) (e : Nat) : State :=
  let d := s.get (F.PIO_CLKDIV_INT e) * 256 + s.get (F.PIO_CLKDIV_FRAC e)
  let x := s.en e
  let k := Nat.max 1 ((d - x.acc + 255) / 256)
  s.setEn e { x with acc := x.acc + 256 * k - d }

/-- ENGINE_EDGE (R264, R266): one clock of delay, a retry, or the fetch and start of IMEM[PC]. -/
def State.engineEdge (s : State) (e : Nat) : State :=
  if !s.pioRuns e then s
  else
    let s := s.pioDivide e
    let x := s.en e
    if x.delay ≠ 0 then s.setEn e { x with delay := x.delay - 1 }
    else
      match x.stalled with
      | some t => s.pioTry e t.addr t.word
      | none => s.pioStart e (BitVec.ofNat 32 (s.get (F.PIO_IMEM_IMEM e x.pc)))

/-- A row that is one engine operation (log entry 3): the edge that starts a word of that operation alone, with no SIDE and no DELAY. -/
def State.pioRow (s : State) (e : Nat) (op operand : Nat) : State :=
  if s.pioRuns e ∧ (s.en e).delay = 0 ∧ (s.en e).stalled = none then
    (s.pioDivide e).pioStart e (BitVec.ofNat 32 (op * 2 ^ 28 + operand))
  else s

/-! Queues (R274, R275). -/

/-- A word enters the TX queue where there is room (R274): none where it is full or absent. -/
def State.txPush (s : State) (e : Nat) (v : BitVec 32) : Option State :=
  let x := s.en e
  if x.txq.length < s.txCap e then some (s.setEn e { x with txq := x.txq ++ [v] }) else none

/-- The oldest entry of the RX queue leaves it (R274). -/
def State.rxPop (s : State) (e : Nat) : Option (BitVec 32 × State) :=
  let x := s.en e
  match x.rxq with
  | v :: rest => some (v, s.setEn e { x with rxq := rest })
  | [] => none

/-- TXQ_WRITE (R274). -/
def State.txqWrite (s : State) (e : Nat) (v : BitVec 32) : State := (s.txPush e v).getD (s.err (pioPage e))

/-- RXQ_READ (R274): the value returned, and the state. -/
def State.rxqRead (s : State) (e : Nat) : BitVec 32 × State := (s.rxPop e).getD (0, s.err (pioPage e))

/-! Feeds (R276). -/

/-- The bank address of a feed's next word. -/
def State.feedAddr (s : State) (base size off : RF) : Nat := s.get base * 8 + s.get off % 2 ^ s.get size

/-- A feed's offset moves on by a word, modulo the ring's size. -/
def State.feedNext (s : State) (size off : RF) : State := s.put off ((s.get off + 4) % 2 ^ s.get size)

/-- TX_FEED_ACCESS (R276, R182). -/
def State.txFeed (s : State) (e : Nat) : State :=
  let addr := s.feedAddr (F.PIO_TXFEED_BASE e) (F.PIO_TXFEED_LOG2SZ e) (F.PIO_TXFEED_OFFSET e)
  if s.unitOn (domPio e) && s.on (F.PIO_TXFEED_EN e) && decide ((s.en e).txq.length < s.txCap e) then
    match s.portAGate (bankOf addr) 0x21 with
    | .held => s
    | .refused =>
      let s := (s.violation addr 0x21 0).feedNext (F.PIO_TXFEED_LOG2SZ e) (F.PIO_TXFEED_OFFSET e)
      (s.txPush e 0).getD s
    | .accepted =>
      let r := s.portARead (addr / 8) 0x21
      let s := r.2.2.feedNext (F.PIO_TXFEED_LOG2SZ e) (F.PIO_TXFEED_OFFSET e)
      (s.txPush e (BitVec.ofNat 32 (fld r.1 (8 * (addr % 8)) 32))).getD s
  else s

/-- RX_FEED_ACCESS (R276, R182). -/
def State.rxFeed (s : State) (e : Nat) : State :=
  let addr := s.feedAddr (F.PIO_RXFEED_BASE e) (F.PIO_RXFEED_LOG2SZ e) (F.PIO_RXFEED_OFFSET e)
  if s.unitOn (domPio e) && s.on (F.PIO_RXFEED_EN e) then
    match s.portAGate (bankOf addr) 0x21, s.rxPop e with
    | .refused, some (_, t) => (t.violation addr 0x21 1).feedNext (F.PIO_RXFEED_LOG2SZ e) (F.PIO_RXFEED_OFFSET e)
    | .accepted, some (v, t) =>
      (t.storeStep addr 4 0x21 (v.setWidth 64)).feedNext (F.PIO_RXFEED_LOG2SZ e) (F.PIO_RXFEED_OFFSET e)
    | _, _ => s
  else s

/-- A write of a feed register (R276): rejected as a whole on enabling a bad ring, or on changing an enabled feed. -/
def State.feedWrite (s : State) (e key : Nat) (v : Word) : State :=
  let cur := s.reg key
  let size := fld v 22 5
  let bad := !decide (6 ≤ size ∧ size ≤ 18)
  if bit cur 27 then
    if fld v 0 27 = fld cur 0 27 then s.setReg key (setFld cur 27 1 (fld v 27 1)) else s.rej (pioPage e)
  else if bit v 27 && (bad || ringCrosses (fld v 0 22) size) then s.rej (pioPage e)
  else
    let new := setFld (setFld cur 0 22 (fld v 0 22)) 27 1 (fld v 27 1)
    if bad then (s.setReg key new).rej (pioPage e) else s.setReg key (setFld new 22 5 size)

/-! Starting and stopping (R277-R279, R290, R291). -/

/-- EN set: the divider restarts (R277). -/
def State.pioEnable (s : State) (e : Nat) : State :=
  if s.on (F.PIO_CTRL_EN e) then s else (s.put (F.PIO_CTRL_EN e) 1).setEn e { s.en e with acc := 0 }

/-- EN cleared (R277): a stalled instruction and a delay are abandoned. -/
def State.pioDisable (s : State) (e : Nat) : State :=
  (s.put (F.PIO_CTRL_EN e) 0).setEn e { s.en e with stalled := none, delay := 0, seen := false }

/-- RELOAD (R279). -/
def State.pioReload (s : State) (e : Nat) : State := s.setEn e { s.en e with stalled := none, delay := 0, seen := false }

/-- CLRQ (R290). -/
def State.pioClrq (s : State) (e : Nat) : State :=
  if s.on (F.PIO_CTRL_EN e) then s.rej (pioPage e) else s.setEn e { s.en e with txq := [], rxq := [] }

/-- The divider of an engine restarts (R278). -/
def State.pioSync (s : State) (e : Nat) : State := s.setEn e { s.en e with acc := 0 }

/-- An operation on every engine of group `g` named in a mask (R278). -/
def State.pioGroup (s : State) (g mask : Nat) (f : State → Nat → State) : State :=
  (List.range 8).foldl (fun s i => if mask.testBit i then f s (8 * g + i) else s) s

/-- GROUP_START of one engine: EN set and the divider restarted, even for a running engine (R278). -/
def State.pioGo (s : State) (e : Nat) : State := (s.pioEnable e).pioSync e

/-- SHIFTCFG_WRITE (R275, R290). -/
def State.shiftcfgWrite (s : State) (e : Nat) (v : Word) : State :=
  let cur := s.get (F.PIO_SHIFTCFG_JOIN e)
  let bad := fld v 14 2 == 3
  let join := if bad then cur else fld v 14 2
  if join ≠ cur ∧ s.on (F.PIO_CTRL_EN e) = true then s.rej (pioPage e)
  else
    let s := s.setReg (R.PIO_SHIFTCFG e) (BitVec.ofNat 64 (fld v 0 14 + join * 2 ^ 14))
    let s := if join ≠ cur then s.setEn e { s.en e with txq := [], rxq := [] } else s
    if bad then s.rej (pioPage e) else s

/-- Writes of XY, SHIFT and STATE, while EN is 0 (R277, R290); `which` is 0, 1 or 2. Values over 32 for the bit counts are reserved. -/
def State.pioStateWrite (s : State) (e which : Nat) (v : Word) : State :=
  if s.on (F.PIO_CTRL_EN e) then s.rej (pioPage e)
  else
    let x := s.en e
    match which with
    | 0 => s.setEn e { x with x := BitVec.ofNat 32 (fld v 0 32), y := BitVec.ofNat 32 (fld v 32 32) }
    | 1 => s.setEn e { x with txs := BitVec.ofNat 32 (fld v 0 32), rxs := BitVec.ofNat 32 (fld v 32 32) }
    | _ =>
      let badT := decide (32 < fld v 0 6)
      let badR := decide (32 < fld v 8 6)
      let s := s.setEn e { x with
        txbits := if badT then x.txbits else fld v 0 6
        rxbits := if badR then x.rxbits else fld v 8 6
        pc := fld v 16 6
        nodata := bit v 24
        noroom := bit v 25 }
      if badT || badR then s.rej (pioPage e) else s

/-- XY, SHIFT, STATE and STATUS as they read (R290). -/
def State.pioXY (s : State) (e : Nat) : Word := BitVec.ofNat 64 ((s.en e).x.toNat + (s.en e).y.toNat * 2 ^ 32)
def State.pioShift (s : State) (e : Nat) : Word := BitVec.ofNat 64 ((s.en e).txs.toNat + (s.en e).rxs.toNat * 2 ^ 32)
def State.pioState (s : State) (e : Nat) : Word :=
  let x := s.en e
  BitVec.ofNat 64 (x.txbits + x.rxbits * 2 ^ 8 + x.pc * 2 ^ 16 + b2n x.nodata * 2 ^ 24 + b2n x.noroom * 2 ^ 25)
def State.pioStatus (s : State) (e : Nat) : Word :=
  let x := s.en e
  let st := if !s.on (F.PIO_CTRL_EN e) then 0 else if x.stalled.isSome then 2 else if x.delay ≠ 0 then 3 else 1
  let cause := match x.stalled with | some t => t.cause | none => 0
  BitVec.ofNat 64 (st + cause * 2 ^ 2 + x.pc * 2 ^ 5 + x.txq.length * 2 ^ 11 + x.rxq.length * 2 ^ 16 + x.delay * 2 ^ 21)

/-- An assertion reaches the engines: event latches (R271) and waits. -/
def State.pioAssert (s : State) (line : Nat) : State :=
  let s := { s with heard := { s.heardNow with lines := s.heardNow.lines ++ [line] } }
  (List.range 32).foldl (fun s e =>
    if !s.unitOn (domPio e) then s
    else
      let s := if s.on (F.PIO_EVLATCH_EN e) && s.get (F.PIO_EVLATCH_EV e) == line then s.put (F.PIO_EVLATCH_LATCHED e) 1 else s
      match (s.en e).stalled with
      | some t =>
        if waitsFor t.word false ∧ fld t.word 0 12 = line then s.setEn e { s.en e with seen := true } else s
      | none => s) s

/-! The rows. -/

/-- A host write of the register at `key` of an engine's or a group's page (R330). -/
def State.pioHost (s : State) (e key : Nat) (f : State → State) : State := s.hostWrite (domPio e) key f

def execEngineEdge (e : Fin 32) (s : State) : Res := .next (s.engineEdge e.val)

def execPioOut (e : Fin 32) (dst : BitVec 3) (n : BitVec 5) (s : State) : Res :=
  .next (s.pioRow e.val 0 (dst.toNat * 2 ^ 11 + n.toNat))

def execPioIn (e : Fin 32) (src : BitVec 3) (n : BitVec 5) (s : State) : Res :=
  .next (s.pioRow e.val 1 (src.toNat * 2 ^ 11 + n.toNat))

def execWaitp (e : Fin 32) (pol rel : Bool) (pin : BitVec 7) (s : State) : Res :=
  .next (s.pioRow e.val 2 (b2n pol * 2 ^ 13 + b2n rel * 2 ^ 12 + pin.toNat))

def execWaite (e : Fin 32) (latch sib : Bool) (event : BitVec 12) (s : State) : Res :=
  .next (s.pioRow e.val 3 (b2n latch * 2 ^ 13 + b2n sib * 2 ^ 12 + event.toNat))

def execSetp (e : Fin 32) (dst : BitVec 2) (value : BitVec 10) (s : State) : Res :=
  .next (s.pioRow e.val 4 (dst.toNat * 2 ^ 12 + value.toNat))

def execPull (e : Fin 32) (whenDrained noWait : Bool) (s : State) : Res :=
  .next (s.pioRow e.val 5 (b2n whenDrained * 2 + b2n noWait))

def execPioPush (e : Fin 32) (whenFull noWait : Bool) (s : State) : Res :=
  .next (s.pioRow e.val 6 (b2n whenFull * 2 + b2n noWait))

def execMov (e : Fin 32) (dst src : BitVec 3) (opn : BitVec 2) (s : State) : Res :=
  .next (s.pioRow e.val 7 (dst.toNat * 2 ^ 11 + src.toNat * 2 ^ 8 + opn.toNat * 2 ^ 6))

def execJcnt (e : Fin 32) (regY : Bool) (target : BitVec 6) (s : State) : Res :=
  .next (s.pioRow e.val 8 (b2n regY * 2 ^ 13 + target.toNat))

def execJcond (e : Fin 32) (cond : BitVec 4) (target : BitVec 6) (s : State) : Res :=
  .next (s.pioRow e.val 9 (cond.toNat * 2 ^ 10 + target.toNat))

def execMark (e : Fin 32) (m : Bool) (s : State) : Res := .next (s.pioRow e.val 10 (b2n m))

def execIdle (e : Fin 32) (s : State) : Res := .next (s.pioRow e.val 11 0)

def execTxqWrite (e : Fin 32) (value : BitVec 32) (s : State) : Res := .next (s.pioHost e.val (R.PIO_TXQ e.val) (fun s => s.txqWrite e.val value))

/-- RXQ_READ (R274): the value is the data of the register response. -/
def execRxqRead (e : Fin 32) (s : State) : Res :=
  .next (s.hostAccess (domPio e.val) (R.PIO_RXQ e.val) false (fun s => (s.rxqRead e.val).2.okResponse (s.rxqRead e.val).1))

def execTxFeedAccess (e : Fin 32) (s : State) : Res := .next (s.txFeed e.val)

def execRxFeedAccess (e : Fin 32) (s : State) : Res := .next (s.rxFeed e.val)

def execEngineEnable (e : Fin 32) (s : State) : Res := .next (s.pioHost e.val (R.PIO_CTRL e.val) (fun s => s.pioEnable e.val))

def execEngineDisable (e : Fin 32) (s : State) : Res := .next (s.pioHost e.val (R.PIO_CTRL e.val) (fun s => s.pioDisable e.val))

def execReload (e : Fin 32) (s : State) : Res := .next (s.pioHost e.val (R.PIO_CTRL e.val) (fun s => s.pioReload e.val))

def execClrq (e : Fin 32) (s : State) : Res := .next (s.pioHost e.val (R.PIO_CTRL e.val) (fun s => s.pioClrq e.val))

def execClrlat (e : Fin 32) (s : State) : Res := .next (s.pioHost e.val (R.PIO_CTRL e.val) (fun s => s.put (F.PIO_EVLATCH_LATCHED e.val) 0))

def execGroupStart (g : Fin 4) (engines : BitVec 8) (s : State) : Res :=
  .next (s.pioHost (8 * g.val) (R.PIOG_START g.val) (fun s => s.pioGroup g.val engines.toNat State.pioGo))

def execGroupStop (g : Fin 4) (engines : BitVec 8) (s : State) : Res :=
  .next (s.pioHost (8 * g.val) (R.PIOG_STOP g.val) (fun s => s.pioGroup g.val engines.toNat State.pioDisable))

def execDivsync (g : Fin 4) (engines : BitVec 8) (s : State) : Res :=
  .next (s.pioHost (8 * g.val) (R.PIOG_DIVSYNC g.val) (fun s => s.pioGroup g.val engines.toNat State.pioSync))

def execImemWrite (e : Fin 32) (i : Fin 64) (value : BitVec 32) (s : State) : Res :=
  .next (s.pioHost e.val (R.PIO_IMEM e.val i.val) (fun s => s.put (F.PIO_IMEM_IMEM e.val i.val) value.toNat))

def execShiftcfgWrite (e : Fin 32) (value : BitVec 64) (s : State) : Res :=
  .next (s.pioHost e.val (R.PIO_SHIFTCFG e.val) (fun s => s.shiftcfgWrite e.val value))

end Sys2Proof.Machine
end

