-- ==== Sys2Proof/Machine/Dma.lean ====
section
/-! DEFINITION. The DMA channels (chapter 09) and the host master port (R333): descriptor sets, pacing, bursts, errors and
commands. -/

namespace Sys2Proof.Machine

/-- A channel's typed state. -/
def State.dm (s : State) (n : Nat) : Dma := tget (fun _ => Dma.reset) s.dma n

/-- The state with a channel's typed state replaced. -/
def State.setDm (s : State) (n : Nat) (x : Dma) : State := { s with dma := tset (fun _ => Dma.reset) n x s.dma }

/-- A channel's register page (R261). -/
def dmaPage (n : Nat) : Nat := 0x0C0 + n

/-- The current set, 0 for A (R241). -/
def State.curSet (s : State) (n : Nat) : Nat := s.get (F.DMA_STATUS_CURSET n)

/-- A channel's state code (R245). -/
def State.dmaState (s : State) (n : Nat) : Nat := s.get (F.DMA_STATUS_STATE n)
def State.setDmaState (s : State) (n v : Nat) : State := s.put (F.DMA_STATUS_STATE n) v

/-- The registers of the current set. -/
def State.dCtl (s : State) (n : Nat) : Word := s.reg (R.DMA_CTL n (s.curSet n))
def State.dCount (s : State) (n : Nat) : Nat := s.get (F.DMA_COUNT_COUNT n (s.curSet n))
def State.dRemain (s : State) (n : Nat) : Nat := s.get (F.DMA_REMAIN_REMAIN n)
def State.dPace (s : State) (n : Nat) : Nat := fld (s.dCtl n) 16 2

/-! Endpoints (R242, R243). -/

/-- What an address names. -/
inductive EndPt where
  | host
  | bank
  | queue (q : Nat)
  | tx (e : Nat)
  | rx (e : Nat)
  | bad
  deriving DecidableEq, Repr

/-- The decoding of the table of R242. -/
def endPt (addr : Word) : EndPt :=
  let a := addr.toNat
  if bit addr 63 then .host
  else if a < 0x2000000 then .bank
  else if 0x100000000 ≤ a ∧ a < 0x100020000 ∧ a % 8 = 0 then .queue ((a - 0x100000000) / 8)
  else if 0x200000000 ≤ a ∧ a < 0x200000200 then
    if a % 16 = 0 then .tx ((a - 0x200000000) / 16) else if a % 16 = 8 then .rx ((a - 0x200000000) / 16) else .bad
  else .bad

/-- The element size of an endpoint (R242). -/
def EndPt.elem : EndPt → Nat
  | .queue _ => 8
  | .tx _ => 4
  | .rx _ => 4
  | _ => 1

/-- Whether an endpoint's cursor stays (R242). -/
def EndPt.fixed (p : EndPt) : Bool := p.elem != 1

/-- The address `k` bytes on from `a` (R255, R256): fixed, circular within 2^`clog` bytes, or linear, with bit 63 unchanged. -/
def cursorAt (p : EndPt) (circ : Bool) (clog : Nat) (a : Word) (k : Nat) : Word :=
  if p.fixed then a
  else if circ then BitVec.ofNat 64 (a.toNat / 2 ^ clog * 2 ^ clog + (a.toNat + k) % 2 ^ clog)
  else BitVec.ofNat 64 (a.toNat / 2 ^ 63 * 2 ^ 63 + (a.toNat + k) % 2 ^ 63)

/-- Whether a set runs in descending order (R254). -/
def descends (ctl src dst : Word) (count : Nat) : Bool :=
  let same := match endPt src, endPt dst with | .host, .host => true | .bank, .bank => true | _, _ => false
  !bit ctl 5 && !bit ctl 6 && same && decide (src.toNat < dst.toNat ∧ dst.toNat < src.toNat + count)

/-- Whether the running set descends: the programmed registers decide (R254). -/
def State.dDown (s : State) (n : Nat) : Bool :=
  let k := s.curSet n
  descends (s.dCtl n) (s.reg (R.DMA_SRC n k)) (s.reg (R.DMA_DST n k)) (s.dCount n)

/-! Starting sets (R244, R245). -/

/-- The checks of R244 on a CTL value with RUN set. -/
def State.setOk (s : State) (n k : Nat) (ctl : Word) : Bool :=
  let src := s.reg (R.DMA_SRC n k)
  let dst := s.reg (R.DMA_DST n k)
  let ps := endPt src
  let pd := endPt dst
  let clog := fld ctl 8 5
  let fields := fld ctl 16 2 != 3 && decide (fld ctl 18 12 < 0xC80) && decide (3 ≤ fld ctl 30 5 ∧ fld ctl 30 5 ≤ 24)
  let circ := (bit ctl 5 && !ps.fixed) || (bit ctl 6 && !pd.fixed)
  let wrong := (match ps with | .tx _ => true | _ => false) || (match pd with | .rx _ => true | _ => false)
  fields && (!circ || decide (6 ≤ clog ∧ clog ≤ 24)) &&
  s.get (F.DMA_COUNT_COUNT n k) % Nat.max ps.elem pd.elem == 0 &&
  (fld ctl 16 2 != 2 || ps.fixed || pd.fixed) && !(s.on (F.DMA_LOCK_HOST n) && (bit src 63 || bit dst 63)) && !wrong

/-- The bytes of a step (R248). -/
def State.stepBytes (s : State) (n : Nat) : Nat := Nat.min (2 ^ fld (s.dCtl n) 30 5) (s.dRemain n)

/-- A step begins (R245, R248): the channel is ACTIVE, and in EVENT mode a request is consumed. -/
def State.beginStep (s : State) (n : Nat) : State :=
  let s := if s.dPace n = 1 then s.put (F.DMA_STATUS_PREQ n) (s.get (F.DMA_STATUS_PREQ n) - 1) else s
  (s.setDm n { s.dm n with stepLeft := s.stepBytes n }).setDmaState n 2

/-- Whether a queue endpoint can give, or take, `bytes` (R247). -/
def State.endReady (s : State) (p : EndPt) (take : Bool) (bytes : Nat) : Bool :=
  match p with
  | .queue q => if take then decide (bytes ≤ 8 * s.qCount q) else decide (bytes ≤ 8 * (s.qCap q - s.qCount q))
  | .rx e => decide (bytes ≤ 4 * (s.en e).rxq.length)
  | .tx e => decide (bytes ≤ 4 * (s.txCap e - (s.en e).txq.length))
  | _ => true

/-- Whether a LEVEL request is present for `bytes` (R247, R248; log entry 22). -/
def State.levelOk (s : State) (n bytes : Nat) : Bool :=
  s.endReady (endPt (s.reg (R.DMA_CURSRC n))) true bytes && s.endReady (endPt (s.reg (R.DMA_CURDST n))) false bytes

/-- Whether a request is present for the next step of a channel (R247). -/
def State.requested (s : State) (n : Nat) : Bool :=
  match s.dPace n with
  | 1 => s.on (F.DMA_STATUS_PREQ n)
  | 2 => s.levelOk n (s.stepBytes n)
  | _ => true

/-- A channel in WAITREQ with a request present goes on; a set with no bytes consumes none (R245, R247, R248, R256). -/
def State.dmaPoke (s : State) (n : Nat) : State :=
  if s.dmaState n = 1 ∧ s.dRemain n ≠ 0 ∧ s.requested n = true then s.beginStep n else s

/-- Queue levels are examined in every FCLK (R245, R247; log entry 22): a waiting LEVEL channel with a request present goes on. -/
def State.dmaLevels (s : State) : State :=
  (List.range 64).foldl (fun s n => if s.dPace n = 2 ∧ s.unitOn (domDma n) = true then s.dmaPoke n else s) s

/-- A set starts (R241, R244, R245). -/
def State.startSet (s : State) (n k : Nat) : State :=
  let s := s.put (F.DMA_STATUS_CURSET n) k
  let s := (s.setReg (R.DMA_CURSRC n) (s.reg (R.DMA_SRC n k))).setReg (R.DMA_CURDST n) (s.reg (R.DMA_DST n k))
  let s := (s.put (F.DMA_REMAIN_REMAIN n) (s.get (F.DMA_COUNT_COUNT n k))).put (F.DMA_STATUS_RETRIES n) 0
  let s := s.setDm n { Dma.reset with abort := (s.dm n).abort }
  if s.dPace n = 0 then s.beginStep n else (s.setDmaState n 1).dmaPoke n

/-- The channel is IDLE, and an armed set then starts, A before B (R244). -/
def State.dmaIdle (s : State) (n : Nat) : State :=
  let s := s.setDmaState n 0
  if s.on (F.DMA_CTL_RUN n 0) then s.startSet n 0
  else if s.on (F.DMA_CTL_RUN n 1) then s.startSet n 1
  else s

/-- RUN of both sets cleared and the channel IDLE (R260). -/
def State.dmaRest (s : State) (n : Nat) : State :=
  let s := ((s.put (F.DMA_CTL_RUN n 0) 0).put (F.DMA_CTL_RUN n 1) 0).put (F.DMA_STATUS_STOPPING n) 0
  (s.setDmaState n 0).setDm n Dma.reset

/-- Whether a set may be written (R246): not the current set while the channel is busy with it; in CHAINWAIT the set it waits for
may be. -/
def State.setBusy (s : State) (n k : Nat) : Bool := k == s.curSet n && s.dmaState n != 0 && s.dmaState n != 5

/-- A CTL value with reserved fields left as they were (R411); whether there were any. A write that starts or arms a set has CLOG checked
only as R244 says (`start`). -/
def ctlMerge (start : Bool) (cur v : Word) : Word × Bool :=
  let badC := !start && !decide (6 ≤ fld v 8 5 ∧ fld v 8 5 ≤ 24)
  let badP := fld v 16 2 == 3
  let badE := decide (0xC80 ≤ fld v 18 12)
  let badS := !decide (3 ≤ fld v 30 5 ∧ fld v 30 5 ≤ 24)
  let new := setFld (setFld (setFld v 7 1 0) 13 3 0) 41 23 0
  let new := if badC then setFld new 8 5 (fld cur 8 5) else new
  let new := if badP then setFld new 16 2 (fld cur 16 2) else new
  let new := if badE then setFld new 18 12 (fld cur 18 12) else new
  let new := if badS then setFld new 30 5 (fld cur 30 5) else new
  (new, badC || badP || badE || badS)

/-- DMA_SET_START: a write of CTL of set `k` (R244, R246). -/
def State.ctlWrite (s : State) (n k : Nat) (v : Word) : State :=
  let cur := s.reg (R.DMA_CTL n k)
  if s.setBusy n k then s.rej (dmaPage n)
  else if bit cur 0 && !bit v 0 && k != s.curSet n then s.rej (dmaPage n)
  else if bit v 0 && !bit cur 0 then
    if !s.setOk n k v then s.rej (dmaPage n)
    else
      let s := s.setReg (R.DMA_CTL n k) (ctlMerge true cur v).1
      match s.dmaState n with
      | 0 => s.startSet n k
      | 3 => s.startSet n k
      | _ => s
  else
    let r := ctlMerge false cur v
    let s := s.setReg (R.DMA_CTL n k) r.1
    if r.2 then s.rej (dmaPage n) else s

/-- A write of SRC, DST or COUNT (R246). -/
def State.setRegWrite (s : State) (n k key : Nat) (v : Word) : State :=
  if s.setBusy n k then s.rej (dmaPage n) else s.setReg key v

/-! Pacing (R247-R249). -/

/-- A pacing assertion or action reaches a channel (R236, R248). -/
def State.dmaPace (s : State) (n : Nat) : State :=
  if s.get (F.DMA_STATUS_PREQ n) = 15 then (s.put (F.DMA_STATUS_OVERRUN n) 1).err (dmaPage n)
  else
    let s := s.inc (F.DMA_STATUS_PREQ n)
    if s.unitOn (domDma n) then s.dmaPoke n else s

/-- Whether a channel's current set is paced by events, running or not (R247). -/
def State.pacedNow (s : State) (n : Nat) : Bool := s.dPace n == 1

/-- An assertion reaches the pacing counters (R248, R362). -/
def State.dmaAssert (s : State) (line : Nat) : State :=
  (List.range 64).foldl (fun s n => if s.pacedNow n && fld (s.dCtl n) 18 12 == line then s.dmaPace n else s) s

/-! Bursts (R250-R259). -/

/-- The current set's parameters as a burst uses them. -/
structure DCfg where
  src : Word
  dst : Word
  ps : EndPt
  pd : EndPt
  ctl : Word
  down : Bool
  remain : Nat
  deriving DecidableEq, Repr

/-- Those of a channel now. -/
def State.dcfg (s : State) (n : Nat) : DCfg :=
  let src := s.reg (R.DMA_CURSRC n)
  let dst := s.reg (R.DMA_CURDST n)
  ⟨src, dst, endPt src, endPt dst, s.dCtl n, s.dDown n, s.dRemain n⟩

/-- The address of byte `j` of a burst of `len` bytes, at the source and at the destination (R254, R255). -/
def DCfg.srcAt (c : DCfg) (len j : Nat) : Word :=
  cursorAt c.ps (bit c.ctl 5) (fld c.ctl 8 5) c.src (if c.down then c.remain - len + j else j)
def DCfg.dstAt (c : DCfg) (len j : Nat) : Word :=
  cursorAt c.pd (bit c.ctl 6) (fld c.ctl 8 5) c.dst (if c.down then c.remain - len + j else j)

/-- The length of the next burst (R250, R254). -/
def DCfg.burstLen (c : DCfg) (stepLeft : Nat) : Nat :=
  let m := Nat.min 64 (Nat.min stepLeft c.remain)
  if c.pd.fixed then m
  else if c.down then Nat.min m ((c.dst.toNat + c.remain - 1) % 64 + 1)
  else Nat.min m (64 - c.dst.toNat % 64)

/-- A burst meets an error (R257): counted and recorded, and the channel waits in RETRYWAIT. A pending ABORT acts at once (R260). -/
def State.burstError (s : State) (n cause : Nat) (write : Bool) (addr : Word) : State :=
  let s := (s.err (dmaPage n)).setReg (R.DMA_ERRADDR n) addr
  let s := s.setReg (R.DMA_ERRINFO n) (BitVec.ofNat 64 (cause + b2n write * 8))
  let x := s.dm n
  let kept := match x.burst with | some b => b.kept | none => x.kept
  let s := s.setDm n { x with burst := none, qwait := false, kept := kept }
  if (s.dm n).abort then (s.dmaRest n).put (F.DMA_STATUS_ABORTED n) 1 else s.setDmaState n 4

/-- A poisoned source word was read (R259). -/
def State.dmaPoison (s : State) (n : Nat) (poisoned : Bool) : State :=
  if poisoned then
    (((s.inc (F.DMA_POISCNT_POISCNT n)).err (dmaPage n)).put (F.DMA_STATUS_POISSEEN n) 1).occurFree 0x051 (sourceOfPage (dmaPage n))
  else s

/-- Whether the bytes written in this pass first reach half of COUNT with `put` bytes of the burst (R253). -/
def State.reachesHalf (s : State) (n put : Nat) : Bool :=
  !(s.dm n).half && decide ((s.dCount n + 1) / 2 ≤ s.dCount n - s.dRemain n + put) && s.dCount n != 0

/-- The line of the half event, if it is posted (R253). -/
def State.halfLine (s : State) (n : Nat) : Option Nat := if bit (s.dCtl n) 3 then some (0x200 + n) else none

/-- A burst's record kept in its channel. -/
def State.setBurst (s : State) (n : Nat) (b : Burst) : State := s.setDm n { s.dm n with burst := some b }

/-- A burst has been written (R245, R248, R250): the working registers advance, and the step goes on or ends. -/
def State.burstDone (s : State) (n : Nat) (b : Burst) : State :=
  let c := s.dcfg n
  let s := if c.down then s
    else (s.setReg (R.DMA_CURSRC n) (c.srcAt b.len b.len)).setReg (R.DMA_CURDST n) (c.dstAt b.len b.len)
  let s := (s.put (F.DMA_REMAIN_REMAIN n) (c.remain - b.len)).put (F.DMA_STATUS_RETRIES n) 0
  let left := (s.dm n).stepLeft - b.len
  let s := s.setDm n { s.dm n with burst := none, qwait := false, kept := b.got.drop b.len, stepLeft := left }
  if (s.dm n).abort then (s.dmaRest n).put (F.DMA_STATUS_ABORTED n) 1
  else if s.dRemain n = 0 ∨ left ≠ 0 then s
  else (s.setDmaState n 1).dmaPoke n

/-- The lowest free tag of a channel's group: at most four bursts are in flight (R240, R333). -/
def State.freeTag (s : State) (n : Nat) : Option Nat :=
  (List.range 4).find? (fun i => !s.hm.out.any (fun b => b.tag == n / 8 * 4 + i)) |>.map (fun i => n / 8 * 4 + i)

/-- Whether a channel presents a burst to the host master port (R251): its next access is a host access that has not gone out. -/
def State.hmPresents (s : State) (n : Nat) : Bool :=
  match (s.dm n).burst with
  | none => false
  | some b =>
    let c := s.dcfg n
    b.tag.isNone && decide (b.put < b.len) &&
    (if b.got.length < b.len then endPt (c.srcAt b.len b.got.length) == .host else endPt (c.dstAt b.len b.put) == .host)

/-- The group the port serves next (R251): in rotation after the group last served, the first that presents a burst. -/
def State.hmNext (s : State) : Option Nat :=
  ((List.range 8).map (fun j => (s.hm.turn + 1 + j) % 8)).find? (fun g => (List.range 8).any (fun i => s.hmPresents (8 * g + i)))

/-- A burst goes out on the host master port (R251, R333): none out of its group's turn, without its credits or a free tag, or where
the boundary does not run. -/
def State.hmIssue (s : State) (n : Nat) (write : Bool) (addr : Word) (len : Nat) (data : List Byte) : Option (Nat × State) :=
  let beats := if write && decide (32 < len) then 2 else 1
  if !s.unitOn domBnd || decide (s.hm.credits < beats) || s.hmNext != some (n / 8) then none
  else
    match s.freeTag n with
    | none => none
    | some t =>
      some (t, { s with hm := ⟨s.hm.credits - beats, s.hm.out ++ [⟨t, n, write, addr.setWidth 63, len, data, false⟩], n / 8⟩ })

/-- What one access of a burst did. -/
inductive Acc where
  | go
  | waits
  | ended
  deriving DecidableEq, Repr

/-- A bank access of a channel is ready (R170, R174, R175, R177): Port A where the DMA group owns the bank, Port B otherwise. -/
def State.dmaBankReady (s : State) (w : Nat) : Bool :=
  let k := w / 32768
  if s.get (F.BNK_OWN_OWNER k) = 0x20 then s.portAGate k 0x20 == .accepted
  else s.unitOn (domBank k) && !s.portBWaits k .dma [w]

/-- A bank access of a channel waits: a stall at Port B is counted (R174). -/
def State.dmaBankWait (s : State) (w : Nat) : State :=
  let k := w / 32768
  if s.get (F.BNK_OWN_OWNER k) ≠ 0x20 ∧ s.unitOn (domBank k) = true then s.portBStall k .dma else s

/-- A channel's read of a bank word (R170, R174, R187): data, whether poisoned, and the state. -/
def State.dmaBankRead (s : State) (w : Nat) : Word × Bool × State :=
  let k := w / 32768
  if s.get (F.BNK_OWN_OWNER k) = 0x20 then
    let r := s.portARead w 0x20
    (r.1, r.2.1 == .poisoned, r.2.2)
  else if s.marchRefuses k then (0, false, s.err (bankPage k))
  else
    let r := (s.takeB k 0x20 1).eccRead w 1 0x20
    (r.1, r.2.1 == .poisoned, r.2.2)

/-- A channel's write of bytes of a bank word, with the event that its performing posts (R170, R174, R187, R253). -/
def State.dmaBankWrite (s : State) (n w mask : Nat) (data : Word) (line : Option Nat) : State :=
  let k := w / 32768
  if s.get (F.BNK_OWN_OWNER k) = 0x20 then s.storeMasked w mask 0x20 data (some n) line
  else
    let s := if s.marchRefuses k then s.err (bankPage k)
      else (s.takeB k 0x20 (lineBclk true mask)).portBWrite w 0x20 data mask
    match line with
    | some l => s.post l
    | none => s

/-- The channel's queue operation is presented again 16 FCLK later (R243). -/
def State.queueWait (s : State) (n : Nat) : State := s.setDm n { s.dm n with qwait := true }

/-- The error of a refused queue operation (R243, R257): a pop that another owner refuses is a decode error. -/
def refusedCause (cause : Nat) : Nat := if cause = 5 then 2 else 3

/-- How many bytes of a burst one read from host memory takes (R255, R256): up to the end of the circular block, or of the address space. -/
def DCfg.hostPiece (c : DCfg) (a : Word) (left : Nat) : Nat :=
  let size := if bit c.ctl 5 then 2 ^ fld c.ctl 8 5 else 2 ^ 63
  Nat.min left (size - a.toNat % size)

/-- One source access of a burst. -/
def State.srcAccess (s : State) (n : Nat) (c : DCfg) (b : Burst) : Acc × State :=
  let a := c.srcAt b.len b.got.length
  match endPt a with
  | .host =>
    match s.hmIssue n false a (c.hostPiece a (b.len - b.got.length)) [] with
    | some (t, s) => (.waits, s.setBurst n { b with tag := some t })
    | none => (.waits, s)
  | .bank =>
    let w := a.toNat / 8
    if s.dmaBankReady w then
      let r := s.dmaBankRead w
      let k := Nat.min (8 - a.toNat % 8) (b.len - b.got.length)
      let bytes := (bytesOf 8 r.1.toNat).drop (a.toNat % 8) |>.take k
      (.go, (r.2.2.dmaPoison n r.2.1).setBurst n { b with got := b.got ++ bytes })
    else (.waits, s.dmaBankWait w)
  | .queue q =>
    match s.portOp 32 5 q 0 with
    | (.waits, _) => (.waits, s)
    | (.refused cause, s) => (.ended, s.burstError n (refusedCause cause) false a)
    | (.ok v p, s) => (.go, (s.dmaPoison n p).setBurst n { b with got := b.got ++ bytesOf 8 v.toNat })
    | (_, s) => (.waits, s.queueWait n)
  | .rx e =>
    if !s.unitKept (domPio e) || s.get (F.PIO_SHIFTCFG_JOIN e) == 1 then (.ended, s.burstError n 2 false a)
    else if !s.unitOn (domPio e) then (.waits, s)
    else
      match s.rxPop e with
      | some (v, s) => (.go, s.setBurst n { b with got := b.got ++ bytesOf 4 v.toNat })
      | none => (.waits, s)
  | _ => (.ended, s.burstError n 2 false a)

/-- Destination bytes written: the half event of a pass is due once (R253). -/
def State.wrote (s : State) (n : Nat) (b : Burst) (k : Nat) : State :=
  s.setDm n { s.dm n with burst := some { b with put := b.put + k }, half := (s.dm n).half || s.reachesHalf n (b.put + k) }

/-- Destination bytes written and performed: the half event follows them (R253). -/
def State.wroteNow (s : State) (n : Nat) (b : Burst) (k : Nat) : State :=
  match (if s.reachesHalf n (b.put + k) then s.halfLine n else none) with
  | some l => (s.wrote n b k).post l
  | none => s.wrote n b k

/-- One destination access of a burst. -/
def State.dstAccess (s : State) (n : Nat) (c : DCfg) (b : Burst) : Acc × State :=
  let a := c.dstAt b.len b.put
  let next := b.got.drop b.put
  match endPt a with
  | .host =>
    match s.hmIssue n true (c.dstAt b.len 0) b.len (b.got.take b.len) with
    | some (t, s) => (.waits, s.setBurst n { b with tag := some t })
    | none => (.waits, s)
  | .bank =>
    let w := a.toNat / 8
    if s.dmaBankReady w then
      let o := a.toNat % 8
      let k := Nat.min (8 - o) (b.len - b.put)
      let line := if s.reachesHalf n (b.put + k) then s.halfLine n else none
      (.go, (s.dmaBankWrite n w ((2 ^ k - 1) * 2 ^ o) (BitVec.ofNat 64 (ofBytes (next.take k) * 2 ^ (8 * o))) line).wrote n b k)
    else (.waits, s.dmaBankWait w)
  | .queue q =>
    match s.portOp 32 4 q (BitVec.ofNat 64 (ofBytes (next.take 8))) with
    | (.waits, _) => (.waits, s)
    | (.refused _, s) => (.ended, s.burstError n 3 true a)
    | (.ok _ _, s) => (.go, s.wroteNow n b 8)
    | (_, s) => (.waits, s.queueWait n)
  | .tx e =>
    if !s.unitKept (domPio e) || s.get (F.PIO_SHIFTCFG_JOIN e) == 2 then (.ended, s.burstError n 2 true a)
    else if !s.unitOn (domPio e) then (.waits, s)
    else
      match s.txPush e (BitVec.ofNat 32 (ofBytes (next.take 4))) with
      | some s => (.go, s.wroteNow n b 4)
      | none => (.waits, s)
  | _ => (.ended, s.burstError n 2 true a)

/-- The burst in progress goes on until it ends, fails, or waits (R250): all of its source before any destination byte. -/
def State.burstRun (s : State) (n : Nat) : Nat → State
  | 0 => s
  | fuel + 1 =>
    match (s.dm n).burst with
    | none => s
    | some b =>
      if b.tag.isSome then s
      else if b.len ≤ b.put then s.burstDone n b
      else
        let c := s.dcfg n
        let r := if b.got.length < b.len then s.srcAccess n c b else s.dstAccess n c b
        match r with
        | (.go, s) => s.burstRun n fuel
        | (_, s) => s

/-- Steps of one burst at most: 64 source and 64 destination bytes, and its end. -/
def burstFuel : Nat := 130

/-- Whether a channel could start a burst now (R248, R251). -/
def State.burstWanted (s : State) (n : Nat) : Bool :=
  let x := s.dm n
  s.unitOn (domDma n) && x.burst.isNone && s.dRemain n != 0 &&
  (if s.dPace n = 2 then
    (s.dmaState n == 1 && s.levelOk n (s.stepBytes n)) || (s.dmaState n == 2 && s.levelOk n x.stepLeft)
  else s.dmaState n == 2)

/-- The group's choice (R251): the highest PRI with a burst wanted, in rotation after the channel last served among equals. -/
def State.dmaChoice (s : State) (g : Nat) : Option Nat :=
  let want := (List.range 8).filter (fun i => s.burstWanted (8 * g + i))
  let pri := want.foldl (fun m i => Nat.max m (fld (s.dCtl (8 * g + i)) 39 2)) 0
  let top := want.filter (fun i => fld (s.dCtl (8 * g + i)) 39 2 == pri)
  let last := tget (fun _ => 7) s.dmaTurn g
  match ((List.range 8).map (fun j => (last + 1 + j) % 8)).find? (fun i => top.contains i) with
  | some i => some (8 * g + i)
  | none => none

/-- Bursts in flight of a group (R240). -/
def State.inFlight (s : State) (g : Nat) : Nat := ((List.range 8).filter (fun i => (s.dm (8 * g + i)).burst.isSome)).length

/-- A new burst of a channel begins. -/
def State.burstBegin (s : State) (n : Nat) : State :=
  let s := if s.dmaState n = 1 then s.beginStep n else s
  let x := s.dm n
  let len := (s.dcfg n).burstLen x.stepLeft
  (s.setDm n { x with burst := some ⟨len, x.kept, x.kept, 0, none⟩, qwait := false }).burstRun n burstFuel

/-- DMA_BURST (R250, R251): the channel's burst in progress goes on where it was held, or, when the engine's choice falls on it, its
next burst begins. -/
def State.dmaBurst (s : State) (n : Nat) : State :=
  if !s.unitOn (domDma n) then s
  else if (s.dm n).burst.isSome then (if (s.dm n).qwait then s else s.burstRun n burstFuel)
  else if s.dmaChoice (n / 8) = some n ∧ s.inFlight (n / 8) < 4 then
    ({ s with dmaTurn := tset (fun _ => 7) (n / 8) (n % 8) s.dmaTurn }).burstBegin n
  else s

/-- DMA_QUEUE_RETRY (R243). -/
def State.dmaQueueRetry (s : State) (n : Nat) : State :=
  if s.unitOn (domDma n) ∧ (s.dm n).qwait = true then (s.setDm n { s.dm n with qwait := false }).burstRun n burstFuel else s

/-- DMA_SET_COMPLETE (R245, R253, R256): the set's last write has been performed; write steps of the channel still on their way at a
bank it owns hold it back (R252). -/
def State.dmaComplete (s : State) (n : Nat) : State :=
  let st := s.dmaState n
  if !s.unitOn (domDma n) || !(st == 1 || st == 2) || s.dRemain n != 0 || (s.dm n).burst.isSome ||
      s.bnk.any (fun b => b.2.wsteps.any (fun p => p.chan == some n)) then s
  else
    let x := s.curSet n
    let y := 1 - x
    let ctl := s.dCtl n
    let s := s.postIf (bit ctl 4) (0x240 + n)
    if s.on (F.DMA_STATUS_STOPPING n) then s.dmaRest n
    else
      let s := if bit ctl 2 then s else s.put (F.DMA_CTL_RUN n x) 0
      if bit ctl 1 then (if s.on (F.DMA_CTL_RUN n y) then s.startSet n y else s.setDmaState n 3)
      else if bit ctl 2 then s.startSet n x
      else s.dmaIdle n

/-- A halt (R258). -/
def State.dmaHalt (s : State) (n : Nat) : State :=
  let s := ((s.setDmaState n 5).put (F.DMA_STATUS_HALTED n) 1).postIf (s.on (F.DMA_EVEN_HALTEV n)) (0x280 + n)
  s.occur 0x050 (sourceOfPage (dmaPage n)) false (s.reg (R.DMA_ERRADDR n)) (s.reg (R.DMA_ERRINFO n)) (BitVec.ofNat 64 n)

/-- RETRY_DELAY_END (R257, R258): the channel is ACTIVE and the burst is repeated when the engine's choice falls on it (R240, R251), or
the channel halts. -/
def State.retryEnd (s : State) (n : Nat) : State :=
  if s.unitOn (domDma n) ∧ s.dmaState n = 4 then
    let r := s.get (F.DMA_STATUS_RETRIES n)
    if r < fld (s.dCtl n) 35 4 then ((s.put (F.DMA_STATUS_RETRIES n) (r + 1)).setDmaState n 2).dmaBurst n
    else s.dmaHalt n
  else s

/-! Commands (R260). -/

/-- STOP. -/
def State.dmaStop (s : State) (n : Nat) : State :=
  match s.dmaState n with
  | 0 => s.dmaRest n
  | 3 => s.dmaRest n
  | 5 => s.dmaRest n
  | _ => s.put (F.DMA_STATUS_STOPPING n) 1

/-- ABORT. -/
def State.dmaAbort (s : State) (n : Nat) : State :=
  if (s.dm n).burst.isSome then s.setDm n { s.dm n with abort := true }
  else (s.dmaRest n).put (F.DMA_STATUS_ABORTED n) 1

/-- RESUME. -/
def State.dmaResume (s : State) (n : Nat) : State :=
  if s.dmaState n = 5 then (s.put (F.DMA_STATUS_RETRIES n) 0).setDmaState n 2 else s.rej (dmaPage n)

/-- CLRREQ (R248). -/
def State.dmaClrreq (s : State) (n : Nat) : State := s.put (F.DMA_STATUS_PREQ n) 0

/-- A write of CTRL (R260): ABORT decides over STOP. A RESUME that is not legal rejects the write that carries it (R411, log
entry 60). -/
def State.dmaCtrlWrite (s : State) (n : Nat) (v : Word) : State :=
  if bit v 2 && s.dmaState n != 5 then s.rej (dmaPage n)
  else
  let s := if bit v 3 then s.dmaClrreq n else s
  let s := if bit v 2 then s.dmaResume n else s
  if bit v 1 then s.dmaAbort n else if bit v 0 then s.dmaStop n else s

/-! The host master port (R333). -/

/-- HM_GRANT: one more credit, up to 64. -/
def State.hmGrant (s : State) : State :=
  if !s.unitOn domBnd then s
  else if s.hm.credits < 64 then { s with hm := { s.hm with credits := s.hm.credits + 1 } }
  else s.err 0x1F0

/-- A burst leaves the port. -/
def State.hmRetire (s : State) (tag : Nat) : State :=
  { s with hm := { s.hm with out := s.hm.out.filter (fun b => b.tag != tag) } }

/-- A host burst of a channel ends: an error, a read's data, or a completed write (R250, R257). -/
def State.hmEnd (s : State) (h : HmBurst) (failed : Bool) (data : List Byte) : State :=
  let s := s.hmRetire h.tag
  match (s.dm h.chan).burst with
  | none => s
  | some b =>
    if failed then
      s.burstError h.chan 1 h.write (BitVec.ofNat 64 (2 ^ 63 + h.addr.toNat))
    else if h.write then ((s.wroteNow h.chan { b with tag := none } b.len).burstRun h.chan burstFuel)
    else (s.setBurst h.chan { b with tag := none, got := b.got ++ data.take h.len }).burstRun h.chan burstFuel

/-- HM_RESPONSE_BEAT: a beat of an outstanding burst; any other is discarded and counted in HMLATE. -/
def State.hmBeat (s : State) (tag : Nat) (isWrite : Bool) (data : BitVec 256) (last fail : Bool) : State :=
  if !s.unitOn domBnd then s
  else
    match s.hm.out.find? (fun b => b.tag == tag && b.write == isWrite) with
    | none => s.inc F.BND_HMLATE_HMLATE
    | some h =>
      if isWrite then s.hmEnd h fail []
      else
        let h := { h with data := h.data ++ bytesOf 32 data.toNat, failed := h.failed || fail }
        if last then s.hmEnd h h.failed h.data
        else { s with hm := { s.hm with out := s.hm.out.map (fun b => if b.tag = tag then h else b) } }

/-- HOST_MASTER_TIMEOUT: treated as a host error response; HMTO = 0 sets no limit. -/
def State.hmTimeout (s : State) (tag : Nat) : State :=
  if s.unitOn domBnd ∧ s.on F.BND_HMTO_HMTO = true then
    match s.hm.out.find? (fun b => b.tag == tag) with
    | some h => s.hmEnd h true []
    | none => s
  else s

/-! The rows. -/

/-- A host write of the register at `key` of a channel's page (R330). -/
def State.dmaHost (s : State) (n key : Nat) (f : State → State) : State := s.hostWrite (domDma n) key f

def execDmaSetStart (n : Fin 64) (setB : Bool) (ctl : BitVec 64) (s : State) : Res :=
  .next (s.hostPair (domDma n.val) (R.DMA_CTL n.val (b2n setB)) (fun s => s.ctlWrite n.val (b2n setB) ctl))

def execDmaBurst (n : Fin 64) (s : State) : Res := .next (s.dmaBurst n.val)

def execDmaSetComplete (n : Fin 64) (s : State) : Res := .next (s.dmaComplete n.val)

def execRetryDelayEnd (n : Fin 64) (s : State) : Res := .next (s.retryEnd n.val)

def execDmaQueueRetry (n : Fin 64) (s : State) : Res := .next (s.dmaQueueRetry n.val)

def execDmaStop (n : Fin 64) (s : State) : Res := .next (s.dmaHost n.val (R.DMA_CTRL n.val) (fun s => s.dmaStop n.val))

def execDmaAbort (n : Fin 64) (s : State) : Res := .next (s.dmaHost n.val (R.DMA_CTRL n.val) (fun s => s.dmaAbort n.val))

def execDmaResume (n : Fin 64) (s : State) : Res := .next (s.dmaHost n.val (R.DMA_CTRL n.val) (fun s => s.dmaResume n.val))

def execClrreq (n : Fin 64) (s : State) : Res := .next (s.dmaHost n.val (R.DMA_CTRL n.val) (fun s => s.dmaClrreq n.val))

def execHmGrant (s : State) : Res := .next s.hmGrant

def execHmResponseBeat (tag : Fin 32) (isWrite : Bool) (data : BitVec 256) (last fail : Bool) (s : State) : Res :=
  .next (s.hmBeat tag.val isWrite data last fail)

def execHostMasterTimeout (tag : Fin 32) (s : State) : Res := .next (s.hmTimeout tag.val)

/-- ACTION_DMA_PACING_STEP (R236, R247): the direct action of kind 3 adds a request while the channel is paced by events. -/
def execActionDmaPacingStep (t : Fin 256) (s : State) : Res :=
  .next (match s.tmTakeAct t.val 3 with
    | some (a, s) => if s.pacedNow a then s.dmaPace a else s
    | none => s)

end Sys2Proof.Machine
end

