-- ==== Sys2Proof/Machine/Link.lean ====
section
/-! DEFINITION. What lies on a stitch link (R293, R294, R297, R298): header fields and their rules, the CRC-32 of a frame and its data blocks,
control blocks with their CRC-8, and the scrambler. -/

namespace Sys2Proof.Machine

/-- `count` steps of a shift register. -/
def clock (f : Nat → Nat) : Nat → Nat → Nat
  | 0, c => c
  | n + 1, c => clock f n (f c)

/-- The CRC-8 of R294, generator x^8 + x^2 + x + 1, initial value 0; each byte's most significant bit first (log entry 66). -/
def crc8 (bytes : List Byte) : Nat :=
  bytes.foldl (fun c b => clock (fun c => if c.testBit 7 then (2 * c) % 256 ^^^ 7 else 2 * c) 8 (c ^^^ b.toNat)) 0

/-- The IEEE 802.3 frame check sequence (R297): each byte's least significant bit first, complemented at the end. -/
def crc32 (bytes : List Byte) : BitVec 32 :=
  BitVec.ofNat 32 (0xFFFFFFFF ^^^
    bytes.foldl (fun c b => clock (fun c => if c.testBit 0 then c / 2 ^^^ 0xEDB88320 else c / 2) 8 (c ^^^ b.toNat)) 0xFFFFFFFF)

/-- The types of the control blocks (R294). -/
def ctlTypes : List Nat := [0x1E, 0x2D, 0x33, 0x4B, 0x4D, 0x55, 0x66, 0x78]

/-- A control block of a type with its content and its CRC-8 (R294). -/
def ctlBlock (type content : Nat) : Word :=
  let v := type + content % 2 ^ 48 * 2 ^ 8
  BitVec.ofNat 64 (v + crc8 (bytesOf 7 v) * 2 ^ 56)

/-- Whether a received control block is one of the table's with a right check (R294). -/
def ctlOk (b : Word) : Bool := crc8 (bytesOf 7 (fld b 0 56)) == fld b 56 8 && ctlTypes.contains (fld b 0 8)

/-- One block's payload through the scrambler x^58 + x^39 + 1, bit 0 first (R293): what goes out, and the register after it. -/
def scramble (reg : BitVec 58) (w : Word) : Word × BitVec 58 :=
  (List.range 64).foldl (fun r i =>
    let b := (bit w i != bit r.2 38) != bit r.2 57
    (setFld r.1 i 1 (b2n b), (r.2 <<< 1) ||| BitVec.ofNat 58 (b2n b))) (0, reg)

/-- Whether a type is reserved (R298). -/
def typeReserved (t : Nat) : Bool := t == 0 || decide (13 ≤ t)

/-- Whether LEN lies outside the type's range (R298). -/
def lenBad (type len : Nat) : Bool :=
  match type with
  | 1 => !decide (1 ≤ len ∧ len ≤ 512)
  | 2 => !decide (8 ≤ len ∧ len ≤ 512 ∧ len % 8 = 0)
  | 4 => !decide (8 ≤ len ∧ len ≤ 512 ∧ len % 8 = 0)
  | 6 => len != 8
  | 7 => len != 16
  | t => !typeReserved t && len != 0

end Sys2Proof.Machine

namespace Sys2Proof

/-! Header fields (R298). -/

def Frame.type (f : Frame) : Nat := Machine.fld f.word0 0 4
def Frame.vc (f : Frame) : Nat := Machine.fld f.word0 4 4
def Frame.len (f : Frame) : Nat := Machine.fld f.word0 8 10
def Frame.hmode (f : Frame) : Nat := Machine.fld f.word0 18 2
def Frame.dest (f : Frame) : Nat := Machine.fld f.word0 20 16
def Frame.src (f : Frame) : Nat := Machine.fld f.word0 36 16

/-- The credits a frame costs (R300). -/
def Frame.cost (f : Frame) : Nat := (20 + f.len + 31) / 32

/-- The payload's 64-bit word `i`. -/
def Frame.word (f : Frame) (i : Nat) : Word := BitVec.ofNat 64 (Machine.ofBytes ((f.payload.drop (8 * i)).take 8))

/-- The bytes that a frame's CRC covers: header and payload (R297). -/
def Frame.covered (f : Frame) : List (BitVec 8) := Machine.bytesOf 8 f.word0.toNat ++ Machine.bytesOf 8 f.word1.toNat ++ f.payload

/-- Whether a frame's CRC is right (R297). -/
def Frame.crcOk (f : Frame) : Bool := f.crc == Machine.crc32 f.covered

/-- A frame's data blocks: its bytes, eight to a block, the CRC after the payload, then zeros (R297). -/
def Frame.dataBlocks (f : Frame) : List Word :=
  let bytes := f.covered ++ Machine.bytesOf 4 f.crc.toNat
  (List.range f.blocks).map (fun i => BitVec.ofNat 64 (Machine.ofBytes ((bytes.drop (8 * i)).take 8)))

/-- A frame with its CRC, in the data blocks its length needs (R297). -/
def Frame.sealed (word0 word1 : Word) (payload : List (BitVec 8)) : Frame :=
  let f : Frame := ⟨word0, word1, payload, (27 + Machine.fld word0 8 10) / 8, 0⟩
  { f with crc := Machine.crc32 f.covered }

end Sys2Proof
end

