-- ==== Sys2Proof/Machine/Rhoba.lean ====
section
/-! DEFINITION. Rhoba (R307-R324): roles, enumeration walks, beam lock, holdover and rejoin, and the wall press. Frames and the
link itself are in `Machine/Stitch.lean`. -/

namespace Sys2Proof.Machine

/-- A port's register page (R326), and Rhoba's (R327). -/
def stiPage (p : Nat) : Nat := 0x1E0 + p
def rhoPage : Nat := 0x1E4

/-- A stitch port's typed state. -/
def State.sp (s : State) (p : Nat) : Stitch := tget (fun _ => Stitch.reset) s.sti p

/-- The state with a stitch port's typed state replaced. -/
def State.setSp (s : State) (p : Nat) (x : Stitch) : State := { s with sti := tset (fun _ => Stitch.reset) p x s.sti }

/-- The state with Rhoba's typed state replaced. -/
def State.setRho (s : State) (r : Rho) : State := { s with rho := r }

/-- A link's state code (R295). -/
def State.lstate (s : State) (p : Nat) : Nat := s.get (F.STI_STATUS_LSTATE p)

/-- The role (R308), the signature, the epoch, and the upstream port. -/
def State.role (s : State) : Nat := s.get F.RHO_STATUS_ROLE
def State.sig (s : State) : Nat := s.get F.RHO_SIG_SIG
def State.epoch (s : State) : Nat := s.get F.RHO_SIG_EPOCH
def State.upPort (s : State) : Option Nat := if s.on F.RHO_SIG_UPVALID then some (s.get F.RHO_SIG_UPPORT) else none

/-- The state with an upstream port, or none. -/
def State.setUp (s : State) : Option Nat → State
  | some p => (s.put F.RHO_SIG_UPPORT p).put F.RHO_SIG_UPVALID 1
  | none => s.put F.RHO_SIG_UPVALID 0

/-- Whether Rhoba runs (R308, R362). -/
def State.rhoOn (s : State) : Bool := s.unitOn domTimer && s.on F.RHO_CTRL_RHOEN

/-- Rhoba's event line `i` (R325). -/
def State.rhoEv (s : State) (i : Nat) : State := s.postIf ((s.get F.RHO_EVEN_EVEN).testBit i) (0x3D0 + i)

/-! Frames this device originates (R298, R302). -/

/-- A frame with a right CRC and the data blocks its length needs (R297). -/
def mkFrame (type len hmode dest src : Nat) (arg : Word) (payload : List Byte) : Frame :=
  Frame.sealed (BitVec.ofNat 64 (type + len * 2 ^ 8 + hmode * 2 ^ 18 + dest * 2 ^ 20 + src * 2 ^ 36)) arg payload

/-- A link-mode frame of this device. -/
def State.linkFrame (s : State) (type len : Nat) (arg : Word) (payload : List Byte) : Frame := mkFrame type len 2 0 s.sig arg payload

/-- A link-mode frame queued on a port. -/
def State.sendLink (s : State) (p : Nat) (f : Frame) : State := s.setSp p { s.sp p with linkOut := (s.sp p).linkOut ++ [f] }

/-- A frame of Rhoba's own queued on a port, for virtual channel 0. -/
def State.sendOwn (s : State) (p : Nat) (f : Frame) : State := s.setSp p { s.sp p with own := (s.sp p).own ++ [f] }

/-- The payload of this device's HELLO on port `p` (R298, R309). -/
def State.helloWord (s : State) (p : Nat) : Word :=
  let refok := s.role != 0 && s.beamRun && s.upPort != some p
  BitVec.ofNat 64 (s.sig + s.role * 2 ^ 16 + s.get F.RHO_STATUS_HOLD * 2 ^ 18 + p * 2 ^ 19 + b2n refok * 2 ^ 21 + s.epoch * 2 ^ 32)

/-- A HELLO queued on a port. -/
def State.sendHello (s : State) (p : Nat) : State := s.sendLink p (s.linkFrame 6 8 0 (bytesOf 8 (s.helloWord p).toNat))

/-- HELLO goes out on a port whenever one of its fields changed (R309). -/
def State.helloChanged (s s0 : State) : State :=
  (List.range 4).foldl (fun s p => if 2 ≤ s.lstate p ∧ s.helloWord p ≠ s0.helloWord p then s.sendHello p else s) s

/-! Routes (R307). -/

/-- The port of a signature's route, or none. -/
def State.route (s : State) (sig : Nat) : Option Nat :=
  let r := tget (fun _ => 4) s.rho.routes sig
  if r < 4 then some r else none

/-- A route learnt. -/
def State.learn (s : State) (sig p : Nat) : State := s.setRho { s.rho with routes := tset (fun _ => 4) sig p s.rho.routes }

/-- Every route that names a port invalidated. -/
def State.forget (s : State) (p : Nat) : State := s.setRho { s.rho with routes := s.rho.routes.filter (fun e => e.2 != p) }

/-- The signature changes (R310). -/
def State.setSig (s : State) (v : Nat) : State :=
  if s.sig = v then s else ((s.put F.RHO_SIG_SIG v).put F.RHO_STATUS_SIGCHG 1).rhoEv 1

/-- A new epoch adopted (R307, R309, R310): the links that are up take part in its walk. -/
def State.adoptEpoch (s : State) (e : Nat) : State :=
  let s := (s.put F.RHO_SIG_EPOCH e).setRho { s.rho with routes := [], newEpoch := true }
  (List.range 4).foldl (fun s p => 
    (s.setSp p { s.sp p with walked := none, inWalk := decide (3 ≤ s.lstate p) }).put (F.STI_LINKINFO_KNOWN p) 0) s

/-- A ROUTEANN of this device goes upstream; on a device without an upstream it is delivered here (R304, R310). -/
def State.routeAnn (s : State) (req : Bool) : State :=
  match s.upPort with
  | some u => s.sendOwn u (mkFrame 0xB 0 0 0 s.sig (BitVec.ofNat 64 (b2n req)) [])
  | none => if req && s.role == 1 then s.setRho { s.rho with walkReq := true } else s

/-! Walks (R310). -/

/-- A walk ends on this device. -/
def State.walkEnd (s : State) (w : Walk) : State :=
  let s := (s.setRho { s.rho with walk := none }).put F.RHO_STATUS_ENUMBUSY 0
  if w.root then s.put F.RHO_SIG_WALLN w.next
  else (s.sendLink w.up (s.linkFrame 9 0 (BitVec.ofNat 64 w.next) [])).routeAnn false

/-- The walk goes on with the first UP port from `from_` on. -/
def State.walkGo (s : State) (w : Walk) (from_ : Nat) : State :=
  match (List.range 4).find? (fun q => decide (from_ ≤ q) && (w.root || q != w.up) && s.lstate q == 3) with
  | some q =>
    let s := s.setRho { s.rho with walk := some { w with port := q } }
    s.sendLink q (s.linkFrame 8 0 (BitVec.ofNat 64 (w.next + s.epoch * 2 ^ 16)) [])
  | none => s.walkEnd w

/-- The walk's answer on port `p` came, or the port was lost: it goes on after it. -/
def State.walkAnswer (s : State) (p : Nat) (next : Option Nat) : State :=
  match s.rho.walk with
  | some w => if w.port = p then s.walkGo { w with next := next.getD w.next } (p + 1) else s
  | none => s

/-- start_walk on the head, at a frame start. -/
def State.startWalk (s : State) : State :=
  let e := if s.beam.frame % 2 ^ 16 = 0 then 1 else s.beam.frame % 2 ^ 16
  let s := (s.adoptEpoch e).setSig 0
  let s := (s.setRho { s.rho with walkReq := false }).put F.RHO_STATUS_ENUMBUSY 1
  s.walkGo ⟨true, 0, 0, 1⟩ 0

/-! Beam lock (R314-R316). -/

/-- The trim written, clamped to its range (R314). -/
def State.setTrim (s : State) (t : Int) : State :=
  let hi : Int := 2 ^ 23 - 1
  let lo : Int := -(2 ^ 23)
  let c := if t < lo then lo else if hi < t then hi else t
  let s := if c = t then s else s.put F.RHO_STATUS_TRIMCLAMP 1
  s.put F.BEAM_DIVTRIM_TRIM (BitVec.ofInt 24 c).toNat

/-- LOCKED clears (R316, R321). -/
def State.lockLost (s : State) : State :=
  if s.on F.RHO_STATUS_LOCKED then
    (((s.put F.RHO_STATUS_LOCKED 0).put F.RHO_STATUS_LOCKLOST 1).rhoEv 6).occurFree 0x066 (sourceOfPage rhoPage)
  else s

/-- The frame length in ticks. -/
def State.frameTicks (s : State) : Nat := s.hTotal * s.vTotal

/-- The device's own position in units of 2^-16 tick: its phase is the part of the tick then elapsed (R313, R314). -/
def State.ownPos (s : State) : Nat :=
  let q := Nat.max 1 (if s.beamClamped then 4 * 2 ^ 24 else s.beamQ.toNat)
  let acc := s.beam.acc + (if s.beamRun then (s.fclk - s.beam.last) * 2 ^ 24 else 0)
  (s.beam.line * s.hTotal + s.beam.tick) * 2 ^ 16 + Nat.min (2 ^ 16 - 1) (acc * 2 ^ 16 / q)

/-- wrap of R314: into (-f/2, f/2]. -/
def wrapPos (x f : Int) : Int :=
  let r := x % f
  if f < 2 * r then r - f else r

/-- The phase error of a marker that arrived on port `p` (R314). -/
def State.markerErr (s : State) (p tick line phase : Nat) : Int :=
  let q := if s.beamClamped then 4 * 2 ^ 24 else s.beamQ.toNat
  let hop := s.get (F.STI_HOPDLY_DLY p) * 2 ^ 56 / Nat.max 1 (q * s.get F.RHO_STBINC_STBINC)
  let ref := (line * s.hTotal + tick) * 2 ^ 16 + phase * 8 + hop
  wrapPos (Int.ofNat ref - Int.ofNat s.ownPos) (Int.ofNat (s.frameTicks * 2 ^ 16))

/-- Runs of near and far markers, and LOCKED (R316). -/
def State.lockRuns (s : State) (e : Int) : State :=
  let th := s.get F.RHO_LOOP_LOCKTH
  let r := s.rho
  let near := if e.natAbs ≤ th then Nat.min 16 (r.near + 1) else 0
  let far := if 4 * th < e.natAbs then Nat.min 4 (r.far + 1) else 0
  let s := s.setRho { r with near := near, far := far }
  let s := if near = 16 ∧ s.on F.RHO_STATUS_LOCKED = false then
      ((s.setRho { s.rho with everLocked := true }).put F.RHO_STATUS_LOCKED 1).rhoEv 5
    else s
  if far = 4 then s.lockLost else s

/-- The first-lock step (R315): asked for the next tick, and the frame count at the next WALLSYNC. -/
def State.coarseStep (s : State) (e : Int) : State :=
  if s.on F.RHO_CTRL_COARSE && !s.rho.everLocked && decide (2 ^ 16 ≤ e.natAbs) then
    let k := (((e + 2 ^ 15) / 2 ^ 16) % (s.frameTicks : Int)).toNat
    ({ s with beam := { s.beam with coarse := some k } }).setRho { s.rho with coarseFrame := true }
  else s

/-- The discipline of a MEMBER's divider (R308, R314). -/
def State.discipline (s : State) (e : Int) : State :=
  if s.role = 2 ∧ s.on F.BEAM_CTRL_REF = true then
    let i := s.rho.integ - e / 2 ^ s.get F.RHO_LOOP_KI
    (s.setRho { s.rho with integ := i }).setTrim (i - e / 2 ^ s.get F.RHO_LOOP_KP)
  else s

/-- A mismatched marker or WALLSYNC on port `p` (R315). -/
def State.geomMismatch (s : State) (p : Nat) : State :=
  ((((s.setSp p { s.sp p with geomBad := true }).put F.RHO_STATUS_GEOMERR 1).err rhoPage).occurFree 0x068 (sourceOfPage rhoPage))

/-- DIVTRIM holds the integrator's value (R314, R321, R324). -/
def State.trimHold (s : State) : State := if s.on F.BEAM_CTRL_REF then s.setTrim s.rho.integ else s

/-! Rejoin (R323, R324). -/

/-- Whether a port is a rejoin link, as HELLO and the markers and WALLSYNC of its far end tell (R323). -/
def State.rejoinLink (s : State) (p : Nat) : Bool :=
  (s.lstate p == 3 || s.lstate p == 4) && (s.sp p).helloIn && s.upPort != some p && s.on F.RHO_STATUS_HOLD &&
  !s.on (F.STI_LINKINFO_FHOLD p) && !(s.sp p).geomBad && s.get (F.STI_LINKINFO_FROLE p) != 0 && s.get (F.STI_LINKINFO_FEPOCH p) == s.epoch

/-- A MEMBER of a holdover segment that has found a rejoin link asks upstream for the role (R323). -/
def State.rejoinScan (s : State) : State :=
  match s.upPort with
  | some u =>
    if s.rhoOn && s.role == 2 && s.on F.RHO_STATUS_HOLD && !s.rho.requested && s.rho.recorded.isNone && (List.range 4).any s.rejoinLink then
      (s.setRho { s.rho with requested := true }).sendLink u (s.linkFrame 0xC 0 0 [])
    else s
  | none => s

/-- The slewing trim: the offset of R323 from the holdover value, toward the reference. -/
def State.slewTrim (s : State) (e : Int) : State :=
  let p := s.get F.BEAM_TICKDIV_INT * 2 ^ 24 + s.get F.BEAM_TICKDIV_FRAC
  let off : Int := ((p * s.get F.RHO_CTRL_SLEW / (64 * s.hTotal) : Nat) : Int)
  if s.on F.BEAM_CTRL_REF then s.setTrim (if 0 < e then s.rho.integ - off else s.rho.integ + off) else s

/-- A port in STANDBY or HELLO reaches UP or STANDBY (R325). -/
def State.linkReach (s : State) (p st : Nat) : State := (s.put (F.STI_STATUS_LSTATE p) st).postIf (s.on (F.STI_EVEN_LUP p)) (0x3C0 + p)

/-- The role handed back over the rejoin link `p` (R324). -/
def State.handBack (s : State) (p : Nat) : State :=
  let s := (((s.put F.RHO_STATUS_ROLE 2).put F.RHO_STATUS_HOLD 0).put F.RHO_STATUS_SLEWING 0).setUp (some p)
  let s := s.setRho { s.rho with slewPort := none, near := 0, far := 0, requested := false, recorded := none, reversed := false }
  let s := (if s.lstate p = 4 then s.linkReach p 3 else s).trimHold
  let s := (s.rhoEv 4).occurFree 0x064 (sourceOfPage rhoPage)
  s.routeAnn (!s.on (F.STI_LINKINFO_KNOWN p))

/-- An acting head's marker on a rejoin link (R323, R324): slewing starts, goes on, or ends. -/
def State.actingMarker (s : State) (p : Nat) (e : Int) : State :=
  let s := if s.on F.RHO_STATUS_SLEWING then s
    else ((s.put F.RHO_STATUS_SLEWING 1).setRho { s.rho with slewPort := some p }).rhoEv 3
  let s := s.put F.RHO_PHASE_PHASE (BitVec.ofInt 32 e).toNat
  if e.natAbs ≤ s.get F.RHO_LOOP_LOCKTH then s.handBack p else s.slewTrim e

/-- HOLD follows the upstream's markers (R322, R324). -/
def State.followHold (s : State) (hold : Bool) : State :=
  if s.role = 2 ∧ s.on F.RHO_STATUS_HOLD ≠ hold then
    let s := s.put F.RHO_STATUS_HOLD (b2n hold)
    if hold then s.rejoinScan
    else (s.setRho { s.rho with requested := false, recorded := none, reversed := false }).routeAnn false
  else s

/-- BEAM_MARKER (R314-R316, R322-R324). -/
def State.marker (s : State) (p tick line phase : Nat) (hold : Bool) : State :=
  if !s.rhoOn || !s.unitOn (domStitch p) || !(s.lstate p == 3 || s.lstate p == 4) then s
  else
    let up := s.upPort == some p
    let slew := s.role == 3 && (if s.on F.RHO_STATUS_SLEWING then s.rho.slewPort == some p else s.rejoinLink p)
    if s.vTotal ≤ line ∨ s.hTotal ≤ tick then s.geomMismatch p
    else if !up && !slew then s
    else
      let e := s.markerErr p tick line phase
      let t := if slew then s.actingMarker p e
        else (((s.put F.RHO_PHASE_PHASE (BitVec.ofInt 32 e).toNat).discipline e).lockRuns e |>.coarseStep e).followHold hold
      t.helloChanged s

/-! Holdover (R321). -/

/-- Entry into holdover. -/
def State.holdover (s : State) : State :=
  let s := ((s.put F.RHO_STATUS_ROLE 3).put F.RHO_STATUS_HOLD 1).lockLost.trimHold
  let s := (s.setUp none).put F.RHO_HOLDCNT_HOLDCNT 0
  let s := s.setRho { s.rho with near := 0, far := 0, requested := false, recorded := none, heldOver := true, reversed := false }
  (s.rhoEv 2).occurFree 0x063 (sourceOfPage rhoPage)

/-- MARKER_TIMEOUT (R321). -/
def State.markerTimeout (s : State) : State :=
  if s.rhoOn ∧ s.role = 2 ∧ s.upPort.isSome = true then s.holdover.helloChanged s else s

/-- What a port's leaving UP or STANDBY does to Rhoba (R307, R310, R321, R322). -/
def State.rhoLeft (s : State) (p : Nat) : State :=
  let s := (s.forget p).walkAnswer p none
  let s := if s.rho.slewPort = some p then
      ((s.put F.RHO_STATUS_SLEWING 0).setRho { s.rho with slewPort := none }).trimHold
    else s
  if s.rhoOn ∧ s.role = 2 ∧ s.upPort = some p then s.holdover else s

/-! Joining (R312, R322). -/

/-- An ALONE device that is no head joins below the lowest UP port whose far end sends markers (R322). -/
def State.joinScan (s : State) : State :=
  if s.rhoOn && s.role == 0 && !s.on F.RHO_CTRL_HEADEN then
    match (List.range 4).find? (fun p => s.lstate p == 3 && s.on (F.STI_LINKINFO_FREFOK p)) with
    | some p => (s.put F.RHO_STATUS_ROLE 2).setUp (some p)
    | none => s
  else s

/-- Two heads have met on a link (R312): STANDBY at both ends. -/
def State.headConflict (s : State) (p : Nat) : State :=
  (((s.linkReach p 4).put F.RHO_STATUS_HEADCONF 1).rhoEv 8).occurFree 0x065 (sourceOfPage rhoPage)

/-- Whether both ends of a port's link report ROLE HEAD (R312). -/
def State.twoHeads (s : State) (p : Nat) : Bool := s.rhoOn && s.role == 1 && s.get (F.STI_LINKINFO_FROLE p) == 1

/-- A link already UP whose two ends have come to be heads goes to STANDBY (R312). -/
def State.headScan (s : State) (p : Nat) : State := if s.lstate p = 3 ∧ s.twoHeads p = true then (s.forget p).headConflict p else s

/-- HELLO has been exchanged (R295, R312): the link is UP, or STANDBY between two heads. -/
def State.linkUp (s : State) (p : Nat) : State :=
  if s.twoHeads p then s.headConflict p
  else
    let s := s.linkReach p 3
    let s := if s.rhoOn && s.sig != 0xFFFF && s.get (F.STI_LINKINFO_FSIG p) == 0xFFFF then s.routeAnn true else s
    s.joinScan

/-- A port put into STANDBY by the walk (R310). -/
def State.setStandby (s : State) (p : Nat) : State := if s.lstate p = 3 then (s.forget p).linkReach p 4 else s

/-- Credits held toward the far end, at the HELLO that brings the link up: the far end's buffer sizes, which no frame tells
(log entry 4). -/
def State.resetCredits (s : State) (p : Nat) : State :=
  let s := s.setSp p { s.sp p with freed := [], seen := [], tx := { (s.sp p).tx with returned := [] } }
  (List.range 16).foldl (fun s v =>
    let r := s.free
    r.2.put (F.STI_CRED_TXCRED p v) (r.1.toNat % 2049)) s

/-- A HELLO frame arrives (R295, R309, R312). The far SIG and PORT are recorded of a link that took part in the epoch's walk. On a STANDBY
link an acting head that has become a MEMBER below this port, without HOLD, has handed its role back: the link is UP (R324, log entry
67). -/
def State.gotHello (s : State) (p : Nat) (w : Word) : State :=
  let back := s.lstate p == 4 && s.get (F.STI_LINKINFO_FROLE p) == 3 && fld w 16 2 == 2 && fld w 18 1 == 0 && fld w 21 1 == 0
  let s := ((s.put (F.STI_LINKINFO_FSIG p) (fld w 0 16)).put (F.STI_LINKINFO_FROLE p) (fld w 16 2)).put (F.STI_LINKINFO_FHOLD p) (fld w 18 1)
  let s := ((s.put (F.STI_LINKINFO_FPORT p) (fld w 19 2)).put (F.STI_LINKINFO_FREFOK p) (fld w 21 1)).put (F.STI_LINKINFO_FEPOCH p) (fld w 32 16)
  let same := s.epoch != 0 && fld w 32 16 == s.epoch
  let here := (fld w 0 16, fld w 19 2)
  let s := if same && (s.sp p).inWalk && (s.sp p).walked.isNone then s.setSp p { s.sp p with walked := some here } else s
  let s := s.put (F.STI_LINKINFO_KNOWN p) (b2n (same && (s.sp p).walked == some here))
  let s := if s.lstate p = 2 ∧ (s.sp p).helloIn = false then s.resetCredits p else s
  let s := s.setSp p { s.sp p with helloIn := true }
  let s := if s.lstate p = 2 ∧ (s.sp p).helloOut = true then s.linkUp p
    else if back then (s.linkReach p 3).joinScan else (s.headScan p).joinScan
  s.rejoinScan

/-! Link-mode frames of Rhoba (R309, R310, R316, R323). -/

/-- A WALLSYNC arrives (R310, R315, R316): its geometry is judged on any port, the rest is taken on the upstream port. -/
def State.gotWallsync (s : State) (p : Nat) (w0 w1 : Word) : State :=
  if !s.rhoOn then s
  else if fld w1 0 14 ≠ s.get F.BEAM_GEOM_HTOT ∨ fld w1 16 14 ≠ s.get F.BEAM_GEOM_VTOT then s.geomMismatch p
  else
    let s := s.setSp p { s.sp p with geomBad := false }
    if s.upPort ≠ some p then s
    else
      let s := if s.rho.newEpoch && fld w1 32 16 == s.epoch then (s.setRho { s.rho with newEpoch := false }).rhoEv 0 else s
      let f := w0.toNat
      if s.rho.coarseFrame then
        ({ s with beam := { s.beam with frame := f } }).setRho { s.rho with coarseFrame := false }
      else if s.on F.RHO_STATUS_LOCKED && s.beam.frame != f then s.setRho { s.rho with frameFix := some f }
      else s

/-- on_enum of R310. -/
def State.gotEnum (s : State) (p next epoch : Nat) : State :=
  if !s.rhoOn then s
  else if s.role = 1 ∨ s.epoch = epoch then (s.sendLink p (s.linkFrame 0xA 0 0 [])).setStandby p
  else
    let s := ((s.adoptEpoch epoch).setUp (some p)).put F.RHO_STATUS_ROLE 2
    let sig := if next ≤ 0xFFFE then next else 0xFFFF
    let s := s.setSig sig
    if sig = 0xFFFF then s.sendLink p (s.linkFrame 9 0 (BitVec.ofNat 64 next) [])
    else (s.put F.RHO_STATUS_ENUMBUSY 1).walkGo ⟨false, p, 0, next + 1⟩ 0

/-- An ENUMREJ arrives (R310). -/
def State.gotEnumRej (s : State) (p : Nat) : State := if s.rhoOn then (s.setStandby p).walkAnswer p none else s

/-- A REJOIN request (R323): recorded and passed up, accepted by the acting head, or refused; once the path has been reversed every later
one is refused, until HOLD has cleared. -/
def State.rejoinRequest (s : State) (p : Nat) : State :=
  let refuse := s.sendLink p (s.linkFrame 0xC 0 2 [])
  if s.rho.reversed then refuse
  else
  match s.role, s.upPort with
  | 3, _ =>
    if s.on F.RHO_STATUS_SLEWING then refuse
    else
      let s := s.sendLink p (s.linkFrame 0xC 0 1 [])
      (((s.setRho { s.rho with reversed := true }).put F.RHO_STATUS_ROLE 2).setUp (some p)).rhoEv 7
  | 2, some u =>
    if s.rho.requested || s.rho.recorded.isSome then refuse
    else (s.setRho { s.rho with recorded := some p }).sendLink u (s.linkFrame 0xC 0 0 [])
  | _, _ => refuse

/-- A REJOIN go (R323): the path is reversed; at the device that asked, it becomes the acting head. -/
def State.rejoinGo (s : State) (p : Nat) : State :=
  if s.upPort ≠ some p then s
  else
    match s.rho.recorded with
    | some r =>
      let s := s.setRho { s.rho with recorded := none, reversed := true }
      ((s.setUp (some r)).sendLink r (s.linkFrame 0xC 0 1 [])).rhoEv 7
    | none =>
      if s.rho.requested then
        let s := (s.setRho { s.rho with requested := false, reversed := true }).put F.RHO_STATUS_ROLE 3
        (s.setUp none).trimHold.rhoEv 7
      else s

/-- A REJOIN refuse (R323) goes back the way the request came; its sender may ask again once HOLD has cleared. -/
def State.rejoinRefuse (s : State) (p : Nat) : State :=
  if s.upPort ≠ some p then s
  else
    match s.rho.recorded with
    | some r => (s.setRho { s.rho with recorded := none }).sendLink r (s.linkFrame 0xC 0 2 [])
    | none => s

/-- A REJOIN frame (R323). -/
def State.gotRejoin (s : State) (p code : Nat) : State :=
  if !s.rhoOn then s
  else
    match code with
    | 0 => s.rejoinRequest p
    | 1 => s.rejoinGo p
    | 2 => s.rejoinRefuse p
    | _ => s

/-! The wall press (R320). -/

/-- Whether the beam has reached or passed a target (R320). -/
def State.targetPassed (s : State) (tick line frame : Nat) : Bool :=
  let d := sval 32 ((frame + 2 ^ 32 - s.beam.frame % 2 ^ 32) % 2 ^ 32)
  decide (d < 0) || (d == 0 && decide (line < s.beam.line ∨ (line = s.beam.line ∧ tick ≤ s.beam.tick)))

/-- A device arms its wall press, or presses at once when it is late (R320). -/
def State.armWall (s : State) (tick line frame : Nat) : State :=
  let s := ((s.put F.RHO_WPTGT_TGTTICK tick).put F.RHO_WPTGT_TGTLINE line).put F.RHO_WPTGT_TGTFRAME frame
  let s := s.rhoEv 9
  if s.targetPassed tick line frame then ((s.put F.RHO_STATUS_WPARMED 0).put F.RHO_STATUS_LATE 1).pressTrigger 5 1
  else s.put F.RHO_STATUS_WPARMED 1

/-- WPRESS (R320): armed here and broadcast on every UP port. -/
def State.wallPress (s : State) (v : Word) : State :=
  let tick := fld v 0 14
  let line := fld v 16 14
  let frame := (s.beam.frame + fld v 32 16) % 2 ^ 32
  if !(s.role == 1 || s.role == 3) || s.on F.RHO_STATUS_WPARMED || s.targetPassed tick line frame then s.rej rhoPage
  else
    let arg : Word := BitVec.ofNat 64 (tick + line * 2 ^ 16 + frame * 2 ^ 32)
    let s := (List.range 4).foldl (fun s p =>
      if s.lstate p = 3 ∧ s.upPort ≠ some p then s.sendOwn p (mkFrame 5 0 1 0 s.sig arg []) else s) s
    s.armWall tick line frame

/-- The wall press fires at its target (R320). -/
def State.wallFire (s : State) : State :=
  if s.on F.RHO_STATUS_WPARMED && s.get F.RHO_WPTGT_TGTTICK == s.beam.tick && s.get F.RHO_WPTGT_TGTLINE == s.beam.line &&
      s.get F.RHO_WPTGT_TGTFRAME == s.beam.frame % 2 ^ 32 then
    (s.put F.RHO_STATUS_WPARMED 0).pressTrigger 5 1
  else s

/-! Host commands (R308, R310, R327). -/

/-- ENUM_COMMAND (R310, R327). -/
def State.enumCommand (s : State) : State :=
  if s.role = 1 ∧ s.on F.RHO_STATUS_ENUMBUSY = false then s.setRho { s.rho with walkReq := true } else s.rej rhoPage

/-- RHO_ENABLE_CHANGE (R322): the device becomes head, looks for an upstream, or returns to ALONE. -/
def State.rhoEnable (s : State) (on : Bool) : State :=
  if s.on F.RHO_CTRL_RHOEN = on then s
  else
    let t := s.put F.RHO_CTRL_RHOEN (b2n on)
    let t := t.setRho { t.rho with near := 0, far := 0, everLocked := false }
    let t := if on then
        (if t.on F.RHO_CTRL_HEADEN then (List.range 4).foldl State.headScan ((t.put F.RHO_STATUS_ROLE 1).setUp none) else t.joinScan)
      else
        let t := ((t.put F.RHO_STATUS_ROLE 0).put F.RHO_STATUS_HOLD 0).put F.RHO_STATUS_SLEWING 0
        let t := (t.put F.RHO_STATUS_ENUMBUSY 0).setUp none
        let t := t.setRho { t.rho with routes := [], walk := none, walkReq := false, slewPort := none, requested := false }
        let t := t.setRho { t.rho with recorded := none, reversed := false }
        t.setSig 0xFFFF
    t.helloChanged s

/-- A write of RHO.CTRL (R308, R327): HEADEN is written only while RHOEN is 0, and ENUM only on a head without a walk; a write
refused for either is rejected as a whole (R411, log entry 60). -/
def State.rhoCtrlWrite (s : State) (v : Word) : State :=
  let badHead := s.on F.RHO_CTRL_RHOEN && fld v 1 1 != s.get F.RHO_CTRL_HEADEN
  let badEnum := bit v 2 && !(s.role == 1 && !s.on F.RHO_STATUS_ENUMBUSY)
  if badHead || badEnum then s.rej rhoPage
  else
    let badSlew := !decide (1 ≤ fld v 4 7 ∧ fld v 4 7 ≤ 64)
    let s := s.put F.RHO_CTRL_HEADEN (fld v 1 1)
    let s := (s.put F.RHO_CTRL_COARSE (fld v 3 1)).put F.RHO_CTRL_LAMIN (fld v 16 10)
    let s := if badSlew then s else s.put F.RHO_CTRL_SLEW (fld v 4 7)
    let s := if bit v 2 then s.enumCommand else s
    let s := s.rhoEnable (bit v 0)
    if badSlew then s.rej rhoPage else s

/-! What a tick does for the wall (R309, R310, R313, R316, R321). -/

/-- The frame count at the next frame start: the corrected one, counted, or one more (R316). -/
def State.nextFrame (s : State) : Nat × State :=
  match s.rho.frameFix with
  | some f => ((f + 1) % 2 ^ 64, (s.setRho { s.rho with frameFix := none }).err rhoPage)
  | none => ((s.beam.frame + 1) % 2 ^ 64, s)

/-- The contents of a BEAM marker that leaves now (R294, R313). -/
def State.beamContents (s : State) : BitVec 48 :=
  BitVec.ofNat 48 (s.beam.tick + s.beam.line * 2 ^ 14 + s.ownPos % 2 ^ 16 / 8 * 2 ^ 28 + s.beam.frame % 64 * 2 ^ 41 +
    s.get F.RHO_STATUS_HOLD * 2 ^ 47)

/-- A BEAM marker is due on a port. -/
def State.dueBeam (s : State) (p : Nat) : State := s.setSp p { s.sp p with tx := { (s.sp p).tx with dueBeam := true } }

/-- At a line start: the lines since the last entry into holdover are counted, and markers fall due (R313, R321). -/
def State.rhoLine (s : State) : State :=
  let s := if s.rho.heldOver then s.inc F.RHO_HOLDCNT_HOLDCNT else s
  if !s.rhoOn || s.role == 0 || s.beam.line % Nat.max 1 (s.get F.RHO_LOOP_MKINT) != 0 then s
  else (List.range 4).foldl (fun s p => if (s.lstate p = 3 ∨ s.lstate p = 4) ∧ s.upPort ≠ some p then s.dueBeam p else s) s

/-- At a frame start: WALLSYNC goes out, and the head starts a walk that was asked for (R309, R310). -/
def State.rhoFrame (s : State) : State :=
  if !s.rhoOn || s.role == 0 then s
  else
    let w1 := s.get F.BEAM_GEOM_HTOT + s.get F.BEAM_GEOM_VTOT * 2 ^ 16 + s.epoch * 2 ^ 32 + s.get F.RHO_STATUS_HOLD * 2 ^ 48
    let pay := bytesOf 8 s.beam.frame ++ bytesOf 8 w1
    let t := (List.range 4).foldl (fun s p =>
      if s.lstate p = 3 ∧ s.upPort ≠ some p then s.sendLink p (s.linkFrame 7 16 0 pay) else s) s
    if t.role = 1 ∧ t.rho.walkReq = true ∧ t.rho.walk.isNone = true then t.startWalk.helloChanged t else t

end Sys2Proof.Machine
end

