-- ==== Sys2Proof/Machine/Stitch.lean ====
section
/-! DEFINITION. Stitch links (R293-R306, R318): bring-up and loss, frames received, forwarded and delivered, virtual channels and
credits, and what a port sends. -/

namespace Sys2Proof.Machine

/-! Errors of a port. -/

/-- One error of a port with its own counter (R326). -/
def State.stiErr (s : State) (p : Nat) (f : RF) : State := (s.inc f).err (stiPage p)

/-- A receive check that failed (R299, R325). -/
def State.checkFailed (s : State) (p : Nat) (f : RF) : State :=
  ((s.stiErr p f).put (F.STI_STATUS_FERRSEEN p) 1).postIf (s.on (F.STI_EVEN_FERR p)) (0x3CC + p)

/-- Whether a port carries frames: its domain runs and its link is in HELLO or above (R293, R295). -/
def State.portLive (s : State) (p : Nat) : Bool := s.unitOn (domStitch p) && decide (2 ≤ s.lstate p)

/-! What goes out on the link (R293, R294, R297). -/

/-- A port's transmit state replaced. -/
def State.setTx (s : State) (p : Nat) (t : LinkTx) : State := s.setSp p { s.sp p with tx := t }

/-- Blocks leave, a data block where the flag is set: scrambled, and on the two lanes in turn (R293). -/
def LinkTx.emit (t : LinkTx) : List (Bool × Word) → LinkTx
  | [] => t
  | b :: bs =>
    let r := scramble t.reg b.2
    ({ t with reg := r.2, slot := t.slot + 1, line := t.line ++ [⟨t.slot % 2 == 1, if b.1 then 1 else 2, r.1⟩] } : LinkTx).emit bs

/-- A control block leaves (R294). -/
def LinkTx.control (t : LinkTx) (type content : Nat) : LinkTx := t.emit [(false, ctlBlock type content)]

/-- A frame leaves: START and its data blocks (R297). -/
def LinkTx.frame (t : LinkTx) (f : Frame) : LinkTx :=
  ({ t with sentFrame := some f } : LinkTx).emit ((false, ctlBlock 0x33 0) :: f.dataBlocks.map (fun w => (true, w)))

/-- ALIGN, on both lanes in one block slot, once in 16,384 blocks of each lane (R294). -/
def LinkTx.align (t : LinkTx) : LinkTx :=
  if t.alignAt ≤ t.slot ∧ t.slot % 2 = 0 then ({ t with alignAt := t.alignAt + 32768 } : LinkTx).emit (List.replicate 2 (false, ctlBlock 0x78 0))
  else t

/-- ECHORSP, with the turnaround from the request's arrival to stitch time `now` (R296). -/
def LinkTx.echoRsp (t : LinkTx) (now : Nat) : LinkTx :=
  match t.dueRsp with
  | some (t1, arrived) =>
    let turn := BitVec.ofNat 16 (now + 2 ^ 32 - arrived)
    ({ t with dueRsp := none, sentRsp := some (t1, turn) } : LinkTx).control 0x4D (t1.toNat + turn.toNat * 2 ^ 32)
  | none => t

/-- A BEAM marker with the contents of the moment it leaves (R313). -/
def LinkTx.beam (t : LinkTx) (contents : BitVec 48) : LinkTx :=
  if t.dueBeam then ({ t with dueBeam := false, sentBeam := some contents } : LinkTx).control 0x66 contents.toNat else t

/-- ECHOREQ with the stitch time of its departure (R296). -/
def LinkTx.echoReq (t : LinkTx) (now : Nat) : LinkTx :=
  if t.dueReq then ({ t with dueReq := false, sentReq := some (BitVec.ofNat 32 now) } : LinkTx).control 0x4B (now % 2 ^ 32) else t

/-- CREDIT for the two lowest channels whose FREED has advanced since it was last returned, the one twice if there is only one (R300, log
entry 66). -/
def LinkTx.credit (t : LinkTx) (freed : Table Nat) : LinkTx :=
  let at_ := fun (m : Table Nat) v => tget (fun _ => 0) m v
  match (List.range 16).filter (fun v => at_ freed v != at_ t.returned v) with
  | [] => t
  | a :: rest =>
    let b := rest.headD a
    let c := a + at_ freed a % 4096 * 2 ^ 4 + b * 2 ^ 16 + at_ freed b % 4096 * 2 ^ 20
    let back := tset (fun _ => 0) b (at_ freed b) (tset (fun _ => 0) a (at_ freed a) t.returned)
    ({ t with returned := back, sentCredit := some (BitVec.ofNat 48 c) } : LinkTx).control 0x55 c

/-! Delivery (R306, R318). -/

/-- A buffered frame of a port replaced. -/
def State.updEntry (s : State) (p seq : Nat) (f : RxEntry → RxEntry) : State :=
  s.setSp p { s.sp p with buf := (s.sp p).buf.map (fun x => if x.seq = seq then f x else x) }

/-- The frame's local delivery is over, or has come to byte `k`. -/
def State.setTodo (s : State) (p seq : Nat) (t : Option Nat) : State := s.updEntry p seq (fun x => { x with todo := t })

/-- The distance in lines from the beam to a target (R318): signed, frames modulo 2^32. -/
def State.lineDistance (s : State) (line frame : Nat) : Int :=
  sval 32 ((frame + 2 ^ 32 - s.beam.frame % 2 ^ 32) % 2 ^ 32) * (Int.ofNat s.vTotal) + (Int.ofNat line - Int.ofNat s.beam.line)

/-- What a step of a delivery did. -/
inductive Dlv where
  | more
  | waits
  | done
  deriving DecidableEq, Repr

/-- A step of a WRITE's delivery (R306): the bytes of one 64-bit word, on Port A as owner code 0x23. -/
def State.dlvWrite (s : State) (p : Nat) (x : RxEntry) (k : Nat) : Dlv × State :=
  let a := fld x.frame.word1 0 25 + k
  if 2 ^ 25 ≤ a then (.done, s.stiErr p (F.STI_DROPS_DELIVERR p))
  else
    let o := a % 8
    let n := Nat.min (8 - o) (x.frame.len - k)
    let next := s.setTodo p x.seq (some (k + n))
    match s.portAGate (bankOf a) 0x23 with
    | .held => (.waits, s)
    | .accepted =>
      let data := BitVec.ofNat 64 (ofBytes ((x.frame.payload.drop k).take n) * 2 ^ (8 * o))
      (.more, next.storeMasked (a / 8) ((2 ^ n - 1) * 2 ^ o) 0x23 data)
    | .refused =>
      let first := k == 0 || decide (a % 2 ^ 18 < 8)
      let s := next.violation a 0x23 1
      (.more, if first then s.stiErr p (F.STI_DROPS_DELIVERR p) else s)

/-- A step of a QPUSH's or LINEAHEAD's delivery (R306): one element. -/
def State.dlvPush (s : State) (p : Nat) (x : RxEntry) (k : Nat) : Dlv × State :=
  match s.portOp (59 + p) 4 (fld x.frame.word1 0 14) (x.frame.word (k / 8)) with
  | (.ok _ _, s) => (.more, s.setTodo p x.seq (some (k + 8)))
  | (.refused _, s) => (.done, s.stiErr p (F.STI_DROPS_DELIVERR p))
  | (.waits, s) => (.waits, s)
  | (_, s) => (.waits, s)

/-- A step of a frame's delivery; a LINEAHEAD's window is judged once (R306, R318). -/
def State.dlvStep (s : State) (p : Nat) (x : RxEntry) (k : Nat) : Dlv × State :=
  match x.frame.type with
  | 1 => if x.frame.len ≤ k then (.done, s) else s.dlvWrite p x k
  | 3 =>
    let ev := fld x.frame.word1 0 12
    (.done, if 0x400 ≤ ev ∧ ev ≤ 0x7FF then s.post ev else s.stiErr p (F.STI_DROPS_DELIVERR p))
  | 4 =>
    let d := s.lineDistance (fld x.frame.word1 16 14) (fld x.frame.word1 32 32)
    if !x.judged ∧ ¬ (Int.ofNat (s.get F.RHO_CTRL_LAMIN) ≤ d ∧ d ≤ 1024) then
      (.done, ((s.setRho { s.rho with lateDrop := s.rho.lateDrop + 1 }).put F.RHO_STATUS_LATE 1).rhoEv 10)
    else if x.frame.len ≤ k then (.done, s)
    else (s.updEntry p x.seq (fun e => { e with judged := true })).dlvPush p x k
  | 2 => if x.frame.len ≤ k then (.done, s) else s.dlvPush p x k
  | _ => (.done, s)

/-- A frame's delivery goes on until it is over or waits; whether it still waits. -/
def State.dlvRun (s : State) (p seq : Nat) : Nat → Bool × State
  | 0 => (true, s)
  | fuel + 1 =>
    match (s.sp p).buf.find? (fun x => x.seq == seq) with
    | some x =>
      match x.todo with
      | some k =>
        match s.dlvStep p x k with
        | (.more, s) => s.dlvRun p seq fuel
        | (.waits, s) => (true, s)
        | (.done, s) => (false, s.setTodo p seq none)
      | none => (false, s)
    | none => (false, s)

/-- Frames that have left the buffer return their credits (R300). -/
def State.leaveBuf (s : State) (p : Nat) : State :=
  let gone := fun (x : RxEntry) => x.ended && x.outs.isEmpty && x.live.isEmpty && x.todo.isNone
  let x := s.sp p
  let freed := (x.buf.filter gone).foldl (fun t e =>
    if e.frame.hmode = 2 then t
    else tset (fun _ => 0) e.frame.vc ((tget (fun _ => 0) t e.frame.vc + e.frame.cost) % 4096) t) x.freed
  s.setSp p { x with buf := x.buf.filter (fun e => !gone e), freed := freed }

/-- Every delivery of a port goes on, in order of arrival within a channel (R306). -/
def State.deliver (s : State) (p : Nat) : State :=
  let r := (s.sp p).buf.foldl (fun (a : List Nat × State) x =>
    if x.todo.isSome && !a.1.contains x.frame.vc then
      let r := a.2.dlvRun p x.seq 70
      (if r.1 then x.frame.vc :: a.1 else a.1, r.2)
    else a) ([], s)
  r.2.leaveBuf p

/-! Routing and reception (R299, R304, R305). -/

/-- Where a frame goes (R304): delivered here, forwarded on these ports, or misrouted. -/
def State.routing (s : State) (p : Nat) (f : Frame) : Bool × List Nat × Bool :=
  let standby := s.lstate p == 4
  match f.hmode with
  | 2 => (true, [], false)
  | 3 => (false, [], false)
  | 1 =>
    if typeReserved f.type then (false, [], false)
    else
      let outs := (List.range 4).filter (fun q => s.lstate q == 3 && s.upPort != some q)
      if standby || outs.contains p then (false, [], true) else (true, outs, false)
  | _ =>
    let up := fun (_ : Unit) =>
      match s.upPort with
      | some u => if standby || u == p then (false, [], true) else (false, [u], false)
      | none => if f.type = 0xB ∧ standby = false then (true, [], false) else (false, [], true)
    if f.type = 0xB then up ()
    else if f.dest = s.sig ∧ s.sig ≠ 0xFFFF then (if standby then (false, [], true) else (true, [], false))
    else
      match s.route f.dest with
      | some q => if standby || q == p then (false, [], true) else (false, [q], false)
      | none => up ()

/-- A frame that failed: it is forgotten, and STOMP follows it on every port that had begun to send it (R299, R305). -/
def State.dropRx (s : State) (p : Nat) (x : RxEntry) : State :=
  let s := x.live.foldl (fun s q =>
    (s.setSp q { s.sp q with busy := false, tx := (s.sp q).tx.control 0x2D 0 }).put (F.STI_STATUS_STOMPSEEN q) 1) s
  let s := s.setSp p { s.sp p with rx := none }
  let y := s.sp p
  if x.frame.hmode = 2 then s
  else s.setSp p { y with freed := tset (fun _ => 0) x.frame.vc ((tget (fun _ => 0) y.freed x.frame.vc + x.frame.cost) % 4096) y.freed }

/-- A frame of Rhoba's arrives in full (R306). -/
def State.rhoFrameIn (s : State) (p : Nat) (f : Frame) : State :=
  let t := match f.type with
    | 5 => if s.rhoOn then s.armWall (fld f.word1 0 14) (fld f.word1 16 14) (fld f.word1 32 32) else s
    | 6 => s.gotHello p (f.word 0)
    | 7 => s.gotWallsync p (f.word 0) (f.word 1)
    | 8 => s.gotEnum p (fld f.word1 0 16) (fld f.word1 16 16)
    | 9 => if s.rhoOn then s.walkAnswer p (some (fld f.word1 0 16)) else s
    | 0xA => s.gotEnumRej p
    | 0xB => if s.rhoOn ∧ s.role = 1 ∧ bit f.word1 0 = true then s.setRho { s.rho with walkReq := true } else s
    | 0xC => s.gotRejoin p (fld f.word1 0 2)
    | _ => s
  t.helloChanged s

/-- A frame that has passed its checks (R304, R306, R307): counted, routes learnt, misrouted frames dropped, others delivered. -/
def State.accepted (s : State) (p : Nat) (x : RxEntry) (mine : Bool) : State :=
  let s := s.inc (F.STI_FRMCNT_RXFRM p)
  let s := x.live.foldl (fun s q => s.setSp q { s.sp q with busy := false, tx := (s.sp q).tx.control 0x1E 0 }) s
  if x.misroute then (s.dropRx p { x with live := [] }).stiErr p (F.STI_RXERR_MISROUTE p)
  else
    let f := x.frame
    let s := if f.type = 0xB ∧ s.upPort ≠ some p ∧ s.rhoOn = true then s.learn f.src p else s
    let local_ := mine && decide (1 ≤ f.type ∧ f.type ≤ 4)
    let y := { x with live := [], ended := true, todo := if local_ then some 0 else none }
    let s := s.setSp p { s.sp p with rx := none, buf := (s.sp p).buf ++ [y] }
    let s := if mine && !local_ then s.rhoFrameIn p f else s
    s.deliver p

/-- The frame being received ends (R299); `stomped` says that STOMP ended it. -/
def State.frameEnd (s : State) (p : Nat) (stomped : Bool) : State :=
  match (s.sp p).rx with
  | none => s
  | some x =>
    let f := x.frame
    let mine := (s.routing p f).1
    let addressed := f.hmode == 0 && f.dest == s.sig && s.sig != 0xFFFF
    if stomped then ((s.dropRx p x).stiErr p (F.STI_DROPS_STOMPED p)).put (F.STI_STATUS_STOMPSEEN p) 1
    else if !f.crcOk then ((s.dropRx p x).checkFailed p (F.STI_RXERR_CRCERR p)).occurFree 0x061 (sourceOfPage (stiPage p))
    else if 512 < f.len ∨ f.blocks ≠ (27 + f.len) / 8 then (s.dropRx p x).checkFailed p (F.STI_RXERR_LENERR p)
    else if f.hmode = 3 then (s.dropRx p x).checkFailed p (F.STI_RXERR_TYPEERR p)
    else if typeReserved f.type && (f.hmode != 0 || addressed) then (s.dropRx p x).checkFailed p (F.STI_RXERR_TYPEERR p)
    else if lenBad f.type f.len then (s.dropRx p x).checkFailed p (F.STI_RXERR_LENERR p)
    else s.accepted p x mine

/-- START (R294, R297, R305): a frame still arriving ends, and the new one is routed by its header. In HELLO only link-mode frames
are taken. -/
def State.startFrame (s : State) (p : Nat) (f : Frame) : State :=
  if !s.portLive p then s
  else
    let s := s.frameEnd p false
    if s.lstate p = 2 ∧ f.hmode ≠ 2 then s
    else
      let r := s.routing p f
      let s := s.setRho { s.rho with seq := s.rho.seq + 1 }
      s.setSp p { s.sp p with rx := some ⟨f, s.rho.seq, r.2.1, [], none, r.2.2, false, false⟩ }

/-- A whole frame arrives: START, its data blocks, and the block that ends it. -/
def State.wholeFrame (s : State) (p : Nat) (f : Frame) : State :=
  if s.portLive p then (s.startFrame p f).frameEnd p false else s

/-- A row that is a frame of one type (log entry 3): a frame of another type is no such command and changes nothing. -/
def State.typedFrame (s : State) (p type : Nat) (f : Frame) : State := if f.type = type then s.wholeFrame p f else s

/-- A link-mode frame of the far end. -/
def farFrame (type : Nat) (arg : Word) (payload : List Byte) : Frame := mkFrame type payload.length 2 0 0 arg payload

/-! Bring-up and loss (R295). -/

/-- What leaving the link does, counted or not (R295, R307). -/
def State.linkDown (s : State) (p : Nat) : State :=
  let st := s.lstate p
  let s := match (s.sp p).rx with
    | some x => s.dropRx p x
    | none => s
  let s := (List.range 4).foldl (fun s q =>
    let y := s.sp q
    let cut := fun (e : RxEntry) => { e with live := e.live.filter (· != p) }
    s.setSp q { y with rx := y.rx.map cut, buf := y.buf.map cut }) s
  let x := s.sp p
  let tx := { x.tx with dueRsp := none, dueReq := false, dueBeam := false }
  let s := s.setSp p { x with
    linkOut := [], busy := false, helloIn := false, helloOut := false, unanswered := 0, inWalk := false, geomBad := false, tx := tx }
  let s := (s.put (F.STI_STATUS_LSTATE p) (s.get (F.STI_CTRL_EN p))).put (F.STI_STATUS_ALIGNED p) 0
  if 3 ≤ st then s.rhoLeft p else s

/-- LINK_LOSS (R295). -/
def State.linkLoss (s : State) (p : Nat) : State :=
  if s.unitOn (domStitch p) ∧ s.lstate p ≠ 0 then
    let t := ((s.linkDown p).put (F.STI_STATUS_DOWNSEEN p) 1).postIf (s.on (F.STI_EVEN_LDOWN p)) (0x3C4 + p)
    ((t.err (stiPage p)).occurFree 0x060 (sourceOfPage (stiPage p))).helloChanged s
  else s

/-- LINK_ENABLE: EN set takes the port from DOWN to ALIGN (R295). -/
def State.linkEnable (s : State) (p : Nat) : State :=
  if s.on (F.STI_CTRL_EN p) then s else (s.put (F.STI_CTRL_EN p) 1).put (F.STI_STATUS_LSTATE p) 1

/-- EN cleared: the port is DOWN (R295). -/
def State.linkDisable (s : State) (p : Nat) : State :=
  if s.on (F.STI_CTRL_EN p) then ((s.put (F.STI_CTRL_EN p) 0).linkDown p).helloChanged s else s

/-- ALIGNMENT_COMPLETE (R295, R309). -/
def State.aligned (s : State) (p : Nat) : State :=
  if s.unitOn (domStitch p) ∧ s.lstate p = 1 then
    ((s.put (F.STI_STATUS_LSTATE p) 2).put (F.STI_STATUS_ALIGNED p) 1).sendHello p
  else s

/-! Control blocks (R294, R296, R300). -/

/-- The stitch time in units of 2^-8 ns (R296). -/
def State.stitchTime (s : State) : Nat := s.rho.time / 2 ^ 16 % 2 ^ 32

/-- ECHO_INTERVAL (R296, R309): an ECHOREQ falls due, after 8 unanswered ones a loss (R295); once per 256 intervals a HELLO. -/
def State.echoInterval (s : State) (p : Nat) : State :=
  if !s.portLive p then s
  else if (s.sp p).unanswered = 8 then s.linkLoss p
  else
    let x := s.sp p
    let s := s.setSp p { x with
      unanswered := x.unanswered + 1, intervals := (x.intervals + 1) % 256, tx := { x.tx with dueReq := true } }
    if x.intervals = 255 then s.sendHello p else s

/-- ECHOREQ (R296): the ECHORSP that echoes T1 falls due; it leaves at the next block boundary. -/
def State.echoReq (s : State) (p : Nat) (t1 : BitVec 32) : State :=
  if s.portLive p then s.setTx p { (s.sp p).tx with dueRsp := some (t1, s.stitchTime) } else s

/-- ECHORSP (R296): T4 is the stitch time of its arrival, and DLY the mean of the last 64 values of RTT/2, plus ASYM. Where the mean is no whole number its rounding is a free
value (log entry 4). -/
def State.echoRsp (s : State) (p : Nat) (t1 turn : Nat) : State :=
  if s.portLive p then
    let rtt := (s.stitchTime + 2 ^ 33 - t1 - turn) % 2 ^ 32
    let x := s.sp p
    let hist := (rtt :: x.echoes).take 64
    let sum := hist.foldl (· + ·) 0
    let n := 2 * hist.length
    let r := if sum % n = 0 then (0, s) else let r := s.free; (r.1.toNat % 2, r.2)
    let s := r.2.setSp p { r.2.sp p with echoes := hist, unanswered := 0 }
    let dly : Int := Int.ofNat (sum / n + r.1) + sval 16 (s.get (F.STI_ASYM_ASYM p))
    let s := s.put (F.STI_HOPDLY_DLY p) (BitVec.ofInt 32 dly).toNat
    s.put (F.STI_HOPDLY_ECHOES p) (s.get (F.STI_HOPDLY_ECHOES p) + 1)
  else s

/-- One field of a CREDIT block (R300): what FREED has advanced by is returned. -/
def State.creditField (s : State) (p v freed : Nat) : State :=
  let x := s.sp p
  let d := (freed + 4096 - tget (fun _ => 0) x.seen v) % 4096
  let s := s.setSp p { x with seen := tset (fun _ => 0) v freed x.seen }
  s.put (F.STI_CRED_TXCRED p v) (Nat.min 4095 (s.get (F.STI_CRED_TXCRED p v) + d))

/-- CREDIT. -/
def State.credit (s : State) (p a fa b fb : Nat) : State :=
  if s.portLive p then (s.creditField p a fa).creditField p b fb else s

/-- Credits free in a port's buffer for a channel (R300, R326): none before the link is in HELLO, from which they count (R295). -/
def State.rxFree (s : State) (p v : Nat) : Nat :=
  if s.lstate p < 2 then 0
  else
  let x := s.sp p
  let held := (x.buf ++ x.rx.toList).foldl (fun n e => if e.frame.hmode ≠ 2 ∧ e.frame.vc = v then n + e.frame.cost else n) 0
  fld (s.reg (R.STI_VCBUF p (v / 8))) (8 * (v % 8)) 8 * 8 - held

/-! Sending (R301-R303). -/

/-- The queue of a channel (R302). -/
def vcQueue (p v : Nat) : Nat := 16284 + 16 * p + v

/-- The port peeks the header at the head of a channel's queue (R192, R302); of an empty queue there is none. -/
def State.peekHead (s : State) (p v : Nat) : State :=
  let n := vcQueue p v
  let r : Option Word × State := if s.qCount n = 0 then (none, s)
    else match s.portOp (59 + p) 3 n 0 with
      | (.ok w _, s) => (some w, s)
      | (_, s) => (none, s)
  r.2.setSp p { r.2.sp p with heads := tset (fun _ => none) v r.1 (r.2.sp p).heads }

/-- The header last peeked at the head of a channel's queue. -/
def State.vcHead (s : State) (p v : Nat) : Option Word := tget (fun _ => none) (s.sp p).heads v

/-- Whether a queued header is one a port sends (R302). -/
def headerOk (w : Word) : Bool :=
  let t := fld w 0 4
  let m := fld w 18 2
  decide (1 ≤ t ∧ t ≤ 4) && (if t = 4 then m == 1 else decide (m ≤ 1)) && !lenBad t (fld w 8 10)

/-- Elements popped from a channel's queue, at most `k`: those that came. -/
def State.popMany (s : State) (p v : Nat) : Nat → List Word × State
  | 0 => ([], s)
  | k + 1 =>
    match s.portOp (59 + p) 5 (vcQueue p v) 0 with
    | (.ok w _, s) =>
      let r := s.popMany p v k
      (w :: r.1, r.2)
    | (.waits, _) => ([], s)
    | (_, s) => ([], s)

/-- A bad header, and the elements still to discard, leave a channel's queue (R302). -/
def State.vcDiscard (s : State) (p v : Nat) : State :=
  let skip := tget (fun _ => 0) (s.sp p).skip v
  let s := if skip = 0 then s.peekHead p v else s
  let s := if skip = 0 then
      match s.vcHead p v with
      | some w =>
        if headerOk w then s
        else
          let t := s.stiErr p (F.STI_DROPS_TXBAD p)
          t.setSp p { t.sp p with skip := tset (fun _ => 0) v (2 + (fld w 8 10 + 7) / 8) (t.sp p).skip }
      | none => s
    else s
  let skip := tget (fun _ => 0) (s.sp p).skip v
  if skip = 0 then s
  else
    let r := s.popMany p v (Nat.min skip (s.qCount (vcQueue p v)))
    let s := r.2.setSp p { r.2.sp p with skip := tset (fun _ => 0) v (skip - r.1.length) (r.2.sp p).skip }
    if skip = r.1.length then s.peekHead p v else s

/-- The frame a channel would send next. -/
inductive VcNext where
  | none
  | forward (from_ seq cost : Nat)
  | own (cost : Nat)
  | queue (elements cost : Nat)
  deriving DecidableEq, Repr

/-- The oldest frame to forward on port `p` and channel `v`: its arrival port, and itself. -/
def State.fwdHead (s : State) (p v : Nat) : Option (Nat × RxEntry) :=
  let all := (List.range 4).flatMap (fun q =>
    (((s.sp q).buf ++ (s.sp q).rx.toList).filter (fun x => x.outs.contains p && x.frame.vc == v)).map (fun x => (q, x)))
  let first := minD 0 (all.map (fun x => x.2.seq))
  all.find? (fun x => x.2.seq == first)

/-- What a channel has to send (R303): forwarded frames before its own. -/
def State.vcNext (s : State) (p v : Nat) : VcNext :=
  match s.fwdHead p v with
  | some (q, x) => .forward q x.seq x.frame.cost
  | none =>
    match (s.sp p).own with
    | f :: _ => if v = 0 then .own f.cost else .none
    | [] =>
      match s.vcHead p v with
      | some w =>
        let n := 2 + (fld w 8 10 + 7) / 8
        if tget (fun _ => 0) (s.sp p).skip v = 0 ∧ headerOk w = true ∧ n ≤ s.qCount (vcQueue p v) then .queue n ((fld w 8 10 + 51) / 32)
        else .none
      | none => .none

/-- The credits a channel's next frame needs, if it has one. -/
def VcNext.cost : VcNext → Option Nat
  | .none => Option.none
  | .forward _ _ c => some c
  | .own c => some c
  | .queue _ c => some c

/-- Whether a channel may send now (R300, R303). -/
def State.vcReady (s : State) (p v : Nat) : Bool :=
  match (s.vcNext p v).cost with
  | some c => decide (c ≤ s.get (F.STI_CRED_TXCRED p v))
  | none => false

/-- The channel chosen (R303): the highest VCPRI, in rotation among equals. -/
def State.vcChoice (s : State) (p : Nat) : Option Nat :=
  let ready := (List.range 16).filter (s.vcReady p)
  let pri := fun v => fld (s.reg (R.STI_VCPRI p)) (2 * v) 2
  let best := ready.foldl (fun m v => Nat.max m (pri v)) 0
  ((List.range 16).map (fun j => ((s.sp p).lastVc + 1 + j) % 16)).find? (fun v => ready.contains v && pri v == best)

/-- A frame goes out (R297, R326). -/
def State.sendFrame (s : State) (p : Nat) (f : Frame) : State := (s.setTx p ((s.sp p).tx.frame f)).inc (F.STI_FRMCNT_TXFRM p)

/-- The control blocks due at a block boundary go out, in the order of R294. -/
def State.sendDue (s : State) (p : Nat) : State :=
  let x := s.sp p
  let t : LinkTx := { x.tx with line := [] }
  s.setTx p (((((t.align).echoRsp s.stitchTime).beam s.beamContents).echoReq s.stitchTime).credit x.freed)

/-- With no frame to send IDLE goes out, which ends the frame before it (R294, R297). -/
def State.sendIdle (s : State) (p : Nat) : State := s.setTx p ((s.sp p).tx.control 0x1E 0)

/-- A frame of channel `v` goes out for its credits. -/
def State.spend (s : State) (p v cost : Nat) : State :=
  (s.put (F.STI_CRED_TXCRED p v) (s.get (F.STI_CRED_TXCRED p v) - cost)).setSp p { s.sp p with lastVc := v }

/-- The frame assembled from a channel's queue (R298, R302): SRC is set, VC replaced, and the reserved bits sent as 0. -/
def State.queueFrame (s : State) (v : Nat) (ws : List Word) : Frame :=
  let w0 := setFld (setFld (setFld (ws.headD 0) 36 16 s.sig) 4 4 v) 52 12 0
  Frame.sealed w0 ((ws.drop 1).headD 0) (((ws.drop 2).flatMap (fun w => bytesOf 8 w.toNat)).take (fld w0 8 10))

/-- A forwarded frame starts on port `p` (R305): cut through while it is still arriving. -/
def State.forwardOn (s : State) (p q seq : Nat) (x : RxEntry) : State :=
  let s := s.sendFrame p x.frame
  let move := fun (e : RxEntry) => if e.seq = seq then
    { e with outs := e.outs.filter (· != p), live := if e.ended then e.live else e.live ++ [p] } else e
  let y := s.sp q
  let s := s.setSp q { y with rx := y.rx.map move, buf := y.buf.map move }
  if x.ended then s.leaveBuf q else s.setSp p { s.sp p with busy := true }

/-- A link-mode frame goes out (R303, R309); the HELLO that follows alignment may bring the link up. -/
def State.sendLinkFrame (s : State) (p : Nat) (f : Frame) (rest : List Frame) : State :=
  let s := (s.setSp p { s.sp p with linkOut := rest }).sendFrame p f
  if f.type = 6 ∧ s.lstate p = 2 then
    let s := s.setSp p { s.sp p with helloOut := true }
    if (s.sp p).helloIn then (s.linkUp p).helloChanged s else s
  else s

/-- The next frame of a chosen channel goes out (R302, R303). -/
def State.sendVc (s : State) (p v : Nat) : State :=
  match s.vcNext p v with
  | .forward q seq c =>
    match s.fwdHead p v with
    | some (_, x) => (s.spend p v c).forwardOn p q seq x
    | none => s
  | .own c =>
    match (s.sp p).own with
    | f :: rest => ((s.setSp p { s.sp p with own := rest }).spend p v c).sendFrame p f
    | [] => s
  | .queue n c =>
    let r := s.popMany p v n
    if r.1.length < n then r.2 else (r.2.spend p v c).sendFrame p (r.2.queueFrame v r.1)
  | .none => s

/-- FRAME_SELECT (R294, R302, R303): at a block boundary the control blocks that are due go out, and at a frame boundary the port starts its
next frame, or sends IDLE. -/
def State.frameSelect (s : State) (p : Nat) : State :=
  if !s.portLive p then s
  else
    let s := s.sendDue p
    if (s.sp p).busy then s
    else
      match (s.sp p).linkOut with
      | f :: rest => s.sendLinkFrame p f rest
      | [] =>
        if s.lstate p ≠ 3 then s.sendIdle p
        else
          let s := (List.range 16).foldl (fun s v => s.vcDiscard p v) s
          match s.vcChoice p with
          | none => s.sendIdle p
          | some v => s.sendVc p v

/-- CREDIT_STARVATION (R301): the frame at the head of a channel, forwarded or local, is dropped for want of credit. -/
def State.creditStarve (s : State) (p v : Nat) (forwarded : Bool) : State :=
  let counted := fun (s : State) =>
    (((s.stiErr p (F.STI_DROPS_STARVDROP p)).put (F.STI_STATUS_STARVSEEN p) 1).postIf (s.on (F.STI_EVEN_STARV p)) (0x3C8 + p)).occurFree
      0x062 (sourceOfPage (stiPage p))
  let short := fun c => decide (s.get (F.STI_CRED_TXCRED p v) < c)
  if !s.portLive p || !s.on (F.STI_CFG_STARVTO p) then s
  else
    let s := s.vcDiscard p v
    match s.vcNext p v with
    | .forward q seq c =>
      if forwarded && short c then
        let y := s.sp q
        let cut := fun (e : RxEntry) => if e.seq = seq then { e with outs := e.outs.filter (· != p) } else e
        counted ((s.setSp q { y with rx := y.rx.map cut, buf := y.buf.map cut }).leaveBuf q)
      else s
    | .own c => if !forwarded && short c then counted (s.setSp p { s.sp p with own := (s.sp p).own.drop 1 }) else s
    | .queue n c => if !forwarded && short c then counted (s.popMany p v n).2 else s
    | .none => s

/-! Host writes (R326). -/

/-- A write of VCBUF0 or VCBUF1 (R326); under LOCK.CFG one that changes nothing is not covered (R415). -/
def State.vcbufWrite (s : State) (p j : Nat) (v : Word) : State :=
  let other := s.reg (R.STI_VCBUF p (1 - j))
  let vals := (List.range 8).map (fun i => fld v (8 * i) 8)
  let change := v != s.reg (R.STI_VCBUF p j)
  let sum := (vals ++ (List.range 8).map (fun i => fld other (8 * i) 8)).foldl (· + ·) 0
  if (s.on (F.STI_LOCK_CFG p) && change) || s.on (F.STI_CTRL_EN p) || vals.any (fun x => x == 1 || x == 2) || decide (256 < sum) then s.rej (stiPage p)
  else s.setReg (R.STI_VCBUF p j) v

/-- A write of STI.CTRL. -/
def State.stiCtrlWrite (s : State) (p : Nat) (v : Word) : State :=
  let s := s.put (F.STI_CTRL_WAKE p) (fld v 2 1)
  let s := if bit v 0 then s.linkEnable p else s.linkDisable p
  if bit v 1 then s.linkLoss p else s

/-- STI.STATUS as it reads (R326). -/
def State.stiStatus (s : State) (p : Nat) : Word :=
  setFld (s.reg (R.STI_STATUS p)) 3 1 (b2n (s.upPort == some p))

/-! The rows. -/

def execLinkEnable (p : Fin 4) (s : State) : Res := .next (s.hostWrite (domStitch p.val) (R.STI_CTRL p.val) (fun s => s.linkEnable p.val))

def execRetrain (p : Fin 4) (s : State) : Res := .next (s.hostWrite (domStitch p.val) (R.STI_CTRL p.val) (fun s => s.linkLoss p.val))

def execLinkLoss (p : Fin 4) (s : State) : Res := .next (s.linkLoss p.val)

def execAlignmentComplete (p : Fin 4) (s : State) : Res := .next (s.aligned p.val)

/-- IDLE_BLOCK (R294, R297): the block as received. IDLE ends the frame before it; a block whose check fails or whose type is not in the
table is counted and ignored, and of the table's other types, which have their own rows, nothing is done here. -/
def State.ctlBlockIn (s : State) (p : Nat) (b : Word) : State :=
  if !s.portLive p then s
  else if !ctlOk b then s.stiErr p (F.STI_CTLERR_CTLERR p)
  else if fld b 0 8 = 0x1E then s.frameEnd p false
  else s

def execIdleBlock (block : StitchBlock) (s : State) : Res := .next (s.ctlBlockIn block.port.val block.bits)

/-- STOMP ends the frame before it, which its sender has found bad (R294, R299). -/
def execStomp (p : Fin 4) (s : State) : Res := .next (if s.portLive p.val then s.frameEnd p.val true else s)

def execStartBlock (p : Fin 4) (frame : Frame) (s : State) : Res := .next (s.startFrame p.val frame)

def execEchoreq (p : Fin 4) (t1 : BitVec 32) (s : State) : Res := .next (s.echoReq p.val t1)

/-- ECHORSP (R294, R296), with the CRC-8 it carries: a block whose check fails is counted and ignored. -/
def execEchorsp (p : Fin 4) (t1 : BitVec 32) (turn : BitVec 16) (crc : BitVec 8) (s : State) : Res :=
  .next (if crc8 (bytesOf 7 (0x4D + t1.toNat * 2 ^ 8 + turn.toNat * 2 ^ 40)) = crc.toNat then s.echoRsp p.val t1.toNat turn.toNat
    else if s.portLive p.val then s.stiErr p.val (F.STI_CTLERR_CTLERR p.val) else s)

def execCredit (p : Fin 4) (vcA : Fin 16) (freedA : BitVec 12) (vcB : Fin 16) (freedB : BitVec 12) (s : State) : Res :=
  .next (s.credit p.val vcA.val freedA.toNat vcB.val freedB.toNat)

def execBeamMarker (p : Fin 4) (tick line : BitVec 14) (phase : BitVec 13) (_frame : BitVec 6) (hold : Bool) (s : State) : Res :=
  .next (s.marker p.val tick.toNat line.toNat phase.toNat hold)

/-- ALIGN (R294): it deskews the lanes, and changes nothing the block keeps. -/
def execAlign (_p : Fin 4) (s : State) : Res := .next s

def execEchoInterval (p : Fin 4) (s : State) : Res := .next (s.echoInterval p.val)

def execWrite (p : Fin 4) (frame : Frame) (s : State) : Res := .next (s.typedFrame p.val 1 frame)

def execQpush (p : Fin 4) (frame : Frame) (s : State) : Res := .next (s.typedFrame p.val 2 frame)

def execEvent (p : Fin 4) (frame : Frame) (s : State) : Res := .next (s.typedFrame p.val 3 frame)

def execLineahead (p : Fin 4) (frame : Frame) (s : State) : Res := .next (s.typedFrame p.val 4 frame)

/-- DELIVERY_PUSH_RETRY (R306): deliveries that wait are presented again. -/
def execDeliveryPushRetry (p : Fin 4) (s : State) : Res := .next (if s.unitOn (domStitch p.val) then s.deliver p.val else s)

def execPressFrame (p : Fin 4) (frame : Frame) (s : State) : Res := .next (s.typedFrame p.val 5 frame)

def execHello (p : Fin 4) (payload : BitVec 64) (s : State) : Res :=
  .next (s.wholeFrame p.val (farFrame 6 0 (bytesOf 8 payload.toNat)))

def execWallsync (p : Fin 4) (word0 word1 : BitVec 64) (s : State) : Res :=
  .next (s.wholeFrame p.val (farFrame 7 0 (bytesOf 8 word0.toNat ++ bytesOf 8 word1.toNat)))

def execEnum (p : Fin 4) (next epoch : BitVec 16) (s : State) : Res :=
  .next (s.wholeFrame p.val (farFrame 8 (BitVec.ofNat 64 (next.toNat + epoch.toNat * 2 ^ 16)) []))

def execEnumdone (p : Fin 4) (next : BitVec 16) (s : State) : Res := .next (s.wholeFrame p.val (farFrame 9 (next.setWidth 64) []))

def execEnumrej (p : Fin 4) (s : State) : Res := .next (s.wholeFrame p.val (farFrame 0xA 0 []))

def execRouteann (p : Fin 4) (src : BitVec 16) (reqenum : Bool) (s : State) : Res :=
  .next (s.wholeFrame p.val (mkFrame 0xB 0 0 0 src.toNat (BitVec.ofNat 64 (b2n reqenum)) []))

def execRejoin (p : Fin 4) (code : BitVec 2) (s : State) : Res := .next (s.wholeFrame p.val (farFrame 0xC (code.setWidth 64) []))

def execFrameSelect (p : Fin 4) (s : State) : Res := .next (s.frameSelect p.val)

def execCreditStarvation (p : Fin 4) (vc : Fin 16) (forwarded : Bool) (s : State) : Res := .next (s.creditStarve p.val vc.val forwarded)

def execMarkerTimeout (s : State) : Res := .next s.markerTimeout

def execEnumCommand (s : State) : Res := .next (s.hostWrite domTimer R.RHO_CTRL (fun s => s.enumCommand))

def execRhoEnableChange (enable : Bool) (s : State) : Res := .next (s.hostWrite domTimer R.RHO_CTRL (fun s => s.rhoEnable enable))

def execWpress (value : BitVec 64) (s : State) : Res := .next (s.hostPair domTimer R.RHO_WPRESS (fun s => s.wallPress value))

end Sys2Proof.Machine
end

