-- ==== Sys2Proof/Machine/Boundary.lean ====
section
/-! DEFINITION. The host boundary (chapter 12): access timeouts, the bank window, line-parameter, sound and blit ports, test data
registers. The host master port is in `Machine/Dma.lean`. -/

namespace Sys2Proof.Machine

/-- The BND page. -/
def bndPage : Nat := 0x1F0

/-- A line-parameter port's typed state. -/
def State.lpp (s : State) (p : Nat) : LpPort := tget (fun _ => LpPort.reset) s.lp p

/-- The state with a line-parameter port's typed state replaced. -/
def State.setLp (s : State) (p : Nat) (x : LpPort) : State := { s with lp := tset (fun _ => LpPort.reset) p x s.lp }

/-- A sound port's typed state. -/
def State.sp8 (s : State) (k : Nat) : SoundPort := tget (fun _ => SoundPort.reset) s.snd k

/-- The state with a sound port's typed state replaced. -/
def State.setSnd (s : State) (k : Nat) (x : SoundPort) : State := { s with snd := tset (fun _ => SoundPort.reset) k x s.snd }

/-- Whether bit `i` of BND.EVEN is set (R345). -/
def State.bndEven (s : State) (i : Nat) : Bool := (s.get F.BND_EVEN_EVEN).testBit i

/-! The bank window (R332). -/

/-- A normal window response. -/
def State.okWindow (s : State) (data : BitVec 32) : State := { s with resp := { s.resp with bwErr := false, bwData := data } }

/-- A 32-bit half of a 64-bit word. -/
def halfOf (w : Word) (high : Bool) : BitVec 32 := if high then w.extractLsb' 32 32 else w.setWidth 32

/-- A window access on Port B of bank `n` (R174, R180, R187, R332), or its wait there; `fresh` counts the stall of this BCLK. -/
def State.windowB (s : State) (n : Nat) (fresh : Bool) (a : BwAccess) (mask : Nat) (data : Word) : Option BwAnswer × State :=
  let w := a.addr / 2
  if !s.unitOn (domBank n) then (none, s)
  else if s.marchRefuses n then (some (.failed 4), s.err (bankPage n))
  else if s.portBWaits n .hostWindow [w] then (none, if fresh then s.portBStall n .hostWindow else s)
  else
    let s := s.takeB n 0x22 (lineBclk a.write mask)
    if a.write then (some (.normal 0), s.portBWrite w 0x22 data mask)
    else
      let r := s.eccRead w 1 0x22
      (some (.normal (halfOf r.1 (a.addr % 2 == 1))), r.2.2)

/-- A window access at its bank (R332): on Port A of a bank that owner code 0x22 owns, on Port B otherwise; no answer while the bank
holds it. -/
def State.windowTry (s : State) (fresh : Bool) (a : BwAccess) : Option BwAnswer × State :=
  let n := a.addr / 65536
  let w := a.addr / 2
  let mask := a.be * 2 ^ (4 * (a.addr % 2))
  let data : Word := a.data.setWidth 64 <<< (32 * (a.addr % 2))
  if a.write ∧ a.be = 0 then (some (.normal 0), s)
  else if s.get (F.BNK_OWN_OWNER n) = 0x22 then
    match s.portAGate n 0x22 with
    | .accepted =>
      if a.write then (some (.normal 0), s.storeMasked w mask 0x22 data)
      else
        let r := s.portARead w 0x22
        (some (.normal (halfOf r.1 (a.addr % 2 == 1))), r.2.2)
    | _ => (none, s)
  else s.windowB n fresh a mask data

/-- The accesses not yet performed meet their banks, in order at each bank (R175, R332): those with their answers, and the state.
`held` are the banks that hold an earlier access. -/
def State.windowScan (s : State) (fresh : Bool) (held : List Nat) : List BwAccess → List BwAccess × State
  | [] => ([], s)
  | a :: rest =>
    let n := a.addr / 65536
    let r := if a.answer.isSome || held.contains n then (a.answer, s) else s.windowTry fresh a
    let t := r.2.windowScan fresh (if r.1.isSome then held else n :: held) rest
    ({ a with answer := r.1 } :: t.1, t.2)

/-- Answers are given in the order accepted (R332). -/
def State.windowAnswers (s : State) : List BwAccess → State
  | [] => { s with bw := [] }
  | a :: rest =>
    match a.answer with
    | some (.normal d) => (s.okWindow d).windowAnswers rest
    | some (.failed cause) => (s.errorResponse true a.write (4 * a.addr) cause).windowAnswers rest
    | none => { s with bw := a :: rest }

/-- The bank window goes on as far as it comes (R332). -/
def State.windowRun (s : State) (fresh : Bool) : State :=
  let r := s.windowScan fresh [] s.bw
  r.2.windowAnswers r.1

/-- BANK_WINDOW_ACCESS (R332): `addr` is BW_ADDR[24:2]. The access is accepted, and performed and answered when its turn comes. -/
def State.bankWindow (s : State) (addr : Nat) (isWrite : Bool) (be : Nat) (d : BitVec 32) : State :=
  if !s.pwr.running then s else ({ s with bw := s.bw ++ [(⟨addr, isWrite, be, d, none⟩ : BwAccess)] }).windowRun true

/-- The list with the first access that waits at `addr` in a direction failed by its limit. -/
def failFirst (addr : Nat) (isWrite : Bool) : List BwAccess → List BwAccess
  | [] => []
  | a :: rest =>
    if a.addr = addr ∧ a.write = isWrite ∧ a.answer = none then { a with answer := some (.failed 1) } :: rest
    else a :: failFirst addr isWrite rest

/-- BANK_WINDOW_TIMEOUT (R332): an access not performed within BWTO is cancelled and answered with an error in its turn; one that its
bank has performed is answered normally. -/
def State.windowTimeout (s : State) (addr : Nat) (isWrite : Bool) : State := s.windowAnswers (failFirst addr isWrite s.bw)

/-! Line-parameter ports (R337-R339). -/

/-- The queue of a line-parameter port (R337). -/
def lpQueue (p : Nat) : Nat := 16256 + p

/-- RECW of a port (R337). -/
def State.recw (s : State) (p : Nat) : Nat := fld (s.reg R.BND_LPCFG) (3 * p) 3 + 1

/-- A line-parameter record's entry in the colophon (R338). -/
def State.lpRecord (s : State) (p line frame : Nat) (drop : Bool) (header : Word) : State :=
  s.occur 0x071 0x5F0 false (BitVec.ofNat 64 (p + b2n drop * 2 ^ 8)) (BitVec.ofNat 64 (line + frame * 2 ^ 16)) header

/-- A late drop (R338). -/
def State.lpLate (s : State) (p : Nat) (v : LpServe) (header : Word) : State :=
  ((s.inc (F.BND_LPCNT_LATE p)).postIf (s.bndEven p) (0xC40 + p)).lpRecord p v.line v.frame true header

/-- A miss (R338): the port's last record is shown again. -/
def State.lpMiss (s : State) (p : Nat) (v : LpServe) : State :=
  let s := ((s.inc (F.BND_LPCNT_MISS p)).postIf (s.bndEven p) (0xC40 + p)).lpRecord p v.line v.frame false 0
  let x := s.lpp p
  s.setLp p { x with serve := none, next := x.next ++ [⟨x.last, v.line, true⟩] }

/-- A record as its elements lie on LP_DATA (R339). -/
def lpData (els : List Word) : BitVec 512 := BitVec.ofNat 512 (ofBytes (els.flatMap (fun e => bytesOf 8 e.toNat)))

/-- The signed distance in lines of a header from the target (R338), or none for a header whose line does not exist. -/
def State.lpDistance (s : State) (v : LpServe) (h : Word) : Option Int :=
  if s.vTotal ≤ fld h 0 14 then none
  else some (sval 16 (fld h 16 16 + 2 ^ 16 - v.frame) * s.vTotal + (fld h 0 14 : Int) - v.line)

/-- One step of the service of a deadline (R338): a pop of the record begun, or the judgement of the next header. Whether the
service goes on. -/
def State.lpServeStep (s : State) (p : Nat) (v : LpServe) : Bool × State :=
  let q := lpQueue p
  let port := 33 + p
  if v.got ≠ [] then
    match s.portOp port 2 q 0 with
    | (.ok e _, s) =>
      let got := v.got ++ [e]
      if got.length < s.recw p then (true, s.setLp p { s.lpp p with serve := some { v with got := got } })
      else if v.own then
        let r := lpData got
        let x := s.lpp p
        (false, s.setLp p { x with serve := none, last := r, next := x.next ++ [⟨r, v.line, false⟩] })
      else
        let v' : LpServe := { v with got := [], drops := v.drops + 1 }
        (true, (s.setLp p { s.lpp p with serve := some v' }).lpLate p v (got.headD 0))
    | (.waits, s) => (false, s)
    | (_, s) => (false, s.lpMiss p v)
  else if s.qCount q < s.recw p ∨ 16 ≤ v.drops then (false, s.lpMiss p v)
  else
    match s.portOp port 3 q 0 with
    | (.ok h _, s) =>
      let pop := fun (own : Bool) (s : State) =>
        match s.portOp port 2 q 0 with
        | (.ok e _, s) =>
          let v' : LpServe := { v with got := [e], own := own }
          if s.recw p = 1 then
            if own then
              let r := lpData [e]
              let x := s.lpp p
              (false, s.setLp p { x with serve := none, last := r, next := x.next ++ [⟨r, v.line, false⟩] })
            else (true, (s.setLp p { s.lpp p with serve := some { v with drops := v.drops + 1 } }).lpLate p v e)
          else (true, s.setLp p { s.lpp p with serve := some v' })
        | (.waits, s) => (false, s)
        | (_, s) => (false, s.lpMiss p v)
      match s.lpDistance v h with
      | none => pop false s
      | some d => if d < 0 then pop false s else if d = 0 then pop true s else (false, s.lpMiss p v)
    | (.waits, s) => (false, s)
    | (_, s) => (false, s.lpMiss p v)

/-- The service of a port's deadline as far as it comes now: at most 17 records of at most 8 elements. With LPEN clear the port takes no
record and counts nothing. -/
def State.lpServe (s : State) (p : Nat) : Nat → State
  | 0 => s
  | fuel + 1 =>
    match (s.lpp p).serve with
    | none => s
    | some v =>
      if !(s.get F.BND_CTRL_LPEN).testBit p then s.setLp p { s.lpp p with serve := none }
      else
        let r := s.lpServeStep p v
        if r.1 then r.2.lpServe p fuel else r.2

/-- LP_SERVE (R338): the deadline of line `n` of the frame with count `f` arrives at port `p`. An earlier deadline still being
served ends as a miss. -/
def State.lpDeadline (s : State) (p n f : Nat) : State :=
  if !s.unitOn domBnd || !(s.get F.BND_CTRL_LPEN).testBit p then s
  else
    let s := match (s.lpp p).serve with
      | some v => s.lpMiss p v
      | none => s
    (s.setLp p { s.lpp p with serve := some ⟨f % 2 ^ 16, n, 0, [], false⟩ }).lpServe p 160

/-- LP_RECORD_PRESENT (R338, R339): the port goes on with a service that waited, and presents the next record it has decided; one
still held is replaced and counts as late. -/
def State.lpPresent (s : State) (p : Nat) : State :=
  if !s.unitOn domBnd then s
  else
    let s := s.lpServe p 160
    let x := s.lpp p
    match x.next with
    | [] => s
    | r :: rest =>
      let s := if x.held.isSome then (s.inc (F.BND_LPCNT_LATE p)).postIf (s.bndEven p) (0xC40 + p) else s
      s.setLp p { s.lpp p with next := rest, held := some r }

/-- LP_READY (R339). -/
def State.lpReady (s : State) (p : Nat) : State :=
  if s.unitOn domBnd then s.setLp p { s.lpp p with held := none } else s

/-! Sound ports (R340, R341). -/

/-- The queue of a sound port (R340). -/
def soundQueue (k : Nat) : Nat := 16272 + k

/-- SAMPLE_TICK (R340): the sample counter counts modulo 2^32. -/
def State.sampleTick (s : State) (k : Nat) : State :=
  if s.unitOn domBnd then (s.put (F.BND_SCNT_SCNT k) (s.get (F.BND_SCNT_SCNT k) + 1)).postIf (s.bndEven (24 + k)) (0xC58 + k) else s

/-- A due record whose first element is popped takes its value and is presented (R341). -/
def State.soundTake (s : State) (k : Nat) (e : Word) : State :=
  match s.portOp (49 + k) 2 (soundQueue k) 0 with
  | (.ok v _, s) =>
    let d := sval 32 (fld e 0 32 + 2 ^ 32 - s.get (F.BND_SCNT_SCNT k))
    let late := decide (d < 0)
    let s := if late then s.inc (F.BND_SNDCNT_LATE k) else s
    s.setSnd k ⟨none, some ⟨8 * k + fld e 32 3, fld e 36 8, v, late⟩⟩
  | (_, s) => s.setSnd k { s.sp8 k with first := some e }

/-- A record whose STAMP has come is popped and presented (R341). -/
def State.soundNext (s : State) (k : Nat) : State :=
  if !(s.get F.BND_CTRL_SNDEN).testBit k then s
  else
    match (s.sp8 k).first with
    | some e => s.soundTake k e
    | none =>
      if s.qCount (soundQueue k) < 2 then s
      else
        match s.portOp (49 + k) 3 (soundQueue k) 0 with
        | (.ok h _, s) =>
          if 0 < sval 32 (fld h 0 32 + 2 ^ 32 - s.get (F.BND_SCNT_SCNT k)) then s
          else
            match s.portOp (49 + k) 2 (soundQueue k) 0 with
            | (.ok e _, s) => s.soundTake k e
            | (_, s) => s
        | (_, s) => s

/-- SOUND_RECORD_PRESENT (R341), with the level of SNDs_READY: a record presented is held until SNDs_READY, and the next due one follows. -/
def State.soundPresent (s : State) (k : Nat) (ready : Bool) : State :=
  if !s.unitOn domBnd || ((s.sp8 k).out.isSome && !ready) then s
  else (s.setSnd k { s.sp8 k with out := none }).soundNext k

/-- SOUND_UNDERRUN (R341). -/
def State.soundUnderrun (s : State) (k : Nat) : State :=
  if s.unitOn domBnd then (s.inc (F.BND_SNDCNT_UNDERRUN k)).postIf (s.bndEven (16 + k)) (0xC50 + k) else s

/-! The blit port (R342-R344). -/

/-- The accepted request's words, as far as their pops succeed now (R342). -/
def State.blitPop (s : State) : Nat → State
  | 0 => s
  | fuel + 1 =>
    match s.blit.words with
    | some ws =>
      if 4 ≤ ws.length then s
      else
        match s.portOp 57 2 (16280 + ws.length) 0 with
        | (.ok v _, s) => ({ s with blit := { s.blit with words := some (ws ++ [v]) } }).blitPop fuel
        | (_, s) => s
    | none => s

/-- BLIT_ACCEPTANCE (R342): with BL_READY high, the oldest request is accepted once each queue holds a word. -/
def State.blitAccept (s : State) : State :=
  if !s.unitOn domBnd || !s.on F.BND_CTRL_BLTEN || s.blit.out || s.blit.words.isSome ||
      (List.range 4).any (fun i => s.qCount (16280 + i) == 0) then s
  else
    match s.blit.waiting with
    | [] => s
    | _ :: rest => ({ s with blit := { s.blit with waiting := rest, words := some [] } }).blitPop 4

/-- BLIT_COMMAND_PRESENT (R342): the last word has arrived. -/
def State.blitPresent (s : State) : State :=
  if !s.unitOn domBnd then s
  else
    let s := s.blitPop 4
    match s.blit.words with
    | some [a, b, c, d] =>
      let cmd := BitVec.ofNat 256 (a.toNat + b.toNat * 2 ^ 64 + c.toNat * 2 ^ 128 + d.toNat * 2 ^ 192)
      { s with blit := { s.blit with words := none, out := true, cmd := cmd } }
    | _ => s

/-- BL_DONE (R344). -/
def State.blDone (s : State) : State :=
  if !s.unitOn domBnd then s
  else
    let s := ({ s with blit := { s.blit with out := false } }).inc F.BND_BLTDONE_BLTDONE
    let step := s.get F.BND_BLTWM_STEP
    s.postIf (s.bndEven 32 && step != 0 && s.get F.BND_BLTDONE_BLTDONE % step == 0) 0xC60

/-- BLITGO_TIMEOUT (R343): the context's oldest request that has a limit is abandoned; a context stopped since is not faulted (R90). -/
def State.blitTimeout (s : State) (c : Nat) : State :=
  if !s.unitOn domBnd then s
  else
    match s.blit.waiting.find? (fun r => r.ctx == c && r.limit != 0) with
    | none => s
    | some r =>
      let rest := dropFirst (fun o : BlitReq => o.ctx == c && o.limit != 0) s.blit.waiting
      ({ s with blit := { s.blit with waiting := rest } }).blitAbandon c r.addr r.limit r.stopped

/-! Test data registers (R349). -/

/-- MARCHTDR_UPDATE: the command reaches the named bank, or every bank. -/
def State.marchTdr (s : State) (v : BitVec 32) : State :=
  let cmd := fld v 7 2
  let gap := fld v 9 8
  let s := { s with tdr := { s.tdr with bank := fld v 0 7 } }
  let go := fun (s : State) (n : Nat) => if s.unitOn (domBank n) then s.marchWrite n cmd gap else s
  if bit v 17 then (List.range 128).foldl go s else go s (fld v 0 7)

/-- What MARCHTDR captures: with no failing bank, its fields for one are free values. -/
def State.marchCapture (s : State) : State :=
  let busy := (List.range 128).any (fun n => s.on (F.BNK_STATUS_MBUSY n))
  match (List.range 128).find? (fun n => s.on (F.BNK_STATUS_MFAIL n)) with
  | some n =>
    { s with tdr := { s.tdr with cap := BitVec.ofNat 64 (b2n busy + 2 + n * 2 ^ 2 + fld (s.reg (R.BNK_MFAIL n)) 0 23 * 2 ^ 9) } }
  | none =>
    let r := s.free
    { r.2 with tdr := { r.2.tdr with cap := BitVec.ofNat 64 (b2n busy + fld r.1 2 30 * 2 ^ 2) } }

/-- A level that the pads receive from outside, put over a state's own. -/
def State.takePads (t s : State) : State :=
  (List.range 128).foldl (fun t n => t.setPn n { t.pn n with ext := (s.pn n).ext }) t

/-- The scan chains captured or loaded under TEST_MODE (R349): the block's state is destroyed until a reset. What it becomes is a free
value (log entry 65): some state whose tables are canonical. The block's inputs stay as they are. -/
def State.scanned (s : State) : State :=
  match (Config.scanned s.freeCtr).find? State.wf with
  | none => { s with freeCtr := s.freeCtr + 1 }
  | some t =>
    ({ t with
        pending := s.pending, fclk := s.fclk, freeCtr := s.freeCtr + 1, fuse := s.fuse
        pwr := { t.pwr with krstLow := s.pwr.krstLow, rstLow := s.pwr.rstLow, testMode := s.pwr.testMode, pwrfail := s.pwr.pwrfail } }).takePads s

/-- SCANTDR acts only under TEST_MODE (R349). -/
def State.scan (s : State) : State := if s.pwr.testMode then s.scanned else s

/-- TDR_CAPTURE (R349). -/
def State.tdrCapture (s : State) (sel : Nat) : State :=
  match sel with
  | 0 => s.marchCapture
  | 1 => { s with tdr := { s.tdr with cap := s.repairSum s.tdr.bank } }
  | 2 => s.scan
  | _ => { s with tdr := { s.tdr with cap := 0 } }

/-! The rows. -/

/-- ACCESS_TIMEOUT (R330): `addr` is RG_ADDR[23:2]. -/
def execAccessTimeout (addr : BitVec 22) (isWrite : Bool) (s : State) : Res :=
  .next (s.errorResponse false isWrite (4 * addr.toNat) 1)

def execBankWindowAccess (addr : BitVec 23) (isWrite : Bool) (be : BitVec 4) (data : BitVec 32) (s : State) : Res :=
  .next (s.bankWindow addr.toNat isWrite be.toNat data)

def execBankWindowTimeout (addr : BitVec 23) (isWrite : Bool) (s : State) : Res := .next (s.windowTimeout addr.toNat isWrite)

/-- HOST_DOORBELL (R331): the line is posted once the write's response is transferred. -/
def execHostDoorbell (value : BitVec 6) (s : State) : Res :=
  .next (s.hostWrite domBnd R.BND_DOORBELL (fun s => s.post (0xC00 + value.toNat)))

def execLpRecordPresent (p : Fin 16) (s : State) : Res := .next (s.lpPresent p)

def execLpReady (p : Fin 16) (s : State) : Res := .next (s.lpReady p)

def execSampleTick (k : Fin 8) (s : State) : Res := .next (s.sampleTick k)

def execSoundRecordPresent (snd : SoundAsk) (s : State) : Res := .next (s.soundPresent snd.port snd.ready)

/-- SOUND_UNDERRUN (R341): the port counts it, whichever of its channels it was. -/
def execSoundUnderrun (k : Fin 8) (_channel : Fin 8) (s : State) : Res := .next (s.soundUnderrun k)

def execBlitAcceptance (s : State) : Res := .next s.blitAccept

def execBlitCommandPresent (s : State) : Res := .next s.blitPresent

def execBlDone (s : State) : Res := .next s.blDone

def execBlitgoTimeout (c : Fin 1024) (s : State) : Res := .next (s.blitTimeout c)

def execMarchtdrUpdate (value : BitVec 32) (s : State) : Res := .next (s.marchTdr value)

def execTdrCapture (sel : BitVec 2) (s : State) : Res := .next (s.tdrCapture sel.toNat)

/-- SCANTDR_UPDATE (R349). -/
def execScantdrUpdate (s : State) : Res := .next s.scan

end Sys2Proof.Machine
end

