-- ==== Sys2Proof/Machine/Interrupt.lean ====
section
/-! DEFINITION. The interrupt controller (R350-R356): raises, the choice of offers, acknowledgement and end of interrupt. A raise
itself is `State.raise` (`Machine/Ops.lean`). -/

namespace Sys2Proof.Machine

/-- The INT page and a core's page (R356). -/
def intPage : Nat := 4
def intkPage (k : Nat) : Nat := 5 + k

/-- The sources with PEND set, in order (R350): only entries that differ from their reset value can have it. -/
def State.pendingSources (s : State) : List Nat :=
  s.regs.filterMap (fun e =>
    let page := e.1 / 4096
    let off := e.1 % 4096
    if decide (0x10 ≤ page ∧ page ≤ 0x17 ∧ 0x100 ≤ off ∧ off < 0x900) && bit e.2 48 then some ((page - 0x10) * 256 + (off - 0x100) / 8)
    else none)

/-- A source's level (R356). -/
def State.srcLevel (s : State) (i : Nat) : Nat := s.get (F.INTSRC_SRC_LEVEL i)

/-- RUNPRI of core `k` (R351): the highest level in ACTIVE. -/
def State.runPri (s : State) (k : Nat) : Nat :=
  (List.range 16).foldl (fun acc l => if (s.get (F.INTK_STATUS_ACTIVE k)).testBit l then l else acc) 0

/-- The offer on core `k`'s bus. -/
def State.offerOf (s : State) (k : Nat) : Option Offer := tget (fun _ => none) s.int.offer k

/-- The state with core `k`'s offer replaced. -/
def State.setOffer (s : State) (k : Nat) (o : Option Offer) : State :=
  { s with int := { s.int with offer := tset (fun _ => none) k o s.int.offer } }

/-- Whether a pending source is eligible for a core (R351). -/
def State.eligible (s : State) (i k : Nat) : Bool :=
  let l := s.srcLevel i
  s.on F.INT_CTRL_EN && s.on (F.INTK_CTRL_EN k) && (s.get (F.INTSRC_SRC_TARGET i)).testBit k &&
  decide (s.get (F.INTK_CTRL_THRESH k) < l) && decide (s.runPri k < l)

/-- The core a source is offered to now. -/
def State.offeredTo (s : State) (i : Nat) : Option Nat :=
  (List.range 8).find? (fun k => match s.offerOf k with | some o => o.src == i | none => false)

/-- srot of a level (R351). -/
def State.srot (s : State) (l : Nat) : Nat := tget (fun _ => 0) s.int.srot l

/-- The pending sources in the order in which the controller visits them (R351): offered ones first, then by level descending, then by
number ascending from srot of the level. -/
def State.visitOrder (s : State) : List Nat :=
  let pend := s.pendingSources
  [true, false].flatMap (fun off =>
    (List.range 15).flatMap (fun j =>
      let l := 15 - j
      let here := pend.filter (fun i => s.srcLevel i == l && (s.offeredTo i).isSome == off)
      here.filter (fun i => decide (s.srot l ≤ i)) ++ here.filter (fun i => decide (i < s.srot l))))

/-- The core with the lowest RUNPRI, ties going to the first at or after crot (R351). -/
def State.pickCore (s : State) (cores : List Nat) : Nat :=
  let low := minD 0 (cores.map s.runPri)
  let best := cores.filter (fun k => s.runPri k == low)
  match best.find? (fun k => decide (s.int.crot ≤ k)) with
  | some k => k
  | none => best.headD 0

/-- The candidates chosen so far, core by core, after source `i` is visited (R351). -/
def State.visit (s : State) (cand : List (Option Nat)) (i : Nat) : List (Option Nat) :=
  let cores := (List.range 8).filter (fun k =>
    s.eligible i k && (match cand.getD k none with | none => true | some j => decide (s.srcLevel j < s.srcLevel i)))
  match cores with
  | [] => cand
  | _ =>
    match s.offeredTo i with
    | some k => if k ∈ cores then cand.set k (some i) else cand.set (s.pickCore cores) (some i)
    | none => cand.set (s.pickCore cores) (some i)

/-- The candidate of each core (R351). -/
def State.candidates (s : State) : List (Option Nat) :=
  s.visitOrder.foldl s.visit [none, none, none, none, none, none, none, none]

/-- Whether the offer up at core `k` stands no longer: its source is not pending or not eligible for the core (R353). -/
def State.withdrawn (s : State) (k : Nat) : Bool :=
  match s.offerOf k with
  | some o => !(s.on (F.INTSRC_SRC_PEND o.src) && s.eligible o.src k)
  | none => false

/-- INTERRUPT_OFFER (R351, R353, R354): the controller evaluates and drives the offers it chooses; an offer whose source has become
ineligible and has not been acknowledged is withdrawn and counted. -/
def State.intEvaluate (s : State) : State :=
  if !s.unitOn domInt then s
  else
    let cand := s.candidates
    (List.range 8).foldl (fun t k =>
      let t := if s.withdrawn k then t.inc (F.INTK_WDRCNT_WDRCNT k) else t
      t.setOffer k ((cand.getD k none).map (fun i => ⟨i, s.srcLevel i, BitVec.ofNat 32 (s.get (F.INTSRC_SRC_VEC i))⟩))) s

/-- IV_ACK (R352, R353): the source shown is acknowledged. -/
def State.ivAck (s : State) (k : Nat) : State :=
  if !s.unitOn domInt then s
  else
    match s.offerOf k with
    | none => s.err intPage
    | some o =>
      let s := s.put (F.INTSRC_SRC_PEND o.src) 0
      let s := s.put (F.INTK_STATUS_ACTIVE k) (s.get (F.INTK_STATUS_ACTIVE k) ||| 2 ^ o.lvl)
      let s := (s.inc (F.INTK_ACKCNT_ACKCNT k)).setOffer k none
      { s with int := { s.int with srot := tset (fun _ => 0) o.lvl ((o.src + 1) % 2048) s.int.srot, crot := (k + 1) % 8 } }

/-- IV_EOI (R352, R355): the highest level leaves ACTIVE. -/
def State.ivEoi (s : State) (k : Nat) : State :=
  if !s.unitOn domInt then s
  else if s.runPri k = 0 then s.err intPage
  else s.put (F.INTK_STATUS_ACTIVE k) (s.get (F.INTK_STATUS_ACTIVE k) - 2 ^ s.runPri k)

/-- INT[k].STATUS as it reads (R356). -/
def State.intkStatus (s : State) (k : Nat) : Word :=
  let o := s.offerOf k
  BitVec.ofNat 64 (s.runPri k + b2n o.isSome * 2 ^ 4 + s.get (F.INTK_STATUS_ACTIVE k) * 2 ^ 16 +
    (match o with | some o => o.src | none => 0) * 2 ^ 32)

/-- A source entry as it reads (R356). -/
def State.intSrcEntry (s : State) (i : Nat) : Word := setFld (s.reg (R.INTSRC_SRC i)) 49 1 (b2n (s.offeredTo i).isSome)

/-! The rows. -/

/-- RAISE (R350): a host write of INT.RAISE. -/
def execRaise (source : BitVec 11) (s : State) : Res := .next (s.hostWrite domInt R.INT_RAISE (fun s => s.raise source.toNat))

def execInterruptOffer (s : State) : Res := .next s.intEvaluate

def execIvAck (k : Fin 8) (s : State) : Res := .next (s.ivAck k)

def execIvEoi (k : Fin 8) (s : State) : Res := .next (s.ivEoi k)

/-- CLRACT (R356): a core's ACTIVE set is emptied. -/
def execClract (k : Fin 8) (s : State) : Res :=
  .next (s.hostWrite domInt (R.INTK_CLRACT k) (fun s => s.put (F.INTK_STATUS_ACTIVE k) 0))

end Sys2Proof.Machine
end

