-- ==== Sys2Proof/Machine/Colophon.lean ====
section
/-! DEFINITION. The colophon (R386-R399, R418) and the commands of the press's page (R400, R401). An occurrence's way to the
intake is `State.occur` (`Machine/Ops.lean`); the latching of a press is in `Machine/Press.lean`. -/

namespace Sys2Proof.Machine

/-- The COL page, and the SOURCE of the colophon's own records (R387). -/
def colPage : Nat := 3

/-- COL.SEQ (R388). -/
def State.colSeq (s : State) : Nat := s.get F.COL_SEQ_SEQ

/-- How far sequence number `a` lies before `b`, modulo 2^48 (R388). -/
def seqGap (a b : Nat) : Nat := (b + 2 ^ 48 - a) % 2 ^ 48

/-- Records in the ring that the flush port has not transferred (R391, R398). -/
def State.unflushed (s : State) : Nat := Nat.min (seqGap (s.get F.COL_FLSEQ_FLSEQ) s.colSeq) s.col.live

/-! Writing a record. -/

/-- Whether a record is one of the colophon's and the press's, which carry their full sequence number (R388, R391). -/
def Occ.full (o : Occ) : Bool := !o.sw && decide (1 ≤ o.code ∧ o.code ≤ 8)

/-- A record's 256 bits, word 0 lowest (R387). -/
def recordBits (n : Nat) (pf : Bool) (o : Occ) : BitVec 256 :=
  let w0 := n % 2 ^ 32 + o.code % 2 ^ 10 * 2 ^ 32 + o.source % 2 ^ 11 * 2 ^ 42 + o.supp % 2 ^ 8 * 2 ^ 53 + b2n o.sw * 2 ^ 61 +
    b2n pf * 2 ^ 62 + b2n o.sat * 2 ^ 63
  let a2 := if o.full then n else o.a2.toNat
  BitVec.ofNat 256 (w0 + o.a0.toNat * 2 ^ 64 + o.a1.toNat * 2 ^ 128 + a2 * 2 ^ 192)

/-- The record in the slot of a sequence number (R386). -/
def State.ringAt (s : State) (n : Nat) : BitVec 256 := tget (fun _ => (0 : BitVec 256)) s.col.ring (n % 4096)

/-- A flush starts (R395); none before the base. -/
def State.flushStart (s : State) : State := if s.on F.COL_STATUS_BASED then s.put F.COL_STATUS_FLBUSY 1 else s

/-- The triggers of a flush after a record was written (R395); none takes effect before the base. -/
def State.flushTrigger (s : State) (o : Occ) : State :=
  let wm := s.get F.COL_FLWM_FLWM
  let s := if s.on F.COL_STATUS_BASED = true ∧ wm ≠ 0 ∧ wm ≤ seqGap (s.get F.COL_PUSHSEQ_PUSHSEQ) s.colSeq ∧ s.on F.COL_STATUS_FLBUSY = false then
      s.flushStart.postIf (s.on F.COL_EVEN_ONWM) (s.get F.COL_EVEN_EV)
    else s
  if isFaultCode o.code o.sw ∧ (s.get F.COL_FLCLS_FLCLS).testBit (o.code - 0x011) = true then s.flushStart else s

/-- UNPUSHED_OVERWRITE (R396): the slot about to be written holds a record not yet pushed. -/
def State.overwrite (s : State) : State :=
  let p := s.get F.COL_PUSHSEQ_PUSHSEQ
  if seqGap p s.colSeq = 4096 then ((s.put F.COL_PUSHSEQ_PUSHSEQ (p + 1)).inc F.COL_OVWR_OVWRCNT).put F.COL_STATUS_OVWRSEEN 1 else s

/-- A record takes the next sequence number and its slot (R386-R388). The record of code 0x005 carries PF and starts the
power-fail flush of what lies up to it (R397). -/
def State.ringPut (s : State) (o : Occ) : State :=
  let n := s.colSeq
  let fail := o.own && o.code == 5
  let s := s.overwrite
  let s := { s with col := { s.col with
    pf := s.col.pf || fail
    pfEnd := if fail then some n else s.col.pfEnd } }
  let s := { s with col := { s.col with
    ring := tset (fun _ => (0 : BitVec 256)) (n % 4096) (recordBits n s.col.pf o) s.col.ring
    live := Nat.min (s.col.live + 1) 4096 } }
  (s.put F.COL_SEQ_SEQ (n + 1)).flushTrigger o

/-- One of the colophon's own records that the rate limit never meets (R391, R392). -/
def ownRecord (code : Nat) (a0 a1 : Word) : Occ := ⟨code, sourceOfPage colPage, false, a0, a1, 0, 0, false⟩

/-- A record is written, after one of code 0x001 where SEQ[31:0] would be 0 (R388). -/
def State.recordPut (s : State) (o : Occ) : State :=
  let s := if s.colSeq % 2 ^ 32 = 0 ∧ o.full = false then s.ringPut (ownRecord 0x001 0 0) else s
  s.ringPut o

/-- FROZEN is set when a freeze finds the intake empty (R393). -/
def State.freezeSettle (s : State) : State :=
  if s.col.freezing && s.col.intake.isEmpty then s.put F.COL_STATUS_FROZEN 1 else s

/-- RECORD_WRITE (R389): the oldest entry of the intake is written. Nothing is written before the base (R399). -/
def State.recordWrite (s : State) : State :=
  if !s.pwr.running || !s.on F.COL_STATUS_BASED then s
  else
    match s.col.intake with
    | [] => s
    | o :: rest => (({ s with col := { s.col with intake := rest } }).recordPut o).freezeSettle

/-! Rate limits (R392). -/

/-- A token for a code, up to its DEPTH. -/
def State.refill (s : State) (code : Nat) : State :=
  if s.tokens code < s.get (rateRF code 0 8) then s.setTokens code (s.tokens code + 1) else s

/-- SCLK_REFILL: 2^N SCLK periods have passed for a code of BASIS 2. -/
def State.sclkRefill (s : State) (code : Nat) : State := if s.get (rateRF code 12 2) = 2 then s.refill code else s

/-- FRAME_REFILL: a frame starts; a code of BASIS 1 gains a token every 2^N frames. Only RATE registers that differ from their reset
value can hold a code of BASIS 1. -/
def State.frameRefill (s : State) : State :=
  let f := s.col.frames + 1
  let s := { s with col := { s.col with frames := f } }
  let regs := s.regs.filter (fun e => decide (R.COL_RATE 0 ≤ e.1 ∧ e.1 ≤ R.COL_RATE 255))
  regs.foldl (fun s e =>
    (List.range 4).foldl (fun s k =>
      if fld e.2 (16 * k + 12) 2 = 1 ∧ f % 2 ^ fld e.2 (16 * k + 8) 4 = 0 then s.refill (4 * ((e.1 - R.COL_RATE 0) / 8) + k) else s) s) s

/-- A RATE entry as a write of `v` leaves it: a reserved BASIS keeps its old value (R392, R411). -/
def rateTake (old v : Nat) : Nat := nfld v 0 12 + (if nfld v 12 2 = 3 then nfld old 12 2 else nfld v 12 2) * 2 ^ 12

/-- A write of a RATE register (R392, R404, R415): an entry that changes fills its bucket. -/
def State.rateWrite (s : State) (j : Nat) (v : Word) : State :=
  let old := fun (s : State) k => s.get (rateRF (4 * j + k) 0 16)
  let new := fun (s : State) k => rateTake (old s k) (fld v (16 * k) 16)
  if s.on F.COL_LOCK_CFG && (List.range 4).any (fun k => new s k != old s k) then s.rej colPage
  else
    let bad := (List.range 4).any (fun k => fld v (16 * k + 12) 2 == 3)
    let s := (List.range 4).foldl (fun s k =>
      let n := new s k
      if n = old s k then s else (s.put (rateRF (4 * j + k) 0 16) n).setTokens (4 * j + k) (n % 256)) s
    if bad then s.rej colPage else s

/-! Freezing (R393). -/

/-- FREEZE. -/
def State.colFreeze (s : State) : State :=
  if s.col.freezing then s
  else
    let s := (((s.put F.COL_CTRL_FREEZE 1).put F.COL_FRZ_FRZCNT 0).put F.COL_FRZ_FRZFLT 0)
    ({ s with col := { s.col with freezing := true, frzLow := 0, frzHigh := 0 } }).freezeSettle

/-- THAW: the freeze ends, and its record enters the intake. -/
def State.colThaw (s : State) : State :=
  if !s.col.freezing then s
  else
    let a0 := BitVec.ofNat 64 (s.get F.COL_FRZ_FRZCNT + s.get F.COL_FRZ_FRZFLT * 2 ^ 32)
    let a1 := BitVec.ofNat 64 (s.col.frzLow + s.col.frzHigh * 2 ^ 16)
    let s := (s.put F.COL_CTRL_FREEZE 0).put F.COL_STATUS_FROZEN 0
    { s with col := { s.col with freezing := false, intake := s.col.intake ++ [ownRecord 0x004 a0 a1] } }

/-- A write of COL.CTRL. -/
def State.colCtrlWrite (s : State) (v : Word) : State :=
  let s := if bit v 0 then s.colFreeze else s.colThaw
  if bit v 1 then s.flushStart else s

/-! Reading (R394). -/

/-- Whether record `n` stands in the ring. -/
def State.recordValid (s : State) (n : Nat) : Bool := decide (1 ≤ seqGap n s.colSeq ∧ seqGap n s.colSeq ≤ s.col.live)

/-- RDSEQ_WRITE. -/
def State.rdseqWrite (s : State) (n : Nat) : State :=
  let ok := s.recordValid n
  let r := if ok then s.ringAt n else 0
  let s := (s.put F.COL_RDSEQ_RDSEQ n).setReg R.COL_RDSTAT (if ok then 1 else 2)
  (List.range 4).foldl (fun s i => s.setReg (R.COL_RDREC i) (r.extractLsb' (64 * i) 64)) s

/-! Flushing (R395-R397). -/

/-- A push that the queue refused ends the flush (R395). -/
def State.flushRefused (s : State) (cause : Nat) : State :=
  let s := ((s.put F.COL_STATUS_FLBUSY 0).err colPage).inc F.COL_OVWR_FLERR
  let s := s.postIf (s.on F.COL_EVEN_ONFLERR) (s.get F.COL_EVEN_EV)
  s.occur 0x007 (sourceOfPage colPage) false (BitVec.ofNat 64 cause) 0 0

/-- One element pushed (R395): of the record begun, or the first of the next record, which then counts as pushed. Whether the push
succeeded. -/
def State.flushElement (s : State) : Bool × State :=
  let go := fun (w : Word) (done : State → State) =>
    match s.portOp 58 4 16348 w with
    | (.ok _ _, s) => (true, done s)
    | (.refused cause, s) => (false, s.flushRefused cause)
    | (_, s) => (false, s)
  match s.col.pushRest with
  | w :: rest => go w (fun s => { s with col := { s.col with pushRest := rest } })
  | [] =>
    let p := s.get F.COL_PUSHSEQ_PUSHSEQ
    let r := s.ringAt p
    go (r.setWidth 64) (fun s =>
      ({ s with col := { s.col with
        pushRest := [r.extractLsb' 64 64, r.extractLsb' 128 64, r.extractLsb' 192 64] } }).put F.COL_PUSHSEQ_PUSHSEQ (p + 1))

/-- Whether a flush has pushed everything. -/
def State.flushDone (s : State) : Bool := s.col.pushRest.isEmpty && s.get F.COL_PUSHSEQ_PUSHSEQ == s.colSeq

/-- Elements are pushed up to the end of a record. -/
def State.flushElements (s : State) : Nat → State
  | 0 => s
  | fuel + 1 =>
    let r := s.flushElement
    if r.1 && !r.2.col.pushRest.isEmpty then r.2.flushElements fuel else r.2

/-- FLUSH_PUSH (R395): a running flush pushes a record, or what the queue had no room for; with nothing left it ends. -/
def State.flushPush (s : State) : State :=
  if !s.pwr.running || !s.on F.COL_STATUS_FLBUSY then s
  else if s.flushDone then s.put F.COL_STATUS_FLBUSY 0
  else
    let s := s.flushElements 4
    if s.flushDone then s.put F.COL_STATUS_FLBUSY 0 else s

/-- The end of a power-fail flush (R346, R397). -/
def State.pfFinish (s : State) : State :=
  let s := ({ s with col := { s.col with pfEnd := none }, pwr := { s.pwr with pfDone := true } }).put F.COL_STATUS_PFFLUSH 0
  if s.unitKept domBnd then (s.put F.BND_STATUS_PFDONE 1).postIf (s.bndEven 35) 0xC63 else s

/-- A record of a power-fail flush is transferred (R397): the oldest one in the ring at or after FLSEQ. -/
def State.pfTransfer (s : State) (last : Nat) : State :=
  let n := if seqGap (s.get F.COL_FLSEQ_FLSEQ) s.colSeq ≤ s.col.live then s.get F.COL_FLSEQ_FLSEQ
    else (s.colSeq + 2 ^ 48 - s.col.live) % 2 ^ 48
  if 4096 ≤ seqGap n last then s.pfFinish
  else
    let s := ({ s with col := { s.col with flOut := some (s.ringAt n, true) } }).put F.COL_FLSEQ_FLSEQ (n + 1)
    if n = last then s.pfFinish else s

/-- The full number of a record whose low half is `low`, written before SEQ (R388). -/
def State.fullSeq (s : State) (low : Nat) : Nat :=
  let k := (s.colSeq + 2 ^ 32 - low % 2 ^ 32) % 2 ^ 32
  (s.colSeq + 2 ^ 48 - (if k = 0 then 2 ^ 32 else k)) % 2 ^ 48

/-- A whole record from queue 16,348 is transferred (R347, R395): FLSEQ advances past it. -/
def State.queueTransfer (s : State) (r : BitVec 256) : State :=
  let n := (s.fullSeq (fld r 0 32) + 1) % 2 ^ 48
  let s := { s with col := { s.col with portPart := [], flOut := some (r, false) } }
  if seqGap n s.colSeq < seqGap (s.get F.COL_FLSEQ_FLSEQ) s.colSeq then s.put F.COL_FLSEQ_FLSEQ n else s

/-- Elements are popped at the flush port up to a whole record. -/
def State.portElements (s : State) : Nat → State
  | 0 => s
  | fuel + 1 =>
    match s.portOp 58 2 16348 0 with
    | (.ok w _, s) =>
      match s.col.portPart ++ [w] with
      | [a, b, c, d] => s.queueTransfer (BitVec.ofNat 256 (a.toNat + b.toNat * 2 ^ 64 + c.toNat * 2 ^ 128 + d.toNat * 2 ^ 192))
      | ws => ({ s with col := { s.col with portPart := ws } }).portElements fuel
    | (_, s) => s

/-- FLUSH_PORT_TRANSFER (R347, R397): with FL_READY high, a record of the power-fail flush, or else one from queue 16,348 until PWRFAIL
is taken. -/
def State.flushTransfer (s : State) : State :=
  if !s.pwr.running then s
  else
    match s.col.pfEnd with
    | some last => s.pfTransfer last
    | none => if s.col.portStop then s else s.portElements 4

/-! PWRFAIL (R346, R397). -/

/-- PWRFAIL_TAKEN: the level has stayed high for 8 FCLK. A freeze ends, and the record of code 0x005 enters the intake (R393, R397). -/
def State.pwrfailTaken (s : State) : State :=
  if !s.pwr.running then s
  else
    let s := { s with pwr := { s.pwr with pwrfail := true, pfLatch := false } }
    let s := if s.unitKept domBnd then
        ((s.put F.BND_STATUS_PFSEEN 1).put F.BND_STATUS_PFACTIVE 1).postIf (s.bndEven 34) 0xC62
      else s
    let r := ownRecord 0x005 (BitVec.ofNat 64 s.unflushed) s.beamPos
    let s := s.colThaw.put F.COL_STATUS_PFFLUSH 1
    { s with col := { s.col with portStop := true, portPart := [], intake := s.col.intake ++ [r] } }

/-- PWRFAIL_FALL: the filtered level falls. -/
def State.pwrfailFall (s : State) : State :=
  if !s.pwr.running then s
  else
    let s := { s with pwr := { s.pwr with pwrfail := false } }
    if s.unitKept domBnd then s.put F.BND_STATUS_PFACTIVE 0 else s

/-! Authorised clearing and the base (R398, R399). -/

/-- AUTH_WRITE: the first one is kept. -/
def State.authWrite (s : State) (v : BitVec 32) : State :=
  if s.on F.COL_STATUS_AUTHSET then s.rej colPage
  else ({ s with col := { s.col with auth := v } }).put F.COL_STATUS_AUTHSET 1

/-- The ring is erased, and the clear's record is the first after it (R398). -/
def State.colClear (s : State) : State :=
  let r := ownRecord 0x003 (BitVec.ofNat 64 s.col.live) (BitVec.ofNat 64 s.unflushed)
  let s := { s with col := { s.col with ring := [], live := 0 } }
  ((s.put F.COL_PUSHSEQ_PUSHSEQ s.colSeq).put F.COL_FLSEQ_FLSEQ s.colSeq).recordPut r

/-- CLEAR_WRITE. -/
def State.clearWrite (s : State) (v : BitVec 32) : State :=
  if s.on F.COL_STATUS_AUTHSET ∧ v = BitVec.ofNat 32 s.colSeq ^^^ s.col.auth then s.colClear
  else
    let s := ((s.rej colPage).inc F.COL_OVWR_AUTHFAIL).put F.COL_STATUS_AUTHFAILSEEN 1
    let s := s.postIf (s.on F.COL_EVEN_ONAUTHFAIL) (s.get F.COL_EVEN_EV)
    s.occur 0x006 (sourceOfPage colPage) false (v.setWidth 64) 0 0

/-- The base is set to `n`, and the record of code 0x002 written (R399); `how` is its ARG0. -/
def State.setBase (s : State) (n how : Nat) : State :=
  let s := ((s.put F.COL_SEQ_SEQ n).put F.COL_PUSHSEQ_PUSHSEQ n).put F.COL_FLSEQ_FLSEQ n
  (s.put F.COL_STATUS_BASED 1).recordPut (ownRecord 0x002 (BitVec.ofNat 64 how) (BitVec.ofNat 64 s.col.baseCount))

/-- SEQBASE_WRITE: accepted once. -/
def State.seqbaseWrite (s : State) (n : Nat) : State :=
  if s.on F.COL_STATUS_BASED then s.rej colPage else (s.put F.COL_SEQBASE_SEQBASE n).setBase n 1

/-- DEFAULT_BASE: the 64th edge of SCLK has come. -/
def State.defaultBase (s : State) : State := if s.on F.COL_STATUS_BASED then s else s.setBase 0 0

/-! The rows. -/

def execRecordWrite (s : State) : Res := .next s.recordWrite

def execSclkRefill (code : BitVec 10) (s : State) : Res := .next (s.sclkRefill code.toNat)

def execFreeze (s : State) : Res := .next (s.hostWrite 0 R.COL_CTRL State.colFreeze)

def execThaw (s : State) : Res := .next (s.hostWrite 0 R.COL_CTRL State.colThaw)

def execRdseqWrite (value : BitVec 48) (s : State) : Res := .next (s.hostPair 0 R.COL_RDSEQ (fun s => s.rdseqWrite value.toNat))

def execColFlush (s : State) : Res := .next (s.hostWrite 0 R.COL_CTRL State.flushStart)

def execFlushPush (s : State) : Res := .next s.flushPush

def execFlushPortTransfer (s : State) : Res := .next s.flushTransfer

def execAuthWrite (value : BitVec 32) (s : State) : Res := .next (s.hostWrite 0 R.COL_AUTH (fun s => s.authWrite value))

def execClearWrite (value : BitVec 32) (s : State) : Res := .next (s.hostWrite 0 R.COL_CLEAR (fun s => s.clearWrite value))

def execSeqbaseWrite (value : BitVec 48) (s : State) : Res := .next (s.hostPair 0 R.COL_SEQBASE (fun s => s.seqbaseWrite value.toNat))

def execDefaultBase (s : State) : Res := .next s.defaultBase

def execPwrfailTaken (s : State) : Res := .next s.pwrfailTaken

/-- PWRFAIL_GLITCH (R346): a pulse shorter than 8 FCLK is counted. -/
def execPwrfailGlitch (s : State) : Res := .next (if s.unitOn domBnd then s.err bndPage else s)

def execPwrfailFall (s : State) : Res := .next s.pwrfailFall

/-- PRESS_TRIG (R400): the host's trigger is of kind 0 and presses 2 FCLK after its commit. -/
def execPressTrig (s : State) : Res := .next (s.hostWrite 0 R.PRS_CTRL (fun s => s.pressTrigger 0 2))

/-- PRESS_ARM (R401). -/
def execPressArm (s : State) : Res := .next (s.hostWrite 0 R.PRS_CTRL (fun s => s.put F.PRS_STATUS_ARMED 1))

end Sys2Proof.Machine
end

