-- ==== Sys2Proof/Machine/Power.lean ====
section
/-! DEFINITION. Power, clocks and start-up (chapter 13): the FCLK change, domains and their wakes, the wake scheduler, stopping FCLK,
reset and start-up, the mode, the watchdog. -/

namespace Sys2Proof.Machine

/-- The PWR and BLK pages, and the SOURCE of the power controller's records (R387). -/
def pwrPage : Nat := 1
def blkPage : Nat := 0
def pwrSource : Nat := sourceOfPage pwrPage

/-! Domains and pages (R384, R385). -/

/-- The domain of a register page (R384), none for an unlisted page; a descriptor-window page belongs to no single domain. -/
def domOfPage (p : Nat) : Option Nat :=
  if p ≤ 3 then some 0
  else if p ≤ 0xC then some domInt
  else if 0x10 ≤ p ∧ p ≤ 0x17 then some domInt
  else if 0x20 ≤ p ∧ p ≤ 0x3F then some (domQuire (p - 0x20))
  else if 0x40 ≤ p ∧ p ≤ 0x5F then some (domQuire (p - 0x40))
  else if p = 0x60 then some (domSlice 0)
  else if 0x61 ≤ p ∧ p ≤ 0x70 then some (domSlice (p - 0x61))
  else if 0xC0 ≤ p ∧ p ≤ 0xFF then some (domDma (p - 0xC0))
  else if 0x100 ≤ p ∧ p ≤ 0x17F then some (domBank (p - 0x100))
  else if 0x180 ≤ p ∧ p ≤ 0x190 then some domTimer
  else if 0x1A0 ≤ p ∧ p ≤ 0x1BF then some (domPio (p - 0x1A0))
  else if 0x1C0 ≤ p ∧ p ≤ 0x1C3 then some (domPio (8 * (p - 0x1C0)))
  else if 0x1D0 ≤ p ∧ p ≤ 0x1D3 then some 0
  else if 0x1E0 ≤ p ∧ p ≤ 0x1E3 then some (domStitch (p - 0x1E0))
  else if p = 0x1E4 then some domTimer
  else if p = 0x1F0 then some domBnd
  else if 0x400 ≤ p ∧ p ≤ 0x7FF then some (domQuire (quireOf (p - 0x400)))
  else none

/-- Whether a page lies in the descriptor window (R194). -/
def isQdPage (p : Nat) : Bool := decide (0x80 ≤ p ∧ p ≤ 0xBF)

/-- The queue whose descriptor lies at a window offset (R194). -/
def queueAt (key : Nat) : Nat := (key / 4096 - 0x80) * 256 + key % 4096 / 16

/-- The domain that serves the register at a window offset (R384). -/
def domOfKey (key : Nat) : Option Nat :=
  if isQdPage (key / 4096) then some (domSlice (queueAt key % 16)) else domOfPage (key / 4096)

/-- Whether a page is listed (R407, R408). -/
def pageListed (p : Nat) : Bool := isQdPage p || (domOfPage p).isSome

/-! Typed state of the domains. -/

/-- A domain's transition. -/
def State.move (s : State) (d : Nat) : Option Move := tget (fun _ => none) s.pwr.moves d

/-- The state with a domain's transition replaced. -/
def State.setMove (s : State) (d : Nat) (m : Option Move) : State :=
  { s with pwr := { s.pwr with moves := tset (fun _ => none) d m s.pwr.moves } }

/-- The state with a domain's state replaced. -/
def State.setDom (s : State) (d t : Nat) : State := { s with pwr := { s.pwr with cur := tset (fun _ => 0) d t s.pwr.cur } }

/-- Whether a keep-awake applies to a domain (R370). -/
def State.isKept (s : State) (d : Nat) : Bool := tget (fun _ => false) s.pwr.kept d

/-- The state with a domain's keep-awake set or ended. -/
def State.setKept (s : State) (d : Nat) (b : Bool) : State :=
  { s with pwr := { s.pwr with kept := tset (fun _ => false) d b s.pwr.kept } }

/-- A field of a domain's byte (R364, R385). -/
def domRF (d lo width : Nat) : RF := ⟨R.PWR_DOM (d / 8), 8 * (d % 8) + lo, width⟩

/-- REQ, AUTO and LOWRET of a domain. -/
def State.domReq (s : State) (d : Nat) : Nat := s.get (domRF d 0 2)
def State.domAuto (s : State) (d : Nat) : Bool := s.on (domRF d 2 1)
def State.domLowret (s : State) (d : Nat) : Bool := s.on (domRF d 3 1)

/-! Idle conditions (R364). -/

/-- A quire's: no context READY, in RUN or in STALL; no word, divide or decode in flight; no load or reload. -/
def State.quireIdle (s : State) (q : Nat) : Bool :=
  (List.range 32).all (fun i =>
    let x := s.cx (32 * q + i)
    x.st != .ready && x.st != .run && x.st != .stall && x.inflight.isNone && x.div.isNone) &&
  (s.qu q).dq.isEmpty && (s.qu q).load.isNone && (s.qu q).reload.isNone

/-- The bank that holds the next access of a channel's burst, if one does. -/
def State.dmaHeldAt (s : State) (n : Nat) : Option Nat :=
  match (s.dm n).burst with
  | none => none
  | some b =>
    let c := s.dcfg n
    let a := if b.got.length < b.len then c.srcAt b.len b.got.length else c.dstAt b.len b.put
    if b.tag.isNone && endPt a == .bank then some (a.toNat / 262144) else none

/-- A bank's: no access in progress or held, no march, no write-back. Contexts, slices, DMA channels and the bank window may have
accesses there. -/
def State.bankIdle (s : State) (n : Nat) : Bool :=
  let b := s.bk n
  b.wsteps.isEmpty && b.wb.isEmpty && b.march.isNone &&
  s.ctx.all (fun e => e.2.ops.all (fun o => !(o.phase == .requested && bankOf o.addr.toNat == n))) &&
  s.qsl.all (fun e => e.2.accesses.all (fun a => s.elemWord a.req.queue a.index / 32768 != n)) &&
  s.dma.all (fun e => s.dmaHeldAt e.1 != some n) &&
  s.bw.all (fun a => a.answer.isSome || a.addr / 65536 != n)

/-- Whether a domain is idle (R364). The keeper never is. -/
def State.domIdle (s : State) (d : Nat) : Bool :=
  if d = 0 then false
  else if d ≤ 32 then s.quireIdle (d - 1)
  else if d ≤ 160 then s.bankIdle (d - 33)
  else if d ≤ 164 then (List.range 8).all (fun i => !s.on (F.PIO_CTRL_EN (8 * (d - 161) + i)))
  else if d ≤ 172 then (List.range 8).all (fun i => s.dmaState (8 * (d - 165) + i) == 0)
  else if d ≤ 176 then !s.on (F.STI_CTRL_EN (d - 173))
  else if d ≤ 192 then (s.sl (d - 177)).reqs.isEmpty && (s.sl (d - 177)).granted.isEmpty && (s.sl (d - 177)).accesses.isEmpty
  else if d = domTimer then !s.beamRun && (List.range 256).all (fun t => !s.tmEn t)
  else if d = domInt then s.pendingSources.isEmpty && (List.range 8).all (fun k => s.runPri k == 0)
  else s.get F.BND_CTRL_LPEN == 0 && s.get F.BND_CTRL_SNDEN == 0 && !s.on F.BND_CTRL_BLTEN && s.hm.out.isEmpty

/-- Whether OFF is allowed for a domain now (R364). Only descriptors that differ from reset can have EN set. -/
def State.offAllowed (s : State) (d : Nat) : Bool :=
  if d = 0 then false
  else if d ≤ 32 then (List.range 32).all (fun i => (s.cx (32 * (d - 1) + i)).st == .idle)
  else if d ≤ 160 then s.get (F.BNK_OWN_OWNER (d - 33)) == 0x3F && (s.bk (d - 33)).march.isNone
  else if 177 ≤ d ∧ d ≤ 192 then
    s.regs.all (fun e => !(isQdPage (e.1 / 4096) && queueAt e.1 % 16 == d - 177 && e.1 % 16 == 0 && bit e.2 63))
  else if d = domInt then !s.on F.INT_CTRL_EN
  else s.domIdle d

/-! Transitions (R363-R366). -/

/-- A raise of a lowered domain to `t` (0 ON, 1 DOZE): an exit begins, follows the entry in progress, or merges with the exit
in progress, ON winning over DOZE (R366, R369). -/
def State.raiseTo (s : State) (d t : Nat) : State :=
  match s.move d with
  | some (.exiting u) => s.setMove d (some (.exiting (Nat.min t u)))
  | some (.lowering none) => s.setMove d (some (.lowering (some t)))
  | some (.lowering (some u)) => s.setMove d (some (.lowering (some (Nat.min t u))))
  | none => if t < s.domState d then s.setMove d (some (.exiting t)) else s

/-- Whether a key is a LOCK register's, at offset 0x030 of a page that belongs to one domain; a LOCK is cleared by RST_N and KRST_N
only (R415). -/
def isLockKey (k : Nat) : Bool := k % 4096 == 0x030 && !isQdPage (k / 4096)

/-- The registers but LOCK, and the snapshots of a domain at their reset values (R363, R415). -/
def State.clearPages (s : State) (d : Nat) : State :=
  { s with
    regs := tclear (fun k => domOfKey k == some d && !isLockKey k) s.regs
    held := tclear (fun k => domOfKey k == some d) s.held
    snap := tclear (fun k => domOfPage (k / 512) == some d) s.snap }

/-- The typed state of a domain's unit at its reset value (R363): RAM microwords and bank words are zero, descriptors reset. -/
def State.clearUnit (s : State) (d : Nat) : State :=
  if d = 0 then s
  else if d ≤ 32 then
    { s with
      ctx := tclear (fun c => quireOf c == d - 1) s.ctx
      qui := tclear (· == d - 1) s.qui
      cst := tclear (fun k => k / 16384 == d - 1) s.cst
      disp := tclear (fun k => k / 512 == d - 1) s.disp }
  else if d ≤ 160 then
    { s with
      mem := tclear (fun a => a / 262144 == d - 33) s.mem
      chk := tclear (fun w => w / 32768 == d - 33) s.chk
      bnk := tclear (· == d - 33) s.bnk }
  else if d ≤ 164 then { s with pio := tclear (fun e => e / 8 == d - 161) s.pio }
  else if d ≤ 172 then
    { s with
      dma := tclear (fun n => n / 8 == d - 165) s.dma
      dmaTurn := tclear (· == d - 165) s.dmaTurn }
  else if d ≤ 176 then { s with sti := tclear (· == d - 173) s.sti }
  else if d ≤ 192 then
    { s with
      qsl := tclear (· == d - 177) s.qsl
      qdErr := tclear (fun k => k / 2 % 16 == d - 177) s.qdErr
      qdHigh := tclear (fun k => k / 2 % 16 == d - 177) s.qdHigh }
  else if d = domTimer then
    { s with beam := Beam.reset, tmr := [], cvtrig := [], rho := { Rho.reset with time := s.rho.time } }
  else if d = domInt then { s with int := IntCtl.reset }
  else { s with lp := [], snd := [], blit := Blit.reset, hm := HostMaster.reset }

/-- Whether a pin is driven by a unit of domain `d` (R282, R289). -/
def State.pinOfDomain (s : State) (n d : Nat) : Bool :=
  match s.pinFsel n with
  | 2 => d == domTimer
  | 3 => if s.pinSub n < 4 then d == domStitch (s.pinSub n) else d == domTimer
  | 5 => d == domTimer
  | _ => false

/-- Outputs whose function's domain leaves ON hold their last value; they follow it again in ON (R289). -/
def State.pinsHold (s : State) (d : Nat) (hold : Bool) : State :=
  (List.range 128).foldl (fun s n =>
    if s.pinOfDomain n d then s.setPn n { s.pn n with hold := if hold then s.pinDrive n else none } else s) s

/-- DOMAIN_LOWER (R364): an idle domain that nothing keeps awake lowers to REQ, or under AUTO to the state LOWRET names. -/
def State.domLower (s : State) (d : Nat) : State :=
  let req := s.domReq d
  let target := if req ≠ 0 then req else if s.domAuto d then (if s.domLowret d then 2 else 1) else 0
  if !s.pwr.running || (s.move d).isSome || s.isKept d || !s.domIdle d || decide (target ≤ s.domState d) ||
      (target == 3 && !s.offAllowed d) then s
  else
    let s := (if s.domState d = 0 then s.pinsHold d true else s).setDom d target
    if target = 3 then s else s.setMove d (some (.lowering none))

/-- DOMAIN_ENTRY_COMPLETE (R363, R366): a waiting exit follows at once. -/
def State.domEntered (s : State) (d : Nat) : State :=
  match s.move d with
  | some (.lowering none) => s.setMove d none
  | some (.lowering (some t)) => if t < s.domState d then s.setMove d (some (.exiting t)) else s.setMove d none
  | _ => s

/-- A domain reaches the state its exit goes to (R363): from OFF with its reset values. -/
def State.domReach (s : State) (d t : Nat) : State :=
  let s := if s.domState d = 3 then (s.clearPages d).clearUnit d else s
  let s := (s.setDom d t).setMove d none
  if t = 0 then s.pinsHold d false else s

/-- A late wake (R365). -/
def State.lateWake (s : State) (d : Nat) : State :=
  let s := (s.inc F.PWR_LW_LWCNT).put F.PWR_LW_LWLAST d
  let s := (s.put (domRF d 7 1) 1).put F.PWR_STATUS_LATESEEN 1
  let s := s.postIf (s.on F.PWR_EVEN_ONLATE) (s.get F.PWR_EVEN_EV)
  let r := s.free
  r.2.occur 0x080 pwrSource false (BitVec.ofNat 64 d) r.1 (BitVec.ofNat 64 s.beam.line)

/-- Whether a demand of a kind can reach a domain (R365). -/
def demandFits (d : Nat) : DemandKind → Bool
  | .contextEvent | .contextCommand => decide (1 ≤ d ∧ d ≤ 32)
  | .bankAccess => decide (33 ≤ d ∧ d ≤ 160)
  | .sliceRequest => decide (177 ≤ d ∧ d ≤ 192)
  | .dmaPacing | .dmaStart => decide (165 ≤ d ∧ d ≤ 172)
  | .hostBurst => d == domBnd
  | .interruptRaise => d == domInt
  | .wakeSideband => decide (173 ≤ d ∧ d ≤ 176)

/-- Whether some context of a quire's domain has what ends its wait (R107, R365). -/
def State.quireDue (s : State) (d : Nat) : Bool := (List.range 32).any (fun i => (s.cx (32 * (d - 1) + i)).wantsWake)

/-- A demand meets its domain (R365, R366): ON serves it, OFF ignores it, DOZE and RET exit to ON, RET as a late wake. An event wakes a
quire when it ends a context's wait. -/
def State.demand (s : State) (d : Nat) (kind : DemandKind) : State :=
  if !s.pwr.running || !demandFits d kind || (kind == .wakeSideband && s.domReq d != 0) ||
      (kind == .contextEvent && !s.quireDue d) then s
  else
    match s.move d, s.domState d with
    | some (.exiting _), _ => s.raiseTo d 0
    | _, 1 => s.raiseTo d 0
    | _, 2 => (s.lateWake d).raiseTo d 0
    | _, _ => s

/-! DOM writes (R364). -/

/-- The REQ that a write of a domain's byte leaves, and whether the write's own was forbidden (R364). -/
def State.domTake (s : State) (d req : Nat) : Nat × Bool :=
  if (d == 0 && req != 0) || (req == 3 && !s.offAllowed d) then (s.domReq d, true) else (req, false)

/-- A write of one domain's byte (R364): a REQ that the table forbids stays; the request then raises a domain it finds lower. Whether
the write was rejected. -/
def State.domByte (s : State) (d req : Nat) (auto lowret : Bool) : Bool × State :=
  let bad := (s.domTake d req).2
  let old := s.domReq d
  let req := (s.domTake d req).1
  let s := ((s.put (domRF d 0 2) req).put (domRF d 2 1) (b2n auto)).put (domRF d 3 1) (b2n lowret)
  let s :=
    if d = 0 then s
    else if req = 0 then (if old ≠ 0 ∨ auto = false then s.raiseTo d 0 else s)
    else if req < s.domState d then s.raiseTo d (if s.domState d = 3 then 0 else req)
    else s
  (bad, s)

/-- Whether a write of a domain's byte would change it (R415). -/
def State.domChanges (s : State) (d req : Nat) (auto lowret : Bool) : Bool :=
  s.domReq d != (s.domTake d req).1 || s.domAuto d != auto || s.domLowret d != lowret

/-- DOMAIN_REQUEST_WRITE (R364). -/
def State.domWrite (s : State) (d req : Nat) (auto lowret : Bool) : State :=
  if s.on F.PWR_LOCK_DOM && s.domChanges d req auto lowret then s.rej pwrPage
  else
    let r := s.domByte d req auto lowret
    if r.1 then r.2.rej pwrPage else r.2

/-! The wake scheduler (R367-R370). -/

/-- A wake request reaches a domain (R368-R370): one that is lowered is raised; with one that is being raised already it merges. -/
def State.wakeDomain (s : State) (d target : Nat) (keep : Bool) : State :=
  let waking := match s.move d with
    | some (.exiting _) => true
    | some (.lowering (some _)) => true
    | _ => false
  if d = 0 ∨ s.domState d = 3 ∨ (waking = false ∧ s.domState d ≤ target) then s
  else
    let s := s.raiseTo d target
    if keep then s.setKept d true else s

/-- An entry fires (R367-R369); while FCLK is stopped it restarts it (R371). -/
def State.wakeFire (s : State) (i : Nat) : State :=
  let e := s.reg (R.PWR_WAKE i)
  let s := if bit e 4 then s.put (F.PWR_WAKE_KIND i) 0 else s
  let s := if s.pwr.running then s else s.askFclk
  (List.range (fld e 16 8)).foldl (fun s j => s.wakeDomain (fld e 8 8 + j) (if bit e 3 then 1 else 0) (fld e 24 12 != 0)) s

/-- The entries of a kind whose argument satisfies `p` fire (R367). -/
def State.wakeEntries (s : State) (kind : Nat) (p : Word → Bool) : State :=
  (List.range 64).foldl (fun t i =>
    let e := s.reg (R.PWR_WAKE i)
    if fld e 0 3 = kind ∧ p e = true then t.wakeFire i else t) s

/-- The beam has reached its position (R367): entries of KIND 1 and 2. -/
def State.wakeBeam (s : State) : State :=
  let s := s.wakeEntries 1 (fun e => fld e 36 14 == s.beam.line && fld e 50 14 == s.beam.tick)
  s.wakeEntries 2 (fun e => fld e 50 14 == s.beam.tick)

/-- A write of a wake entry (R367). -/
def State.wakeWrite (s : State) (i : Nat) (v : Word) : State :=
  let cur := s.reg (R.PWR_WAKE i)
  let badK := fld v 0 3 == 7
  let kind := if badK then fld cur 0 3 else fld v 0 3
  let badA := kind == 6 && decide (0xC80 ≤ fld v 36 12)
  let first := fld v 8 8
  let count := fld v 16 8
  if (count == 0 && kind != 0) || decide (196 < first + count) then s.rej pwrPage
  else
    let new := setFld (setFld v 5 3 0) 0 3 kind
    let new := if badA then setFld new 36 14 (fld cur 36 14) else new
    let s := s.setReg (R.PWR_WAKE i) new
    if badK || badA then s.rej pwrPage else s

/-! The FCLK change (R358-R361). -/

/-- Whether a multiplier places FCLK within 0.5 to 2.0 GHz (R358). -/
def fmulOk (refMhz m : Nat) : Bool := decide (8000 ≤ refMhz * m ∧ refMhz * m ≤ 32000)

/-- FCLK's period in units of 2^-24 ns, to the nearest (R359). -/
def fclkPeriod (refMhz m : Nat) : Nat := (2 * 16000 * 2 ^ 24 + refMhz * m) / (2 * (refMhz * m))

/-- A pending change is abandoned (R360). -/
def State.fswAbandon (s : State) : State :=
  ({ s with pwr := { s.pwr with idle := none, swSeen := false } }).put F.PWR_STATUS_FSWPEND 0 |>.put F.PWR_STATUS_FLOCKED 0

/-- A write of FSW (R358-R360). GO with a multiplier out of range does not start. -/
def State.fswWrite (s : State) (v : Word) : State :=
  let pend := s.on F.PWR_STATUS_FSWPEND
  let go := bit v 24
  let abort := bit v 25
  if (go && abort) || (go && pend) || (abort && !pend) then s.rej pwrPage
  else
    let cur := s.reg R.PWR_FSW
    let badM := !fmulOk s.fuse.refMhz (fld v 0 10)
    let badE := decide (0xC80 ≤ fld v 10 12)
    let m := if badM then fld cur 0 10 else fld v 0 10
    let ev := if badE then fld cur 10 12 else fld v 10 12
    let s := s.setReg R.PWR_FSW (BitVec.ofNat 64 (m + ev * 2 ^ 10 + fld v 22 2 * 2 ^ 22))
    let s := if abort then s.fswAbandon
      else if go && fmulOk s.fuse.refMhz m then
        (({ s with pwr := { s.pwr with idle := some m, swSeen := false } }).put F.PWR_STATUS_FSWPEND 1).put F.PWR_STATUS_FLOCKED 0
      else s
    if badM || badE then s.rej pwrPage else s

/-- SYNTHESISER_LOCK (R359). -/
def State.synthLock (s : State) : State :=
  if s.pwr.running && s.pwr.idle.isSome then s.put F.PWR_STATUS_FLOCKED 1 else s

/-- FCLK_SWITCH (R359): after lock, and after the switch event unless NOW is set. -/
def State.fclkSwitch (s : State) : State :=
  match s.pwr.idle with
  | some m =>
    if s.pwr.running && s.on F.PWR_STATUS_FLOCKED && (s.on F.PWR_FSW_NOW || s.pwr.swSeen) then
      let s := s.fswAbandon
      let s := { s with pwr := { s.pwr with fmul := m } }
      let s := if s.unitKept domTimer then
          let s := if s.on F.PWR_FSW_BEAMADJ then s.tickdivWrite (s.reg R.PWR_FSWTICK) else s
          s.put F.RHO_STBINC_STBINC (fclkPeriod s.fuse.refMhz m)
        else s
      s.postIf (s.on F.PWR_EVEN_ONFSW) (s.get F.PWR_EVEN_EV)
    else s
  | none => s

/-- The switch event reaches the power controller (R359). -/
def State.fswAssert (s : State) (line : Nat) : State :=
  if s.on F.PWR_STATUS_FLOCKED && s.get F.PWR_FSW_SWEV == line then { s with pwr := { s.pwr with swSeen := true } } else s

/-- A write of FSW with ABORT alone (R360). -/
def State.fswAbort (s : State) : State := if s.on F.PWR_STATUS_FSWPEND then s.fswAbandon else s.rej pwrPage

/-- SCLK_LOST (R361). -/
def State.sclkLost (s : State) : State :=
  if s.pwr.running then (s.put F.PWR_STATUS_SCLKLOST 1).occurFree 0x086 pwrSource else s

/-! Stopping and restarting FCLK (R371, R372). -/

/-- Whether FCLK is to stop: FAUTOSTOP, with every domain but the keeper in RET or OFF (R371). -/
def State.stopDue (s : State) : Bool :=
  s.on F.PWR_CTRL_FAUTOSTOP && (List.range 195).all (fun i => decide (2 ≤ s.domState (i + 1)) && (s.move (i + 1)).isNone)

/-- Whether FCLK may stop (R371): no record is still to be written or flushed. -/
def State.mayStop (s : State) : Bool := s.stopDue && s.unflushed == 0 && s.col.intake.isEmpty

/-- FCLK_STOP: both synthesisers stop; where unflushed records stand in the way, they are flushed first (R371). -/
def State.fclkStop (s : State) : State :=
  if !s.pwr.running || !s.stopDue then s
  else if s.mayStop then
    ({ s with pwr := { s.pwr with running := false, starting := false } }).put F.PWR_STATUS_FLOCKED 0
  else if s.unflushed ≠ 0 then s.flushStart
  else s

/-- FCLK_RESTART: a keeper trigger, PWRFAIL, or a register access. -/
def State.fclkRestart (s : State) : State :=
  if s.pwr.running || s.pwr.krstLow || s.pwr.rstLow || decide (s.fuse.refMhz < 8) then s else s.askFclk

/-- FCLK_RESTART_LOCK: the synthesiser has locked, and FCLK runs. -/
def State.fclkLocked (s : State) : State :=
  if s.pwr.starting && !s.pwr.running && !s.pwr.krstLow && !s.pwr.rstLow && decide (8 ≤ s.fuse.refMhz) then
    { s with pwr := { s.pwr with running := true, starting := false } }
  else s

/-- PWRFAIL_EDGE_LATCH (R372): only while FCLK is stopped. -/
def State.pwrfailLatch (s : State) : State :=
  if s.pwr.running || s.pwr.krstLow || s.pwr.rstLow then s
  else ({ s with pwr := { s.pwr with pfLatch := true, pfDone := true } }).fclkRestart

/-- PWRFAIL_EDGE_GLITCH (R372). -/
def State.pwrfailUnlatch (s : State) : State :=
  if s.pwr.running && s.pwr.pfLatch && !s.pwr.pwrfail then
    ({ s with pwr := { s.pwr with pfLatch := false, pfDone := false } }).err pwrPage
  else s

/-! Reset and start-up (R373-R375, R418). -/

/-- The state at reset, with what lies outside the block as it is: the commands waiting, the fuses, pad levels, TEST_MODE. -/
def State.fresh (s : State) : State :=
  { State.reset with
    pending := s.pending
    fclk := s.fclk
    freeCtr := s.freeCtr
    fuse := s.fuse
    resp := s.resp
    tdr := s.tdr
    pin := (List.range 128).foldl (fun t n => tset (fun _ => Pin.reset) n { Pin.reset with ext := (s.pn n).ext } t) []
    pwr := { Power.reset with testMode := s.pwr.testMode } }

/-- What R418 keeps across RST_N, over a fresh state. -/
def State.keepColophon (t s : State) : State :=
  let t := { t with
    col := { t.col with ring := s.col.ring, live := s.col.live, auth := s.col.auth, sat := s.col.sat } }
  let t := (t.put F.COL_SEQ_SEQ s.colSeq).put F.COL_FLSEQ_FLSEQ (s.get F.COL_FLSEQ_FLSEQ)
  let t := t.put F.COL_STATUS_AUTHSET (s.get F.COL_STATUS_AUTHSET)
  (List.range 128).foldl (fun t j => t.setReg (R.COL_SUPP j) (s.reg (R.COL_SUPP j))) t

/-- RESET_ASSERTED (R373): everything but what R418 keeps is reset, every domain but the keeper is OFF and FCLK stops. -/
def State.resetAsserted (s : State) (cold : Bool) : State :=
  let krst := cold || s.pwr.krstLow
  let t := if krst then s.fresh else s.fresh.keepColophon s
  { t with pwr := { t.pwr with
    running := false
    cur := (List.range 195).map (fun i => (i + 1, 3))
    krstLow := krst
    rstLow := !cold || s.pwr.rstLow
    cold := krst || (s.pwr.cold && s.pwr.rstLow) } }

/-- The start-up march (R374 step 4): every bank has run a destructive march and found nothing. -/
def State.startMarch (s : State) : State :=
  (List.range 128).foldl (fun s n => (s.put (F.BNK_STATUS_MDONE n) 1).put (F.BNK_MSTAT_LASTALG n) 1) s

/-- The IMAGE boot (R375). -/
def State.bootImage (s : State) : State :=
  let s := s.put (F.BNK_OWN_OWNER 0) 0
  let s := (s.setReg (R.DMA_SRC 0 0) (BitVec.ofNat 64 (2 ^ 63 + s.fuse.bootPtr))).setReg (R.DMA_DST 0 0) 0
  let s := (s.put (F.DMA_COUNT_COUNT 0 0) (8 * (s.fuse.blen8 + 1))).put (F.DMA_EVEN_HALTEV 0) 1
  let ctl := 1 + 2 ^ 4 + 6 * 2 ^ 8 + 2 ^ 16 + 0x400 * 2 ^ 18 + 24 * 2 ^ 30 + 15 * 2 ^ 35
  let s := s.ctlWrite 0 0 (BitVec.ofNat 64 ctl)
  (s.put (F.CTX_ENTRY_ENTRY 0) 0x80).ctxStart 0

/-- The colophon at the release of RST_N alone (R399, R418). -/
def State.colResume (s : State) : State :=
  let p := if seqGap (s.get F.COL_FLSEQ_FLSEQ) s.colSeq ≤ 4096 then s.get F.COL_FLSEQ_FLSEQ else (s.colSeq + 2 ^ 48 - 4096) % 2 ^ 48
  ((s.put F.COL_PUSHSEQ_PUSHSEQ p).put F.COL_STATUS_BASED 1).recordPut (ownRecord 0x002 2 0)

/-- The start-up sequence, and the boot that BOOTSEL selects (R374, R375). With REFMHZ below 8 it stays in its first step (R358). -/
def State.startUp (s : State) : State :=
  if s.fuse.refMhz < 8 then s
  else
    let ok := fmulOk s.fuse.refMhz s.fuse.fmul0
    let m := if ok then s.fuse.fmul0 else (8000 + s.fuse.refMhz - 1) / s.fuse.refMhz
    let s := { s with pwr := { s.pwr with running := true, cur := [], fmul := m } }
    let s := s.put F.PWR_STATUS_COLD (b2n s.pwr.cold)
    let s := s.put F.PWR_STATUS_FUSEBAD (b2n (!ok || decide (2 ≤ s.fuse.bootSel)))
    let s := if s.pwr.cold then s else s.colResume
    let s := if s.fuse.marchEn then s.startMarch else s
    let s := if s.pwr.testMode then s.put F.BLK_MODE_MODE 3 else s
    if s.fuse.bootSel = 1 then s.bootImage else s

/-- KRST_N_RELEASE (R374): the sequence starts once both inputs are high. -/
def State.krstRelease (s : State) : State :=
  if s.pwr.krstLow then
    let s := { s with pwr := { s.pwr with krstLow := false } }
    if s.pwr.rstLow then s else s.startUp
  else s

/-- RST_N_RELEASE (R374). -/
def State.rstRelease (s : State) : State :=
  if s.pwr.rstLow then
    let s := { s with pwr := { s.pwr with rstLow := false } }
    if s.pwr.krstLow then s else s.startUp
  else s

/-! The mode and the watchdog (R376, R377). -/

/-- MODE_WRITE. -/
def State.modeWrite (s : State) (m : Nat) : State :=
  let cur := s.get F.BLK_MODE_MODE
  if s.pwr.testMode then s.rej blkPage
  else if m = cur then s
  else if (m = 1 ∧ (cur = 0 ∨ cur = 2)) ∨ (m = 2 ∧ cur = 1) then s.put F.BLK_MODE_MODE m
  else s.rej blkPage

/-- TEST_MODE_CHANGE. -/
def State.testMode (s : State) (level : Bool) : State :=
  if level == s.pwr.testMode then s
  else if level then
    ({ s with pwr := { s.pwr with testMode := true, heldMode := s.get F.BLK_MODE_MODE } }).put F.BLK_MODE_MODE 3
  else ({ s with pwr := { s.pwr with testMode := false } }).put F.BLK_MODE_MODE s.pwr.heldMode

/-- WATCHDOG_FIRE. -/
def State.watchdogFire (s : State) : State :=
  if !s.on F.PWR_WDOG_WDEN || s.pwr.krstLow || s.pwr.rstLow then s
  else
    let s := if s.get F.BLK_MODE_MODE = 1 then s.put F.BLK_MODE_MODE 2 else s
    let s := (s.put F.PWR_STATUS_WDFIRED 1).postIf (s.on F.PWR_EVEN_ONWD) (s.get F.PWR_EVEN_EV)
    s.occurFree 0x082 pwrSource

/-! The rows. -/

def execFswGo (value : BitVec 64) (s : State) : Res := .next (s.hostPair 0 R.PWR_FSW (fun s => s.fswWrite value))

def execSynthesiserLock (s : State) : Res := .next s.synthLock

def execFclkSwitch (s : State) : Res := .next s.fclkSwitch

def execFswAbort (s : State) : Res := .next (s.hostPair 0 R.PWR_FSW State.fswAbort)

def execSclkLost (s : State) : Res := .next s.sclkLost

def execDomainRequestWrite (d : Fin 196) (req : BitVec 2) (auto lowret : Bool) (s : State) : Res :=
  .next (s.hostWrite 0 (R.PWR_DOM (d.val / 8)) (fun s => s.domWrite d.val req.toNat auto lowret))

def execDomainLower (d : Fin 196) (s : State) : Res := .next (s.domLower d.val)

def execDemandWake (d : Fin 196) (kind : DemandKind) (s : State) : Res := .next (s.demand d.val kind)

def execDomainEntryComplete (d : Fin 196) (s : State) : Res := .next (s.domEntered d.val)

/-- KEEP_EXPIRY (R370). -/
def execKeepExpiry (d : Fin 196) (s : State) : Res := .next (s.setKept d.val false)

def execFclkStop (s : State) : Res := .next s.fclkStop

def execFclkRestart (s : State) : Res := .next s.fclkRestart

def execFclkRestartLock (s : State) : Res := .next s.fclkLocked

def execPwrfailEdgeLatch (s : State) : Res := .next s.pwrfailLatch

def execPwrfailEdgeGlitch (s : State) : Res := .next s.pwrfailUnlatch

def execResetAsserted (cold : Bool) (s : State) : Res := .next (s.resetAsserted cold)

def execKrstRelease (s : State) : Res := .next s.krstRelease

def execRstRelease (s : State) : Res := .next s.rstRelease

def execModeWrite (mode : BitVec 2) (s : State) : Res := .next (s.hostWrite 0 R.BLK_MODE (fun s => s.modeWrite mode.toNat))

def execTestModeChange (level : Bool) (s : State) : Res := .next (s.testMode level)

def execWatchdogFire (s : State) : Res := .next s.watchdogFire

end Sys2Proof.Machine
end

