-- ==== Sys2Proof/Machine/Events.lean ====
section
/-! DEFINITION. What one unit's event does to the others: a beam tick, start and stop (R213-R225), an assertion on the spine (R99, R102-R110),
a pin event (R286), a wake sideband (R365, R367), a domain's exit (R363), the global start (R234), and the rows of the timers. -/

namespace Sys2Proof.Machine

/-! The beam. -/

/-- The deadlines at a line start (R224, R338). -/
def State.lineDeadlines (s : State) : State :=
  (List.range 16).foldl (fun s p =>
    let t := s.deadlineLine p
    s.lpDeadline p t.1 t.2) s

/-- What the beam's arrival at its position does (R217, R218, R220-R224, R309, R313, R320, R367, R392). -/
def State.beamArrive (s : State) (start hEnd vEnd : Bool) : State :=
  let z := s.beam.tick == 0
  let f := z && s.beam.line == 0
  let s := if f then s.applyGeom else s
  let s := s.beamEvents start hEnd vEnd
  let s := if f then s.frameRefill else s
  let s := if z then s.lineDeadlines else s
  let s := s.wakeBeam
  let s := if z then s.rhoLine else s
  let s := if f then s.rhoFrame else s
  s.wallFire

/-- BEAM_TICK (R215): the position moves on by a tick. -/
def State.beamTick (s : State) : State :=
  if !s.unitOn domTimer || !s.beamRun then s
  else
    let hEnd := s.hEndsAtTotal
    let vEnd := s.vEndsAtTotal
    let wraps := s.beam.coarse.isNone && decide (s.hTotal ≤ s.beam.tick + 1) && decide (s.vTotal ≤ s.beam.line + 1)
    let r := if wraps then s.nextFrame else (s.beam.frame, s)
    (r.2.beamStep r.1).beamArrive false hEnd vEnd

/-- The beam starts (R218). -/
def State.beamStart (s : State) : State :=
  if s.beamRun then s
  else
    let t := (s.put F.BEAM_CTRL_RUN 1).put F.BEAM_STATUS_RUNNING 1
    let t := { t with beam := { t.beam with tick := 0, line := 0, acc := 0 } }
    (t.beamArrive true false false).helloChanged s

/-- The beam stops (R217, R218). -/
def State.beamStop (s : State) : State :=
  if s.beamRun then (((s.put F.BEAM_CTRL_RUN 0).put F.BEAM_STATUS_RUNNING 0).applyGeom).helloChanged s else s

/-- A write of BEAM.CTRL (R216, R218, R237). -/
def State.beamCtrlWrite (s : State) (v : Word) : State :=
  let s := (s.put F.BEAM_CTRL_REF (fld v 1 1)).put F.BEAM_CTRL_GSGRP (fld v 2 3)
  let s := s.put F.BEAM_CTRL_GSARM (fld v 5 1)
  if bit v 0 then s.beamStart else s.beamStop

/-- GSTART (R234): the armed units of the groups start together. -/
def State.gstart (s : State) (groups : Nat) : State :=
  if !s.unitOn domTimer then s
  else
    let s := (List.range 252).foldl (fun s i =>
      let t := i + 4
      if s.on (F.TMR_CFG_GSARM t) && groups.testBit (s.get (F.TMR_CFG_GSGRP t)) then ((s.tmStart t).tmRestart t).put (F.TMR_CFG_GSARM t) 0
      else s) s
    if s.on F.BEAM_CTRL_GSARM && groups.testBit (s.get F.BEAM_CTRL_GSGRP) then (s.put F.BEAM_CTRL_GSARM 0).beamStart else s

/-- A unit of the timer domain acts while the domain runs. -/
def State.timerUnit (s : State) (f : State → State) : State := if s.unitOn domTimer then f s else s

/-! Keeper timers, pins and sidebands. -/

/-- KEEPER_TIMER_STEP (R239, R367): the matches fire wake entries of KIND 3. -/
def State.keeperStep (s : State) (k : Nat) : State :=
  if s.pwr.krstLow || s.pwr.rstLow then s
  else
    let r := s.ktEdge k
    r.1.foldl (fun s m => s.wakeEntries 3 (fun e => fld e 36 3 == m)) r.2

/-- PIN_EVENT (R281, R286, R367): the pad delivers a level and the pin's filter takes a sample of it; an edge of a keeper wake pin fires
wake entries of KIND 4. -/
def State.pinEvent (s : State) (n : Nat) (level : Bool) : State :=
  let r := (s.padInput n level).pinSample n
  if r.1 && r.2.pinFsel n == 4 then r.2.wakeEntries 4 (fun e => fld e 36 7 == n) else r.2

/-- STITCH_WAKE_SIDEBAND (R365, R367): the input rises. -/
def State.wakeSideband (s : State) (p : Nat) : State :=
  if s.pwr.krstLow || s.pwr.rstLow then s
  else (s.wakeEntries 5 (fun e => fld e 36 2 == p)).demand (domStitch p) .wakeSideband

/-! The spine. -/

/-- A waiting context goes on once its mask is satisfied, or is diverted by an urgent event at a POLL-marked WAIT (R104, R110). -/
def State.resumeWait (s : State) (c : Nat) : State := if (s.cx c).st = .wait then s.enterWait c else s

/-- Whether a context waits by its mask, or is held by R115 at a WAIT word that will. -/
def Ctx.waiting (x : Ctx) : Bool :=
  x.st == .wait || (x.st == .stall && match x.hold with | some h => h.follow == .wait | none => false)

/-- The lowest event of the assertions that W entries have recorded in the present FCLK, `ev` among them. -/
def Ctx.recNow (x : Ctx) (now ev : Nat) : Nat :=
  match x.recAt with
  | some (t, n) => if t = now then Nat.min n ev else ev
  | none => ev

/-- An assertion of `ev` recorded in entry `i` in FCLK `now` (R102, R104). A W entry that it makes pending may satisfy the mask of a
waiting context. EVLAST then receives the lowest pending W event, or, when all entries are asked for, the lowest of the events
recorded in that FCLK; one recorded later in the FCLK that satisfied the mask is still among the pending ones. -/
def Ctx.record (x : Ctx) (now i : Nat) (ev : BitVec 12) : Ctx :=
  let e := x.etAt i
  let y := x.setEt i { e with p := true }
  if e.w && !e.p then
    let z := { y with recAt := some (now, x.recNow now ev.toNat) }
    if !x.waitMet x.waitAll && z.waitMet x.waitAll && x.waiting then
      { z with metAt := some now, evlast := if x.waitAll then BitVec.ofNat 12 (x.recNow now ev.toNat) else z.lowestW }
    else if x.metAt == some now && !x.waitAll then { z with evlast := z.lowestW }
    else z
  else y

/-- An assertion reaches a context's event table (R102-R104, R362): recorded unless the quire is OFF or the context IDLE. The context
goes on while its quire runs; with the quire in RET, an assertion that ends its wait asks for the quire's wake (R107, R365). -/
def State.etAssert (s : State) (c : Nat) (line : BitVec 12) : State :=
  let x := s.cx c
  let q := quireOf c
  if x.st = .idle ∨ s.unitKept (domQuire q) = false then s
  else
    match x.findEt line with
    | none => s
    | some i =>
      let s := if (x.etAt i).p then s.inc (F.CTX_EVMERGE_EVMERGE c) else s
      let y := x.record s.fclk i line
      let s := s.setCx c y
      if s.unitOn (domQuire q) then s.resumeWait c
      else if y.wantsWake && !x.wantsWake then s.demand (domQuire q) .contextEvent
      else s

/-- An assertion reaches everything that listens (R99): event tables, DMA pacing, timers, I/O engines, event-out pins, the wake
scheduler, the interrupt controller's mirror, the power controller's switch event, and the press. The watchdog's event restarts a
count that this model keeps as the time of WATCHDOG_FIRE (R377). -/
def State.assertLine (s : State) (line : Nat) : State :=
  let s := s.ctx.foldl (fun s e => s.etAssert e.1 (BitVec.ofNat 12 line)) s
  let s := s.dmaAssert line
  let s := s.timerUnit (fun s => s.tmAssert line)
  let s := s.pioAssert line
  let s := s.pinAssert line
  let s := s.wakeEntries 6 (fun e => fld e 36 12 == line)
  let s := s.raiseIf (decide (line < 0x400)) (1024 + line)
  let s := s.fswAssert line
  if s.get F.PRS_PEVSRC_PEVSRC = line then s.pressTrigger 2 2 else s

/-- SPINE_ASSERTION (R99): the oldest post of the line is asserted; a line nobody posted is not. -/
def State.spineAssert (s : State) (line : Nat) : State :=
  if s.pwr.running && s.posted.any (fun p => p.2 == line) then
    ({ s with posted := dropFirst (fun p : Nat × Nat => p.2 == line) s.posted }).assertLine line
  else s

/-! Domain exits. -/

/-- DOMAIN_EXIT_COMPLETE (R107, R363): the unit runs again, and what waited for it goes on. -/
def State.domExited (s : State) (d : Nat) : State :=
  match s.move d with
  | some (.exiting t) =>
    if !s.pwr.running then s
    else
      let s := s.domReach d t
      if t ≠ 0 then s
      else if 1 ≤ d ∧ d ≤ 32 then (List.range 32).foldl (fun s i => s.resumeWait (32 * (d - 1) + i)) s
      else if 165 ≤ d ∧ d ≤ 172 then (List.range 8).foldl (fun s i => s.dmaPoke (8 * (d - 165) + i)) s
      else s
  | _ => s

/-! The rows. -/

def execBeamTick (s : State) : Res := .next s.beamTick

def execBeamRunStart (s : State) : Res := .next (s.hostWrite domTimer R.BEAM_CTRL State.beamStart)

def execBeamRunStop (s : State) : Res := .next (s.hostWrite domTimer R.BEAM_CTRL State.beamStop)

def execTickdivWrite (value : BitVec 64) (s : State) : Res :=
  .next (s.hostPair domTimer R.BEAM_TICKDIV (fun s => s.tickdivWrite value))

def execGeometryWrite (which : GeomReg) (value : BitVec 64) (s : State) : Res :=
  .next (s.hostPair domTimer (geomKey which) (fun s => s.geomWrite which value))

def execLeadWrite (value : BitVec 64) (s : State) : Res := .next (s.hostWrite domTimer R.BEAM_LEAD (fun s => s.leadWrite value))

def execTimerCountEvent (t : Fin 256) (s : State) : Res := .next (s.timerUnit (fun s => s.tmEvent t.val))

def execCmppreWrite (t : Fin 256) (value : BitVec 32) (s : State) : Res :=
  .next (s.hostWrite domTimer (R.TMR_CMPPRE t.val) (fun s => s.cmppreWrite t.val value.toNat))

def execTimerCountWrite (t : Fin 256) (value : BitVec 32) (s : State) : Res :=
  .next (s.hostWrite domTimer (R.TMR_COUNT t.val) (fun s => s.tmCountWrite t.val value.toNat))

def execActionStartTimer (t : Fin 256) (s : State) : Res := .next (s.timerUnit (fun s => s.actStart t.val))

def execActionStopTimer (t : Fin 256) (s : State) : Res := .next (s.timerUnit (fun s => s.actStop t.val))

def execActionConverterTrigger (t : Fin 256) (s : State) : Res := .next (s.timerUnit (fun s => s.actConv t.val))

def execGstart (groups : BitVec 8) (s : State) : Res := .next (s.hostWrite 0 R.BLK_GSTART (fun s => s.gstart groups.toNat))

def execKeeperTimerStep (k : Fin 8) (s : State) : Res := .next (s.keeperStep k.val)

def execPinEvent (n : Fin 128) (level : Bool) (s : State) : Res := .next (s.pinEvent n.val level)

def execStitchWakeSideband (p : Fin 4) (s : State) : Res := .next (s.wakeSideband p.val)

def execSpineAssertion (line : BitVec 12) (s : State) : Res := .next (s.spineAssert line.toNat)

def execDomainExitComplete (d : Fin 196) (s : State) : Res := .next (s.domExited d.val)

end Sys2Proof.Machine
end

