-- ==== Sys2Proof/Machine/Views.lean ====
section
/-! DEFINITION. What a host read of a register returns (R409, R410): its home in `State.regs`, or a view of the typed state of
its unit. The press captures these values (R402). Reads have no row of their own but RXQ_READ, QD_LOW_HALF_READ and
UNLISTED_PAGE_ACCESS. -/

namespace Sys2Proof.Machine

/-- The code STATUS.STATE reports (R86). -/
def CtxSt.code : CtxSt → Nat
  | .idle => 0
  | .ready => 1
  | .run => 2
  | .wait => 3
  | .stall => 4
  | .parked => 5
  | .faulted => 6

/-- CTX[c].STATUS as it reads (R93). -/
def State.ctxStatus (s : State) (c : Nat) : Word :=
  let x := s.cx c
  s.reg (R.CTX_STATUS c) ||| BitVec.ofNat 64 (x.st.code + b2n x.urg * 2 ^ 3 + (if x.st = .faulted then x.fclass % 16 else 0) * 2 ^ 4)

/-- CTX[c].MSTK as it reads (R93). -/
def State.ctxMstk (s : State) (c : Nat) : Word :=
  let m := (s.cx c).mstk
  BitVec.ofNat 64 (m.length * 2 ^ 60 + (m.zipIdx.foldl (fun acc e => acc + (e.1.addr.toNat + b2n e.1.urgent * 2 ^ 14) * 2 ^ (15 * e.2)) 0))

/-- CTX[c].ET[i] as it reads (R100). -/
def State.ctxEt (s : State) (c i : Nat) : Word :=
  let e := (s.cx c).etAt i
  BitVec.ofNat 64 (e.event.toNat + b2n e.w * 2 ^ 12 + b2n e.u * 2 ^ 13 + b2n e.p * 2 ^ 14 + b2n (e.w || e.u) * 2 ^ 15)

/-- The registers of a context's page that are views of its state (R93). -/
def State.ctxView (s : State) (c off : Nat) : Option Word :=
  let x := s.cx c
  match off with
  | 0x010 => some (s.ctxStatus c)
  | 0x038 => some (x.maddr.setWidth 64)
  | 0x108 => some x.finfo
  | 0x110 => some (x.evlast.setWidth 64)
  | 0x118 => some (BitVec.ofNat 64 x.pollcnt)
  | 0x120 => some (s.ctxMstk c)
  | 0x128 => some x.blatch
  | 0x130 => some x.qlatch
  | 0x138 => some x.hiprod
  | 0x140 => some x.quot
  | 0x148 => some x.rem
  | _ => if 0x200 ≤ off ∧ off < 0x280 then some (s.ctxEt c ((off - 0x200) / 8)) else none

/-- PWR.DOM[j] as it reads (R364). -/
def State.domReg (s : State) (j : Nat) : Word :=
  (List.range 8).foldl (fun v i =>
    let d := 8 * j + i
    if d < 196 then setFld (setFld v (8 * i + 4) 2 (s.domState d)) (8 * i + 6) 1 (b2n (s.move d).isSome) else v) (s.reg (R.PWR_DOM j))

/-- The views of the keeper's pages (R375, R385). -/
def State.pwrView (s : State) (off : Nat) : Option Word :=
  if off = 0x038 then some (BitVec.ofNat 64 (s.pwr.fmul % 1024 + s.fuse.refMhz % 256 * 2 ^ 10))
  else if 0x200 ≤ off ∧ off < 0x2C8 then some (s.domReg ((off - 0x200) / 8))
  else none

/-- BLK.BOOT and BLK.BOOTPTR (R375). -/
def State.blkView (s : State) (off : Nat) : Option Word :=
  match off with
  | 0x108 => some (BitVec.ofNat 64 (s.fuse.bootSel % 4 + b2n s.fuse.marchEn * 4 + s.fuse.blen8 % 2 ^ 15 * 2 ^ 8))
  | 0x110 => some (BitVec.ofNat 64 (s.fuse.bootPtr % 2 ^ 63))
  | _ => none

/-- QUI[q].DISP[j] as it reads (R137). -/
def State.dispReg (s : State) (q j : Nat) : Word :=
  (List.range 4).foldl (fun v k => setFld v (16 * k) 14 (s.dispEntry q (4 * j + k)).toNat) 0

/-- The timer pages' views (R231, R238). -/
def State.tmrView (s : State) (k off : Nat) : Option Word :=
  if off = 0x038 then some (s.tmState k)
  else if off = 0x020 then some 0
  else if 0x080 ≤ off ∧ off < 0x100 then some (BitVec.ofNat 64 (s.tmCount (16 * k + (off - 0x080) / 8)))
  else if 0x100 ≤ off ∧ off < 0x500 then
    let t := 16 * k + (off - 0x100) / 64
    match (off - 0x100) % 64 with
    | 0x00 => if t < 4 then some (s.tmBeamCfg t) else none
    | 0x08 => some (BitVec.ofNat 64 (s.tmTop t))
    | 0x38 => some (s.tmStat t)
    | _ => none
  else none

/-- The engines' views (R274, R290): RXQ shows the word a read pops. -/
def State.pioView (s : State) (e off : Nat) : Option Word :=
  match off with
  | 0x010 => some (s.pioStatus e)
  | 0x038 => some (s.pioXY e)
  | 0x040 => some (s.pioShift e)
  | 0x048 => some (s.pioState e)
  | 0x128 => some ((s.rxqRead e).1.setWidth 64)
  | _ => none

/-- BNK[n].STATUS, REPAIRSUM and REPAIRCOL as they read (R190). -/
def State.bnkView (s : State) (n off : Nat) : Option Word :=
  if off = 0x010 then some (setFld (s.reg (R.BNK_STATUS n)) 0 1 (s.get (F.BNK_OWN_PEND n)))
  else if off = 0x118 then some (s.repairSum n)
  else if 0x120 ≤ off ∧ off < 0x160 then some (s.repairCol n ((off - 0x120) / 8))
  else none

/-- The stitch pages' views (R326). -/
def State.stiView (s : State) (p off : Nat) : Option Word :=
  if off = 0x010 then some (s.stiStatus p)
  else if 0x180 ≤ off ∧ off < 0x200 then
    let v := (off - 0x180) / 8
    some (setFld (s.reg (R.STI_CRED p v)) 16 12 (s.rxFree p v))
  else none

/-- RHO.RTQUERY as it reads (R307, R327). -/
def State.rtQuery (s : State) : Word :=
  let sig := s.get F.RHO_RTQUERY_RTSIG
  BitVec.ofNat 64 (sig + (match s.route sig with | some p => p % 4 * 2 ^ 16 + 2 ^ 18 | none => 0))

/-- BND.STATUS as it reads (R357). -/
def State.bndStatus (s : State) : Word :=
  setFld (setFld (s.reg R.BND_STATUS) 4 1 (b2n s.blit.out)) 8 4 s.blit.waiting.length

/-- The register of a page that is a view of typed state, if the offset names one. -/
def State.unitView (s : State) (kind : PageKind) (u off : Nat) : Option Word :=
  match kind with
  | .blk => s.blkView off
  | .pwr => s.pwrView off
  | .intk => if off = 0x010 then some (s.intkStatus u) else none
  | .intsrc => if 0x100 ≤ off ∧ off < 0x900 then some (s.intSrcEntry (256 * u + (off - 0x100) / 8)) else none
  | .qui => if 0x400 ≤ off ∧ off < 0x800 then some (s.dispReg u ((off - 0x400) / 8)) else none
  | .qd =>
    let n := 256 * u + off / 16
    if off % 16 = 8 then some (setFld (s.reg (R.QD_PTR n)) 63 1 (b2n (s.qBusy n))) else none
  | .bnk => s.bnkView u off
  | .beam => if off = 0x038 then some s.beamPos else none
  | .tmr => s.tmrView u off
  | .pio => s.pioView u off
  | .pin => if off = 0x038 then some (BitVec.ofNat 64 (s.padBits (32 * u) 32)) else none
  | .sti => s.stiView u off
  | .rho => if off = 0x048 then some s.rtQuery else none
  | .bnd => if off = 0x010 then some s.bndStatus else none
  | .cst => if off = 0x108 then some ((s.cstFetch u).reg (R.CST_DATA u 0)) else none
  | .ctx => s.ctxView u off
  | .prs | .col | .int | .qmg | .qsl | .dma | .piog => none

/-- PAGEINFO of a kind of page (R409). -/
def pageInfo (kind : PageKind) : Word := BitVec.ofNat 64 (typeCode kind + 3 * 2 ^ 8)

/-- The 64-bit value a host read of the register at window offset `key` returns, without the effects of a read: PAGEINFO, the snapshot
area, a view, or the register's home; zero elsewhere. -/
def State.readWord (s : State) (key : Nat) : Word :=
  match pageKind (key / 4096) with
  | none => 0
  | some (kind, u) =>
    let off := key % 4096
    if kind ≠ .qd ∧ off = 0 then pageInfo kind
    else if kind ≠ .qd ∧ 0xF00 ≤ off then tget (fun _ => (0 : Word)) s.snap (key / 4096 * 512 + off / 8)
    else
      match s.unitView kind u off with
      | some v => v
      | none => s.reg key

end Sys2Proof.Machine
end

