-- ==== Sys2Proof/Machine/Window.lean ====
section
/-! DEFINITION. The register window (R329, R330, R406-R416): a host write of one half of a register, paired registers, checked
writes, locks, unlisted pages, and what a write of each register does beyond storing its fields. -/

namespace Sys2Proof.Machine

/-- A register write as it commits (R410, R413): the page, its instance, the offset, the register's value, the bits written, the value
written in them (zero elsewhere), the value with the bits not written left as they are, and which halves are written. -/
structure HostWr where
  page : Nat
  u : Nat
  off : Nat
  cur : Word
  wr : Word
  v : Word
  low : Bool
  high : Bool

/-- The window offset of the register written. -/
def HostWr.key (h : HostWr) : Nat := h.page * 4096 + h.off

/-! Fields (R410, R411). -/

/-- A field's value after a write, and whether the write's value was rejected. -/
def FieldSpec.write (f : FieldSpec) (h : HostWr) : Nat × Bool :=
  let old := fld h.cur f.lo f.width
  let new := fld h.v f.lo f.width
  match f.acc with
  | .rw =>
    if !f.ok.isEmpty && !f.ok.any (fun r => decide (r.1 ≤ new ∧ new ≤ r.2)) then (old, true) else (new, false)
  | .w1c => (fld (h.cur &&& ~~~h.wr) f.lo f.width, false)
  | .w1s => (fld (h.cur ||| h.wr) f.lo f.width, false)
  | .ro => (old, false)
  | .wo => (old, false)

/-- Whether a write reaches a field: one of the halves it lies in is written. -/
def FieldSpec.touched (f : FieldSpec) (h : HostWr) : Bool := if f.lo < 32 then h.low || (h.high && decide (32 < f.lo + f.width)) else h.high

/-- A register's value after a write of it, and whether a field was rejected. -/
def writeFields (h : HostWr) : List FieldSpec → Word × Bool
  | [] => (h.cur, false)
  | f :: fs =>
    let r := writeFields h fs
    if f.touched h then
      let n := f.write h
      (setFld r.1 f.lo f.width n.1, r.2 || n.2)
    else r

/-- The lock bit that covers a register, and the bits it covers (R415): PEVSRC, PBCMP and PFCLS; FLWM and FLCLS; source
entries but PEND; the link configuration; the boundary's configuration. Registers with rules of their own check their locks there. -/
def lockCover (kind : PageKind) (u off : Nat) : Option (RF × Word) :=
  let all : Word := BitVec.allOnes 64
  match kind with
  | .prs => if off = 0x100 ∨ off = 0x108 ∨ off = 0x110 then some (F.PRS_LOCK_CFG, all) else none
  | .col => if off = 0x100 ∨ off = 0x108 then some (F.COL_LOCK_CFG, all) else none
  | .intsrc => if 0x100 ≤ off ∧ off < 0x900 then some (F.INT_LOCK_TAB, BitVec.ofNat 64 (2 ^ 48 - 1)) else none
  | .sti => if off = 0x100 ∨ off = 0x108 ∨ off = 0x110 then some (F.STI_LOCK_CFG u, all) else none
  | .bnd => if off = 0x008 ∨ off = 0x100 ∨ off = 0x108 ∨ off = 0x110 ∨ off = 0x118 then some (F.BND_LOCK_CFG, all) else none
  | _ => none

/-- A write of a register that only stores its fields (R410, R411, R415). -/
def State.storeReg (s : State) (kind : PageKind) (h : HostWr) : State :=
  match regSpecAt h.key with
  | none => s
  | some r =>
    let w := writeFields h r.fields
    let covered := match lockCover kind h.u h.off with
      | some (lock, bits) => s.on lock && (w.1 ^^^ h.cur) &&& bits != 0
      | none => false
    if covered then s.rej h.page
    else
      let s := s.setReg h.key w.1
      if w.2 then s.rej h.page else s

/-! What a write of each page's registers does beyond that. `some` answers the write; `none` leaves it to `storeReg`. -/

/-- BLK (R376, R234, R416). -/
def State.blkWr (s : State) (h : HostWr) : Option State :=
  match h.off with
  | 0x100 => some (if h.low then s.modeWrite (fld h.v 0 2) else s)
  | 0x180 => some (if h.low then s.gstart (fld h.wr 0 8) else s)
  | _ => none

/-- A write of a DOM register (R364, R415): under LOCK.DOM a write that would change a covered field is rejected as a whole; LATE is W1C. -/
def State.domRegWr (s : State) (h : HostWr) : State :=
  let j := (h.off - 0x200) / 8
  let is := (List.range 8).filter (fun i => decide (8 * j + i < 196) && (if i < 4 then h.low else h.high))
  let req := fun i => fld h.wr (8 * i) 2
  let auto := fun i => bit h.wr (8 * i + 2)
  let lowret := fun i => bit h.wr (8 * i + 3)
  if s.on F.PWR_LOCK_DOM && is.any (fun i => s.domChanges (8 * j + i) (req i) (auto i) (lowret i)) then s.rej pwrPage
  else
    let r := is.foldl (fun (r : Bool × State) i =>
      let q := r.2.domByte (8 * j + i) (req i) (auto i) (lowret i)
      (r.1 || q.1, if bit h.wr (8 * i + 7) then q.2.put (domRF (8 * j + i) 7 1) 0 else q.2)) (false, s)
    if r.1 then r.2.rej pwrPage else r.2

/-- Keeper timer registers (R239): KSRC = 1 is reserved for KT0; a write of KCOUNT or KCMP waits for the next SCLK edge. -/
def State.keeperWr (s : State) (h : HostWr) : Option State :=
  let k := (h.off - 0xC00) / 0x20
  match (h.off - 0xC00) % 0x20 with
  | 0x00 =>
    if k = 0 ∧ h.low = true ∧ bit h.v 1 = true then
      some ((s.storeReg .pwr { h with v := setFld h.v 1 1 (fld h.cur 1 1) }).rej pwrPage)
    else none
  | 0x08 => some (if h.low then s.setKt k { s.kt k with count := some (fld h.wr 0 32) } else s)
  | 0x10 => some (if h.low then s.setKt k { s.kt k with cmp := some (fld h.wr 0 32) } else s)
  | _ => none

/-- PWR (R358-R360, R364, R367, R239); under LOCK.WDOG every write of WDOG is ignored and counted (R377). -/
def State.pwrWr (s : State) (h : HostWr) : Option State :=
  if h.off = 0x048 then (if s.on F.PWR_LOCK_WDOG then some (s.rej pwrPage) else none)
  else if h.off = 0x108 then some (s.fswWrite h.v)
  else if 0x200 ≤ h.off ∧ h.off < 0x2C8 then some (s.domRegWr h)
  else if 0x400 ≤ h.off ∧ h.off < 0x600 then some (s.wakeWrite ((h.off - 0x400) / 8) h.v)
  else if 0xC00 ≤ h.off ∧ h.off < 0xD00 then s.keeperWr h
  else none

/-- PRS.CTRL (R400, R401, R405): ARM and TRIG act unless the write would change locked bits. -/
def State.prsWr (s : State) (h : HostWr) : Option State :=
  if h.off = 0x008 then
    if !h.low then some s
    else if s.on F.PRS_LOCK_CFG && (fld h.v 3 1 != fld h.cur 3 1 || fld h.v 8 5 != fld h.cur 8 5) then some (s.rej h.page)
    else
      let s := s.storeReg .prs h
      let s := if bit h.wr 1 then s.put F.PRS_STATUS_ARMED 1 else s
      some (if bit h.wr 2 then s.pressTrigger 0 2 else s)
  else none

/-- COL (R387, R392-R394, R398, R399, R404): a write of a SUPP count clears its saturation mark. -/
def State.colWr (s : State) (h : HostWr) : Option State :=
  if h.off = 0x008 then some (if h.low then s.colCtrlWrite h.wr else s)
  else if h.off = 0x110 then some (if h.low then s.authWrite (h.wr.setWidth 32) else s)
  else if h.off = 0x118 then some (if h.low then s.clearWrite (h.wr.setWidth 32) else s)
  else if h.off = 0x120 then some (s.seqbaseWrite (fld h.v 0 48))
  else if h.off = 0x128 then some (s.rdseqWrite (fld h.v 0 48))
  else if 0x200 ≤ h.off ∧ h.off < 0xA00 then some (s.rateWrite ((h.off - 0x200) / 8) h.v)
  else if 0xA00 ≤ h.off ∧ h.off < 0xE00 then
    let j := (h.off - 0xA00) / 8
    some ((List.range 8).foldl (fun s k => if (if k < 4 then h.low else h.high) then s.setSat (8 * j + k) false else s) (s.storeReg .col h))
  else none

/-- INT.RAISE (R350) and INT[k].CLRACT (R356). -/
def State.intWr (s : State) (h : HostWr) : Option State :=
  if h.off = 0x100 then some (if h.low then s.raise (fld h.wr 0 11) else s) else none

def State.intkWr (s : State) (h : HostWr) : Option State :=
  if h.off = 0x110 then some (if bit h.wr 0 then s.put (F.INTK_STATUS_ACTIVE h.u) 0 else s) else none

/-- QUI: SLOT and DISP under their locks (R97, R137, R140). -/
def State.quiWr (s : State) (h : HostWr) : Option State :=
  if 0x200 ≤ h.off ∧ h.off < 0x400 then (if s.on (F.QUI_LOCK_SLOT h.u) then some (s.rej h.page) else none)
  else if 0x400 ≤ h.off ∧ h.off < 0x800 then
    let j := (h.off - 0x400) / 8
    if s.on (F.QUI_LOCK_DISP h.u) then some (s.rej h.page)
    else some ((List.range 4).foldl (fun s k =>
      if (if k < 2 then h.low else h.high) then s.setDisp h.u (4 * j + k) (BitVec.ofNat 14 (fld h.wr (16 * k) 14)) else s) s)
  else none

/-- CST[q].IMG (R379, R380); under LOCK.IMG a write that would change it is rejected and counted (R415, log entry 47). -/
def State.imgWr (s : State) (h : HostWr) : State :=
  let first := fld h.v 32 5
  let nfol := fld h.v 40 5
  let badF := h.high && decide (first < 8)
  let badN := h.high && !decide (1 ≤ nfol ∧ nfol ≤ 24)
  let f := if badF then fld h.cur 32 5 else first
  let n := if badN then fld h.cur 40 5 else nfol
  let past := decide (32 < f + n)
  let f := if past then fld h.cur 32 5 else f
  let n := if past then fld h.cur 40 5 else n
  let v := BitVec.ofNat 64 (fld h.v 0 25 + f * 2 ^ 32 + n * 2 ^ 40)
  if s.on (F.CST_LOCK_IMG h.u) && v != h.cur then s.rej h.page
  else
    let s := s.setReg h.key v
    if badF || badN || past then s.rej h.page else s

/-- CST (R378-R380): LOAD, IMG, and the commit by DATA2's high half. A refused LOAD rejects the write that carries it (log entry 60). -/
def State.cstWr (s : State) (h : HostWr) : Option State :=
  match h.off with
  | 0x008 =>
    if h.low && bit h.wr 3 then
      some (if s.loadRefused h.u then s.rej h.page else (s.storeReg .cst h).cstLoad h.u)
    else none
  | 0x118 => if h.high then some (s.cstCommit h.u h.v) else none
  | 0x120 => some (s.imgWr h)
  | _ => none

/-- The descriptor window (R194, R195). -/
def State.qdWr (s : State) (h : HostWr) : Option State :=
  let n := 256 * h.u + h.off / 16
  some (if h.off % 16 = 0 then s.qdCfgWrite n h.v else s.qdPtrWrite n h.v)

/-- DMA (R244, R246, R260). -/
def State.dmaWr (s : State) (h : HostWr) : Option State :=
  if h.off = 0x008 then some (if h.low then s.dmaCtrlWrite h.u h.wr else s)
  else if h.off = 0x118 ∨ h.off = 0x138 then some (s.ctlWrite h.u ((h.off - 0x118) / 0x20) h.v)
  else if 0x100 ≤ h.off ∧ h.off < 0x140 then
    let v := if h.off % 0x20 = 0x10 then BitVec.ofNat 64 (fld h.v 0 32) else h.v
    some (s.setRegWrite h.u ((h.off - 0x100) / 0x20) h.key v)
  else none

/-- BNK (R183, R186, R191). -/
def State.bnkWr (s : State) (h : HostWr) : Option State :=
  match h.off with
  | 0x038 => some (if h.low then s.ownWrite h.u (fld h.wr 0 6) else s)
  | 0x100 => some (if h.low then s.marchWrite h.u (fld h.wr 0 2) (fld h.wr 8 8) else s)
  | 0x160 => some (if h.low then s.injWrite h.u h.wr else s)
  | _ => none

/-- BEAM (R216-R218, R225, R237). -/
def State.beamWr (s : State) (h : HostWr) : Option State :=
  match h.off with
  | 0x008 => some (if h.low then s.beamCtrlWrite h.wr else s)
  | 0x100 => some (s.tickdivWrite h.v)
  | 0x108 => some (if h.low then s.divtrimWrite h.wr else s)
  | 0x110 => some (if h.low then s.geomWrite .geom h.wr else s)
  | 0x118 => some (if h.low then s.geomWrite .hact h.wr else s)
  | 0x120 => some (if h.low then s.geomWrite .vact h.wr else s)
  | 0x128 => some (s.geomWrite .sync h.v)
  | 0x130 => some (s.leadWrite h.v)
  | _ => none

/-- TMR (R226-R230, R236, R238): the timers have no errors, so ERRCNT reads zero and takes no write. -/
def State.tmrWr (s : State) (h : HostWr) : Option State :=
  if h.off = 0x020 then some s
  else if 0x080 ≤ h.off ∧ h.off < 0x100 then some (if h.low then s.tmCountWrite (16 * h.u + (h.off - 0x080) / 8) (fld h.wr 0 32) else s)
  else if 0x100 ≤ h.off ∧ h.off < 0x500 then
    let t := 16 * h.u + (h.off - 0x100) / 64
    let n := fld h.wr 0 32
    match (h.off - 0x100) % 64 with
    | 0x00 => some (s.tmCfgWrite t h.v)
    | 0x08 => some (if h.low then s.tmTopWrite t n else s)
    | 0x18 => some (if h.low then s.cmppreWrite t n else s)
    | 0x20 => some (if h.low then s.tmIntervalWrite t n else s)
    | 0x30 => some (if h.low then s.tmAuxWrite t h.wr else s)
    | _ => none
  else none

/-- PIO.CTRL (R277, R279, R290). A refused CLRQ rejects the write that carries it (R411, log entry 60). -/
def State.pioCtrlWr (s : State) (e : Nat) (v : Word) : State :=
  if bit v 2 && s.on (F.PIO_CTRL_EN e) then s.rej (pioPage e)
  else
  let s := if bit v 1 then s.pioReload e else s
  let s := if bit v 2 then s.pioClrq e else s
  let s := if bit v 3 then s.put (F.PIO_EVLATCH_LATCHED e) 0 else s
  if bit v 0 then s.pioEnable e else if s.on (F.PIO_CTRL_EN e) then s.pioDisable e else s

/-- PIO (R274-R277, R290); XY, SHIFT and STATE merge the half written into what they read. -/
def State.pioWr (s : State) (h : HostWr) : Option State :=
  let merge := fun (cur : Word) => if h.low then (cur >>> 32) <<< 32 ||| h.wr else cur.setWidth 32 |>.setWidth 64 ||| h.wr
  match h.off with
  | 0x008 => some (if h.low then s.pioCtrlWr h.u h.wr else s)
  | 0x038 => some (s.pioStateWrite h.u 0 (merge (s.pioXY h.u)))
  | 0x040 => some (s.pioStateWrite h.u 1 (merge (s.pioShift h.u)))
  | 0x048 => some (s.pioStateWrite h.u 2 (merge (s.pioState h.u)))
  | 0x118 => some (if h.low then s.shiftcfgWrite h.u h.wr else s)
  | 0x120 => some (if h.low then s.txqWrite h.u (h.wr.setWidth 32) else s)
  | 0x140 => some (s.feedWrite h.u h.key h.v)
  | 0x148 => some (s.feedWrite h.u h.key h.v)
  | _ => none

/-- PIOG (R278, R291). -/
def State.piogWr (s : State) (h : HostWr) : Option State :=
  let m := fld h.wr 0 8
  match h.off with
  | 0x100 => some (if h.low then s.pioGroup h.u m State.pioGo else s)
  | 0x108 => some (if h.low then s.pioGroup h.u m State.pioDisable else s)
  | 0x110 => some (if h.low then s.pioGroup h.u m State.pioSync else s)
  | _ => none

/-- PIN (R288, R292). -/
def State.pinWr (s : State) (h : HostWr) : Option State :=
  let out := F.PIN_GPIOOUT_GPIOOUT h.u
  let m := fld h.wr 0 32
  match h.off with
  | 0x050 => some (s.put out (wordSet (s.get out) m))
  | 0x058 => some (s.put out (wordClr (s.get out) m))
  | 0x060 => some (s.put out (wordTog (s.get out) m))
  | _ => if 0x100 ≤ h.off ∧ h.off < 0x200 then some (s.pinCfgWrite (32 * h.u + (h.off - 0x100) / 8) h.v) else none

/-- STI (R295, R326). -/
def State.stiWr (s : State) (h : HostWr) : Option State :=
  match h.off with
  | 0x008 => some (if h.low then s.stiCtrlWrite h.u h.wr else s)
  | 0x118 => some (s.vcbufWrite h.u 0 h.v)
  | 0x120 => some (s.vcbufWrite h.u 1 h.v)
  | _ => none

/-- RHO (R320, R327). -/
def State.rhoWr (s : State) (h : HostWr) : Option State :=
  match h.off with
  | 0x008 => some (if h.low then s.rhoCtrlWrite h.wr else s)
  | 0x110 => some (s.wallPress h.v)
  | _ => none

/-- BND (R331, R357): LPCFG is not written while a port is enabled. -/
def State.bndWr (s : State) (h : HostWr) : Option State :=
  match h.off with
  | 0x038 => some (if h.low then s.post (0xC00 + fld h.wr 0 6) else s)
  | 0x100 => if s.on F.BND_CTRL_LPEN then some (s.rej h.page) else none
  | _ => none

/-- CTX.CTRL (R88). -/
def State.ctxCtrlWr (s : State) (c cmd : Nat) : State :=
  match cmd with
  | 0 => s
  | 1 => s.ctxStart c
  | 2 => s.ctxResume c
  | 3 => s.ctxStop c
  | _ => s.rej (ctxPage c)

/-- CTX.MREG (R84): a modifier with a reserved MLOG stays, and the write is counted once. -/
def State.mregWr (s : State) (h : HostWr) : State :=
  let is := (List.range 4).filter (fun i => if i < 2 then h.low else h.high)
  let bad := fun i => mlogReserved (fld h.wr (16 * i) 16)
  let s := is.foldl (fun s i => if bad i then s else s.put (mRF h.u i) (fld h.wr (16 * i) 6)) s
  if is.any bad then s.rej h.page else s

/-- CTX's state registers (R92), ENTRY and the return stack (R151) are written only in IDLE, PARKED and FAULTED; a write of MADDR discards
the word that was read for the old address (log entry 32). -/
def State.ctxStateWr (s : State) (h : HostWr) : Option State :=
  if !s.ctxWritable h.u then some (s.rej h.page)
  else
    match h.off with
    | 0x038 =>
      some (if h.low then s.setCx h.u { s.cx h.u with maddr := BitVec.ofNat 14 (fld h.wr 0 14), word := .empty, routine := none } else s)
    | 0x040 => some (if h.low then s.writeOpc h.u (fld h.wr 0 32) else s)
    | 0x068 => some (s.mregWr h)
    | 0x070 => some (if h.low then s.writeCtxcfg h.u h.wr else s)
    | _ => none

def State.ctxWr (s : State) (h : HostWr) : Option State :=
  if h.off = 0x008 then some (if h.low then s.ctxCtrlWr h.u (fld h.wr 0 3) else s)
  else if (0x038 ≤ h.off ∧ h.off ≤ 0x0F8) ∨ h.off = 0x100 then s.ctxStateWr h
  else if 0x300 ≤ h.off ∧ h.off < 0x340 then some (s.ostkWrite h.u ((h.off - 0x300) / 8) h.v)
  else none

/-- A page's own rules for a write. -/
def State.unitWr (s : State) (kind : PageKind) (h : HostWr) : Option State :=
  match kind with
  | .blk => s.blkWr h
  | .pwr => s.pwrWr h
  | .prs => s.prsWr h
  | .col => s.colWr h
  | .int => s.intWr h
  | .intk => s.intkWr h
  | .qui => s.quiWr h
  | .cst => s.cstWr h
  | .qd => s.qdWr h
  | .dma => s.dmaWr h
  | .bnk => s.bnkWr h
  | .beam => s.beamWr h
  | .tmr => s.tmrWr h
  | .pio => s.pioWr h
  | .piog => s.piogWr h
  | .pin => s.pinWr h
  | .sti => s.stiWr h
  | .rho => s.rhoWr h
  | .bnd => s.bndWr h
  | .ctx => s.ctxWr h
  | .intsrc | .qmg | .qsl => none

/-- A write commits (R411): both halves of a paired register, or the half written. -/
def State.commitWr (s : State) (key : Nat) (v : Word) (low high : Bool) : State :=
  match pageKind (key / 4096) with
  | none => s
  | some (kind, u) =>
    let mask : Word := BitVec.ofNat 64 (b2n low * (2 ^ 32 - 1) + b2n high * (2 ^ 64 - 2 ^ 32))
    let cur := s.reg key
    let h : HostWr := ⟨key / 4096, u, key % 4096, cur, v &&& mask, (v &&& mask) ||| (cur &&& ~~~mask), low, high⟩
    match s.unitWr kind h with
    | some t => t
    | none => s.storeReg kind h

/-! Halves (R7, R413). -/

/-- Whether the register at a window offset is paired. -/
def pairedAt (key : Nat) : Bool :=
  match regSpecAt key with
  | some r => r.paired
  | none => false

/-- One half of the register at `key` is written: a paired register holds its low half and commits with its high half; any other commits
the half. -/
def State.halfWr (s : State) (key : Nat) (high : Bool) (d : BitVec 32) : State :=
  if pairedAt key then
    if high then
      let low := (tget (fun _ => none) s.held key).getD ((s.readWord key).setWidth 32)
      (s.holdLow key none).commitWr key (d ++ low) true true
    else s.holdLow key (some d)
  else if high then s.commitWr key (d.setWidth 64 <<< 32) false true
  else s.commitWr key (d.setWidth 64) true false

/-! The window. -/

/-- An access to an unlisted page (R408): a normal response, counted and noted. -/
def State.unlisted (s : State) (page : Nat) (isWrite : Bool) : State :=
  (((s.rej blkPage).put F.BLK_UNLIST_PAGE page).put F.BLK_UNLIST_WR (b2n isWrite)).okResponse 0

/-- An access through the register window (R329, R330, R408): `addr` counts 32-bit words. An unlisted page answers for itself; of a listed
one, byte enables other than all or none give the error response of cause 2, and a domain in RET or OFF that of cause 3. -/
def State.windowAccess (s : State) (addr be : Nat) (isWrite : Bool) (f : State → State) : State :=
  if !s.pwr.running then s.askFclk
  else
    match domOfKey (addr / 2 * 8) with
    | none => s.unlisted (addr / 1024) isWrite
    | some dom =>
      if be ≠ 0 ∧ be ≠ 15 then s.errorResponse false isWrite (4 * addr) 2
      else if 1 < s.domState dom then s.errorResponse false isWrite (4 * addr) 3
      else f s

/-- A write through the register window (R329, R413): with no byte enabled it writes nothing. -/
def State.windowWr (s : State) (addr be : Nat) (d : BitVec 32) : State :=
  s.windowAccess addr be true (fun s => if be = 0 then s.okResponse 0 else (s.halfWr (addr / 2 * 8) (addr % 2 == 1) d).okResponse 0)

/-- A host read of one half of descriptor word `word` of queue `n` (R195, R197, R198): a low half latches its high half, which the next
read of that half returns. -/
def State.qdReadHalf (s : State) (n word : Nat) (high : Bool) : State :=
  let key := 2 * n + word
  let latch := fun (s : State) (v : Option (BitVec 32)) => { s with qdHigh := tset (fun _ => none) key v s.qdHigh }
  match high, tget (fun _ => none) s.qdHigh key with
  | true, some v => (latch (s.takeTurn (n % 16) 63) none).okResponse v
  | _, _ =>
    let r := s.qdRead n word
    let v := if word = 1 then setFld r.1 63 1 (b2n (r.2.qBusy n)) else r.1
    if high then r.2.okResponse (v.extractLsb' 32 32) else (latch r.2 (some (v.extractLsb' 32 32))).okResponse (v.setWidth 32)

/-- A host read of one half of the register at `key` (R329): a descriptor, RXQ, whose read takes an entry (R274), DATA0 of a control store,
whose read fetches the word at ADDR (R378), or a register read as it stands. -/
def State.readHalf (s : State) (key : Nat) (high : Bool) : State :=
  let plain := fun (s : State) => s.okResponse (halfOf (s.readWord key) high)
  match pageKind (key / 4096) with
  | some (.qd, u) => s.qdReadHalf (256 * u + key % 4096 / 16) (key % 16 / 8) high
  | some (.pio, e) => if key % 4096 = 0x128 ∧ high = false then (s.rxqRead e).2.okResponse (s.rxqRead e).1 else plain s
  | some (.cst, q) =>
    if key % 4096 = 0x108 then (s.cstFetch q).okResponse (halfOf ((s.cstFetch q).reg (R.CST_DATA q 0)) high) else plain s
  | _ => plain s

/-- A read through the register window (R329, R330, R408). -/
def State.windowRd (s : State) (addr be : Nat) : State :=
  s.windowAccess addr be false (fun s => s.readHalf (addr / 2 * 8) (addr % 2 == 1))

/-! The rows. -/

def execRegisterWrite (addr : BitVec 22) (be : BitVec 4) (data : BitVec 32) (s : State) : Res :=
  .next (s.windowWr addr.toNat be.toNat data)

/-- PAIRED_LOW_HALF_WRITE (R413): `addr` counts registers; of a register that is not paired the half commits. -/
def execPairedLowHalfWrite (addr : BitVec 21) (data : BitVec 32) (s : State) : Res :=
  .next (s.windowWr (2 * addr.toNat) 15 data)

/-- UNLISTED_PAGE_ACCESS (R408). The table has no row for a register read that has no row of its own, so a read
of a listed page is such a read (R329, R330; log entry 56); a write of one is REGISTER_WRITE's and does nothing here. -/
def execUnlistedPageAccess (access : RegAccess) (isWrite : Bool) (s : State) : Res :=
  let addr := access.addr.toNat
  .next (if isWrite then (if pageListed (addr / 1024) then s else s.windowWr addr access.be.toNat 0) else s.windowRd addr access.be.toNat)

/-- QD_LOW_HALF_READ (R197, R198): the low half is returned, and the high half latched for the next read of it. -/
def execQdLowHalfRead (n : BitVec 14) (ptr : Bool) (s : State) : Res :=
  .next (s.hostAccess (domSlice (n.toNat % 16)) (if ptr then R.QD_PTR n.toNat else R.QD_CFG n.toNat) false
    (fun s => s.qdReadHalf n.toNat (b2n ptr) false))

end Sys2Proof.Machine
end

