-- ==== Sys2Proof/Machine/Press.lean ====
section
/-! DEFINITION. The press (R400-R403): the triggers whose press FCLK is the next one form one press, which copies every page's unit
state set into its snapshot area. -/

namespace Sys2Proof.Machine

/-- The pages that have a snapshot area: every listed page outside the descriptor window (R402, R408). -/
def snapPages : List Nat :=
  [0, 1, 2, 3, 4] ++ (List.range 8).map (· + 5) ++ (List.range 8).map (· + 0x10) ++ (List.range 65).map (· + 0x20) ++
  (List.range 16).map (· + 0x61) ++ (List.range 64).map (· + 0xC0) ++ (List.range 128).map (· + 0x100) ++
  (List.range 17).map (· + 0x180) ++ (List.range 32).map (· + 0x1A0) ++ (List.range 4).map (· + 0x1C0) ++
  (List.range 4).map (· + 0x1D0) ++ (List.range 5).map (· + 0x1E0) ++ [0x1F0] ++ (List.range 1024).map (· + 0x400)

/-- The state with one word of a page's snapshot area written. -/
def State.setSnap (s : State) (page off : Nat) (v : Word) : State :=
  { s with snap := tset (fun _ => (0 : Word)) (page * 512 + off / 8) v s.snap }

/-- One page's snapshot (R402): offset 0xF00 holds the copy of 0x0F8, 0xF00 + k that of k, and 0xFF8 the press's number and kind. `at_` is
the state pressed. -/
def State.snapPage (s at_ : State) (page seq kind : Nat) : State :=
  let s := s.setSnap page 0xF00 (at_.readWord (page * 4096 + 0x0F8))
  let s := (List.range 30).foldl (fun s i => s.setSnap page (0xF08 + 8 * i) (at_.readWord (page * 4096 + 8 + 8 * i))) s
  s.setSnap page 0xFF8 (BitVec.ofNat 64 (seq + kind * 2 ^ 48))

/-- Whether a page is latched: its domain is ON or in DOZE (R402). -/
def State.pageLatched (s : State) (page : Nat) : Bool :=
  match domOfPage page with
  | some d => decide (s.domState d ≤ 1)
  | none => false

/-- A press of `kind` that merges `count` triggers (R401, R402). -/
def State.press (s : State) (kind count : Nat) : State :=
  let seq := (s.get F.PRS_PSEQ_PSEQ + 1) % 2 ^ 48
  let s := (s.add F.PRS_MISS_MERGECNT (count - 1)).put F.PRS_PSEQ_PSEQ seq
  let s := (s.put F.PRS_PSEQ_LASTKIND kind).put F.PRS_STATUS_PRESSED 1
  let s := if s.on F.PRS_CTRL_ONESHOT then s.put F.PRS_STATUS_ARMED 0 else s
  let s := (snapPages.filter s.pageLatched).foldl (fun t page => t.snapPage s page seq kind) s
  let s := s.postIf (s.on F.PRS_EVEN_ONPRESS) (s.get F.PRS_EVEN_EV)
  if s.on F.PRS_CTRL_REC then
    s.occur 0x008 (sourceOfPage 2) false (BitVec.ofNat 64 (seq + kind * 2 ^ 48)) s.beamPos 0
  else s

/-- PRESS_LATCH (R400, R401): the triggers of the earliest press FCLK are judged. -/
def State.pressLatch (s : State) : State :=
  match s.prs with
  | [] => s
  | t :: ts =>
    if !s.pwr.running then s
    else
      let due := minD t.due ((t :: ts).map (·.due))
      let now := (t :: ts).filter (fun p => p.due == due)
      let s := { s with prs := (t :: ts).filter (fun p => p.due != due) }
      if s.on F.PRS_STATUS_ARMED then s.press (minD 0 (now.map (·.kind))) now.length
      else s.add F.PRS_MISS_MISSCNT now.length

def execPressLatch (s : State) : Res := .next s.pressLatch

end Sys2Proof.Machine
end

