-- ==== Sys2Proof/Machine/Families.lean ====
section
/-! DEFINITION. Every family of commands: what `Machine/Dispatch.lean` imports. -/
end

