-- ==== Sys2Proof/Machine/Dispatch.lean ====
section
/-! DEFINITION. One arm per constructor of Instr, each a direct call of that command's meaning. -/

namespace Sys2Proof.Machine

def exec (i : Instr) (s : State) : Host.Outcome State Fault Refusal :=
  match i with
  | .microwordIssue q => Sys2Proof.Machine.execMicrowordIssue q s
  | .microwordCommit c => Sys2Proof.Machine.execMicrowordCommit c s
  | .cont c => Sys2Proof.Machine.execCont c s
  | .jump c target => Sys2Proof.Machine.execJump c target s
  | .brt c cond cpol target => Sys2Proof.Machine.execBrt c cond cpol target s
  | .brf c cond cpol target => Sys2Proof.Machine.execBrf c cond cpol target s
  | .call c target => Sys2Proof.Machine.execCall c target s
  | .callc c cond cpol target => Sys2Proof.Machine.execCallc c cond cpol target s
  | .ret c cond cpol => Sys2Proof.Machine.execRet c cond cpol s
  | .disp c => Sys2Proof.Machine.execDisp c s
  | .tdisp c width areg shamt target => Sys2Proof.Machine.execTdisp c width areg shamt target s
  | .loop c cpol target => Sys2Proof.Machine.execLoop c cpol target s
  | .wait c cond cpol poll target => Sys2Proof.Machine.execWait c cond cpol poll target s
  | .park c target => Sys2Proof.Machine.execPark c target s
  | .aluOperation c aluop areg bsel breg dsel dreg flagw imm => Sys2Proof.Machine.execAluOperation c aluop areg bsel breg dsel dreg flagw imm s
  | .shifterOperation c shop shamt areg bsel breg dsel dreg flagw imm => Sys2Proof.Machine.execShifterOperation c shop shamt areg bsel breg dsel dreg flagw imm s
  | .predicateWrite c pset cond cpol => Sys2Proof.Machine.execPredicateWrite c pset cond cpol s
  | .mul c areg bsel breg dsel dreg imm => Sys2Proof.Machine.execMul c areg bsel breg dsel dreg imm s
  | .mulhs c areg bsel breg dsel dreg imm => Sys2Proof.Machine.execMulhs c areg bsel breg dsel dreg imm s
  | .mulhu c areg bsel breg dsel dreg imm => Sys2Proof.Machine.execMulhu c areg bsel breg dsel dreg imm s
  | .mulw c areg bsel breg dsel dreg imm => Sys2Proof.Machine.execMulw c areg bsel breg dsel dreg imm s
  | .mulwu c areg bsel breg dsel dreg imm => Sys2Proof.Machine.execMulwu c areg bsel breg dsel dreg imm s
  | .divs c areg bsel breg imm => Sys2Proof.Machine.execDivs c areg bsel breg imm s
  | .divu c areg bsel breg imm => Sys2Proof.Machine.execDivu c areg bsel breg imm s
  | .rdq c dsel dreg => Sys2Proof.Machine.execRdq c dsel dreg s
  | .rdr c dsel dreg => Sys2Proof.Machine.execRdr c dsel dreg s
  | .rdh c dsel dreg => Sys2Proof.Machine.execRdh c dsel dreg s
  | .divideComplete c => Sys2Proof.Machine.execDivideComplete c s
  | .ld64 c memar amod step => Sys2Proof.Machine.execLd64 c memar amod step s
  | .ld32 c memar amod step => Sys2Proof.Machine.execLd32 c memar amod step s
  | .ld16 c memar amod step => Sys2Proof.Machine.execLd16 c memar amod step s
  | .ld8 c memar amod step => Sys2Proof.Machine.execLd8 c memar amod step s
  | .ld32s c memar amod step => Sys2Proof.Machine.execLd32s c memar amod step s
  | .ld16s c memar amod step => Sys2Proof.Machine.execLd16s c memar amod step s
  | .ld8s c memar amod step => Sys2Proof.Machine.execLd8s c memar amod step s
  | .st64 c areg memar amod step => Sys2Proof.Machine.execSt64 c areg memar amod step s
  | .st32 c areg memar amod step => Sys2Proof.Machine.execSt32 c areg memar amod step s
  | .st16 c areg memar amod step => Sys2Proof.Machine.execSt16 c areg memar amod step s
  | .st8 c areg memar amod step => Sys2Proof.Machine.execSt8 c areg memar amod step s
  | .aadd c areg memar amod step => Sys2Proof.Machine.execAadd c areg memar amod step s
  | .aswp c areg memar amod step => Sys2Proof.Machine.execAswp c areg memar amod step s
  | .signal c event => Sys2Proof.Machine.execSignal c event s
  | .wadd c event => Sys2Proof.Machine.execWadd c event s
  | .wdel c event => Sys2Proof.Machine.execWdel c event s
  | .wclr c => Sys2Proof.Machine.execWclr c s
  | .uadd c event => Sys2Proof.Machine.execUadd c event s
  | .udel c event => Sys2Proof.Machine.execUdel c event s
  | .consume c event => Sys2Proof.Machine.execConsume c event s
  | .doorbell c => Sys2Proof.Machine.execDoorbell c s
  | .press c => Sys2Proof.Machine.execPress c s
  | .blitgo c => Sys2Proof.Machine.execBlitgo c s
  | .colrec c code areg breg => Sys2Proof.Machine.execColrec c code areg breg s
  | .fault c cls areg breg => Sys2Proof.Machine.execFault c cls areg breg s
  | .ld0 c bsel breg imm => Sys2Proof.Machine.execLd0 c bsel breg imm s
  | .ld1 c bsel breg imm => Sys2Proof.Machine.execLd1 c bsel breg imm s
  | .dec0 c => Sys2Proof.Machine.execDec0 c s
  | .dec1 c => Sys2Proof.Machine.execDec1 c s
  | .controlStoreRead c => Sys2Proof.Machine.execControlStoreRead c s
  | .contextReady c => Sys2Proof.Machine.execContextReady c s
  | .scrubWriteback q => Sys2Proof.Machine.execScrubWriteback q s
  | .ctxStart c => Sys2Proof.Machine.execCtxStart c s
  | .ctxResume c => Sys2Proof.Machine.execCtxResume c s
  | .ctxStop c => Sys2Proof.Machine.execCtxStop c s
  | .spineAssertion line => Sys2Proof.Machine.execSpineAssertion line s
  | .decodeComplete c => Sys2Proof.Machine.execDecodeComplete c s
  | .frontEndLineFetch c => Sys2Proof.Machine.execFrontEndLineFetch c s
  | .ostkWrite c k value => Sys2Proof.Machine.execOstkWrite c k value s
  | .portARequestStep c => Sys2Proof.Machine.execPortARequestStep c s
  | .portAWriteStep n => Sys2Proof.Machine.execPortAWriteStep n s
  | .bankReadLatchFill c => Sys2Proof.Machine.execBankReadLatchFill c s
  | .portBAccess n presented => Sys2Proof.Machine.execPortBAccess n presented s
  | .eccWriteback n => Sys2Proof.Machine.execEccWriteback n s
  | .ownershipHandover n owner => Sys2Proof.Machine.execOwnershipHandover n owner s
  | .handoverComplete n => Sys2Proof.Machine.execHandoverComplete n s
  | .marchStartDestructive n gap => Sys2Proof.Machine.execMarchStartDestructive n gap s
  | .marchStartPreserving n gap => Sys2Proof.Machine.execMarchStartPreserving n gap s
  | .marchAbort n gap => Sys2Proof.Machine.execMarchAbort n gap s
  | .marchAccess n => Sys2Proof.Machine.execMarchAccess n s
  | .injWrite n value => Sys2Proof.Machine.execInjWrite n value s
  | .queueGrant k => Sys2Proof.Machine.execQueueGrant k s
  | .push n => Sys2Proof.Machine.execPush n s
  | .pop n => Sys2Proof.Machine.execPop n s
  | .peek n => Sys2Proof.Machine.execPeek n s
  | .pushif n => Sys2Proof.Machine.execPushif n s
  | .popif n => Sys2Proof.Machine.execPopif n s
  | .wmarm n => Sys2Proof.Machine.execWmarm n s
  | .elementAccessComplete n => Sys2Proof.Machine.execElementAccessComplete n s
  | .qdCfgWrite n value => Sys2Proof.Machine.execQdCfgWrite n value s
  | .qdPtrWrite n value => Sys2Proof.Machine.execQdPtrWrite n value s
  | .qdLowHalfRead n ptr => Sys2Proof.Machine.execQdLowHalfRead n ptr s
  | .beamTick => Sys2Proof.Machine.execBeamTick s
  | .beamRunStart => Sys2Proof.Machine.execBeamRunStart s
  | .beamRunStop => Sys2Proof.Machine.execBeamRunStop s
  | .tickdivWrite value => Sys2Proof.Machine.execTickdivWrite value s
  | .geometryWrite which value => Sys2Proof.Machine.execGeometryWrite which value s
  | .leadWrite value => Sys2Proof.Machine.execLeadWrite value s
  | .timerCountEvent t => Sys2Proof.Machine.execTimerCountEvent t s
  | .cmppreWrite t value => Sys2Proof.Machine.execCmppreWrite t value s
  | .timerCountWrite t value => Sys2Proof.Machine.execTimerCountWrite t value s
  | .actionStartTimer t => Sys2Proof.Machine.execActionStartTimer t s
  | .actionStopTimer t => Sys2Proof.Machine.execActionStopTimer t s
  | .actionDmaPacingStep t => Sys2Proof.Machine.execActionDmaPacingStep t s
  | .actionConverterTrigger t => Sys2Proof.Machine.execActionConverterTrigger t s
  | .gstart groups => Sys2Proof.Machine.execGstart groups s
  | .keeperTimerStep k => Sys2Proof.Machine.execKeeperTimerStep k s
  | .dmaSetStart n setB ctl => Sys2Proof.Machine.execDmaSetStart n setB ctl s
  | .dmaBurst n => Sys2Proof.Machine.execDmaBurst n s
  | .dmaSetComplete n => Sys2Proof.Machine.execDmaSetComplete n s
  | .retryDelayEnd n => Sys2Proof.Machine.execRetryDelayEnd n s
  | .dmaQueueRetry n => Sys2Proof.Machine.execDmaQueueRetry n s
  | .dmaStop n => Sys2Proof.Machine.execDmaStop n s
  | .dmaAbort n => Sys2Proof.Machine.execDmaAbort n s
  | .dmaResume n => Sys2Proof.Machine.execDmaResume n s
  | .clrreq n => Sys2Proof.Machine.execClrreq n s
  | .hmGrant => Sys2Proof.Machine.execHmGrant s
  | .hmResponseBeat tag isWrite data last fail => Sys2Proof.Machine.execHmResponseBeat tag isWrite data last fail s
  | .hostMasterTimeout tag => Sys2Proof.Machine.execHostMasterTimeout tag s
  | .engineEdge e => Sys2Proof.Machine.execEngineEdge e s
  | .pioOut e dst n => Sys2Proof.Machine.execPioOut e dst n s
  | .pioIn e src n => Sys2Proof.Machine.execPioIn e src n s
  | .waitp e pol rel pin => Sys2Proof.Machine.execWaitp e pol rel pin s
  | .waite e latch sib event => Sys2Proof.Machine.execWaite e latch sib event s
  | .setp e dst value => Sys2Proof.Machine.execSetp e dst value s
  | .pull e whenDrained noWait => Sys2Proof.Machine.execPull e whenDrained noWait s
  | .pioPush e whenFull noWait => Sys2Proof.Machine.execPioPush e whenFull noWait s
  | .mov e dst src opn => Sys2Proof.Machine.execMov e dst src opn s
  | .jcnt e regY target => Sys2Proof.Machine.execJcnt e regY target s
  | .jcond e cond target => Sys2Proof.Machine.execJcond e cond target s
  | .mark e m => Sys2Proof.Machine.execMark e m s
  | .idle e => Sys2Proof.Machine.execIdle e s
  | .txqWrite e value => Sys2Proof.Machine.execTxqWrite e value s
  | .rxqRead e => Sys2Proof.Machine.execRxqRead e s
  | .txFeedAccess e => Sys2Proof.Machine.execTxFeedAccess e s
  | .rxFeedAccess e => Sys2Proof.Machine.execRxFeedAccess e s
  | .engineEnable e => Sys2Proof.Machine.execEngineEnable e s
  | .engineDisable e => Sys2Proof.Machine.execEngineDisable e s
  | .reload e => Sys2Proof.Machine.execReload e s
  | .clrq e => Sys2Proof.Machine.execClrq e s
  | .clrlat e => Sys2Proof.Machine.execClrlat e s
  | .groupStart g engines => Sys2Proof.Machine.execGroupStart g engines s
  | .groupStop g engines => Sys2Proof.Machine.execGroupStop g engines s
  | .divsync g engines => Sys2Proof.Machine.execDivsync g engines s
  | .imemWrite e idx value => Sys2Proof.Machine.execImemWrite e idx value s
  | .shiftcfgWrite e value => Sys2Proof.Machine.execShiftcfgWrite e value s
  | .pinEvent n level => Sys2Proof.Machine.execPinEvent n level s
  | .pinFunctionSwitch n cfg => Sys2Proof.Machine.execPinFunctionSwitch n cfg s
  | .pinSwitchSettled n => Sys2Proof.Machine.execPinSwitchSettled n s
  | .gpioRead k ask => Sys2Proof.Machine.execGpioRead k ask s
  | .gpioSet k word mask => Sys2Proof.Machine.execGpioSet k word mask s
  | .gpioClr k word mask => Sys2Proof.Machine.execGpioClr k word mask s
  | .gpioTog k word mask => Sys2Proof.Machine.execGpioTog k word mask s
  | .gpioOeset k word mask => Sys2Proof.Machine.execGpioOeset k word mask s
  | .gpioOeclr k word mask => Sys2Proof.Machine.execGpioOeclr k word mask s
  | .gpiosetWrite k value => Sys2Proof.Machine.execGpiosetWrite k value s
  | .gpioclrWrite k value => Sys2Proof.Machine.execGpioclrWrite k value s
  | .gpiotogWrite k value => Sys2Proof.Machine.execGpiotogWrite k value s
  | .linkEnable p => Sys2Proof.Machine.execLinkEnable p s
  | .retrain p => Sys2Proof.Machine.execRetrain p s
  | .linkLoss p => Sys2Proof.Machine.execLinkLoss p s
  | .alignmentComplete p => Sys2Proof.Machine.execAlignmentComplete p s
  | .idleBlock block => Sys2Proof.Machine.execIdleBlock block s
  | .stomp p => Sys2Proof.Machine.execStomp p s
  | .startBlock p frame => Sys2Proof.Machine.execStartBlock p frame s
  | .echoreq p t1 => Sys2Proof.Machine.execEchoreq p t1 s
  | .echorsp p t1 turn crc => Sys2Proof.Machine.execEchorsp p t1 turn crc s
  | .credit p vcA freedA vcB freedB => Sys2Proof.Machine.execCredit p vcA freedA vcB freedB s
  | .beamMarker p tick line phase frame hold => Sys2Proof.Machine.execBeamMarker p tick line phase frame hold s
  | .align p => Sys2Proof.Machine.execAlign p s
  | .echoInterval p => Sys2Proof.Machine.execEchoInterval p s
  | .write p frame => Sys2Proof.Machine.execWrite p frame s
  | .qpush p frame => Sys2Proof.Machine.execQpush p frame s
  | .event p frame => Sys2Proof.Machine.execEvent p frame s
  | .lineahead p frame => Sys2Proof.Machine.execLineahead p frame s
  | .deliveryPushRetry p => Sys2Proof.Machine.execDeliveryPushRetry p s
  | .pressFrame p frame => Sys2Proof.Machine.execPressFrame p frame s
  | .hello p payload => Sys2Proof.Machine.execHello p payload s
  | .wallsync p word0 word1 => Sys2Proof.Machine.execWallsync p word0 word1 s
  | .enum p next epoch => Sys2Proof.Machine.execEnum p next epoch s
  | .enumdone p next => Sys2Proof.Machine.execEnumdone p next s
  | .enumrej p => Sys2Proof.Machine.execEnumrej p s
  | .routeann p src reqenum => Sys2Proof.Machine.execRouteann p src reqenum s
  | .rejoin p code => Sys2Proof.Machine.execRejoin p code s
  | .frameSelect p => Sys2Proof.Machine.execFrameSelect p s
  | .creditStarvation p vc forwarded => Sys2Proof.Machine.execCreditStarvation p vc forwarded s
  | .markerTimeout => Sys2Proof.Machine.execMarkerTimeout s
  | .enumCommand => Sys2Proof.Machine.execEnumCommand s
  | .rhoEnableChange enable => Sys2Proof.Machine.execRhoEnableChange enable s
  | .wpress value => Sys2Proof.Machine.execWpress value s
  | .stitchWakeSideband p => Sys2Proof.Machine.execStitchWakeSideband p s
  | .registerWrite addr be data => Sys2Proof.Machine.execRegisterWrite addr be data s
  | .pairedLowHalfWrite addr data => Sys2Proof.Machine.execPairedLowHalfWrite addr data s
  | .unlistedPageAccess access isWrite => Sys2Proof.Machine.execUnlistedPageAccess access isWrite s
  | .accessTimeout addr isWrite => Sys2Proof.Machine.execAccessTimeout addr isWrite s
  | .bankWindowAccess addr isWrite be data => Sys2Proof.Machine.execBankWindowAccess addr isWrite be data s
  | .bankWindowTimeout addr isWrite => Sys2Proof.Machine.execBankWindowTimeout addr isWrite s
  | .hostDoorbell value => Sys2Proof.Machine.execHostDoorbell value s
  | .lpRecordPresent p => Sys2Proof.Machine.execLpRecordPresent p s
  | .lpReady p => Sys2Proof.Machine.execLpReady p s
  | .sampleTick k => Sys2Proof.Machine.execSampleTick k s
  | .soundRecordPresent snd => Sys2Proof.Machine.execSoundRecordPresent snd s
  | .soundUnderrun k channel => Sys2Proof.Machine.execSoundUnderrun k channel s
  | .blitAcceptance => Sys2Proof.Machine.execBlitAcceptance s
  | .blitCommandPresent => Sys2Proof.Machine.execBlitCommandPresent s
  | .blDone => Sys2Proof.Machine.execBlDone s
  | .blitgoTimeout c => Sys2Proof.Machine.execBlitgoTimeout c s
  | .pwrfailTaken => Sys2Proof.Machine.execPwrfailTaken s
  | .pwrfailGlitch => Sys2Proof.Machine.execPwrfailGlitch s
  | .flushPortTransfer => Sys2Proof.Machine.execFlushPortTransfer s
  | .raise source => Sys2Proof.Machine.execRaise source s
  | .interruptOffer => Sys2Proof.Machine.execInterruptOffer s
  | .ivAck k => Sys2Proof.Machine.execIvAck k s
  | .ivEoi k => Sys2Proof.Machine.execIvEoi k s
  | .clract k => Sys2Proof.Machine.execClract k s
  | .marchtdrUpdate value => Sys2Proof.Machine.execMarchtdrUpdate value s
  | .tdrCapture sel => Sys2Proof.Machine.execTdrCapture sel s
  | .scantdrUpdate => Sys2Proof.Machine.execScantdrUpdate s
  | .fswGo value => Sys2Proof.Machine.execFswGo value s
  | .synthesiserLock => Sys2Proof.Machine.execSynthesiserLock s
  | .fclkSwitch => Sys2Proof.Machine.execFclkSwitch s
  | .fswAbort => Sys2Proof.Machine.execFswAbort s
  | .sclkLost => Sys2Proof.Machine.execSclkLost s
  | .domainRequestWrite d req auto lowret => Sys2Proof.Machine.execDomainRequestWrite d req auto lowret s
  | .domainLower d => Sys2Proof.Machine.execDomainLower d s
  | .demandWake d kind => Sys2Proof.Machine.execDemandWake d kind s
  | .domainExitComplete d => Sys2Proof.Machine.execDomainExitComplete d s
  | .keepExpiry d => Sys2Proof.Machine.execKeepExpiry d s
  | .fclkStop => Sys2Proof.Machine.execFclkStop s
  | .fclkRestart => Sys2Proof.Machine.execFclkRestart s
  | .pwrfailEdgeLatch => Sys2Proof.Machine.execPwrfailEdgeLatch s
  | .krstRelease => Sys2Proof.Machine.execKrstRelease s
  | .rstRelease => Sys2Proof.Machine.execRstRelease s
  | .modeWrite mode => Sys2Proof.Machine.execModeWrite mode s
  | .testModeChange level => Sys2Proof.Machine.execTestModeChange level s
  | .watchdogFire => Sys2Proof.Machine.execWatchdogFire s
  | .cstWordCommit q data2 => Sys2Proof.Machine.execCstWordCommit q data2 s
  | .load q => Sys2Proof.Machine.execLoad q s
  | .folioLoadComplete q => Sys2Proof.Machine.execFolioLoadComplete q s
  | .scrubRead q => Sys2Proof.Machine.execScrubRead q s
  | .folioReloadComplete q => Sys2Proof.Machine.execFolioReloadComplete q s
  | .recordWrite => Sys2Proof.Machine.execRecordWrite s
  | .sclkRefill code => Sys2Proof.Machine.execSclkRefill code s
  | .freeze => Sys2Proof.Machine.execFreeze s
  | .thaw => Sys2Proof.Machine.execThaw s
  | .rdseqWrite value => Sys2Proof.Machine.execRdseqWrite value s
  | .colFlush => Sys2Proof.Machine.execColFlush s
  | .flushPush => Sys2Proof.Machine.execFlushPush s
  | .authWrite value => Sys2Proof.Machine.execAuthWrite value s
  | .clearWrite value => Sys2Proof.Machine.execClearWrite value s
  | .seqbaseWrite value => Sys2Proof.Machine.execSeqbaseWrite value s
  | .defaultBase => Sys2Proof.Machine.execDefaultBase s
  | .pressTrig => Sys2Proof.Machine.execPressTrig s
  | .pressArm => Sys2Proof.Machine.execPressArm s
  | .pressLatch => Sys2Proof.Machine.execPressLatch s
  | .domainEntryComplete d => Sys2Proof.Machine.execDomainEntryComplete d s
  | .fclkRestartLock => Sys2Proof.Machine.execFclkRestartLock s
  | .pwrfailEdgeGlitch => Sys2Proof.Machine.execPwrfailEdgeGlitch s
  | .resetAsserted cold => Sys2Proof.Machine.execResetAsserted cold s
  | .pwrfailFall => Sys2Proof.Machine.execPwrfailFall s
  | .descriptorWriteback k => Sys2Proof.Machine.execDescriptorWriteback k s
  | .eventOutFall n => Sys2Proof.Machine.execEventOutFall n s

end Sys2Proof.Machine
end

