-- ==== Sys2Proof/Machine/Tick.lean ====
section
/-! DEFINITION. What an FCLK does with no command waiting (log entry 2): the FCLK count advances, stitch time advances by RHO.STBINC (R296),
the levels that pace DMA channels are examined (R245, R247), and the accesses that the bank window holds go on (R332). -/

namespace Sys2Proof.Machine

/-- Stitch time advances by STBINC while the timer unit runs (R296): 32 bits of 2^-8 ns, kept with 16 more below. -/
def State.stitchTick (s : State) : State :=
  if s.unitOn domTimer then { s with rho := { s.rho with time := (s.rho.time + s.get F.RHO_STBINC_STBINC) % 2 ^ 48 } } else s

/-- One FCLK, while FCLK runs. A BCLK begins with every even FCLK (log entry 2). -/
def State.tick (s : State) : State :=
  if s.pwr.running then
    let t := { s.stitchTick.dmaLevels with fclk := s.fclk + 1 }
    t.windowRun ((s.fclk + 1) % 2 == 0)
  else s

end Sys2Proof.Machine
end

