-- ==== Sys2Proof/Safety.lean ====
section
/-! DEFINITION. What counts as a safe run: it does not stop, and its tables stay canonical (`State.wf`,
`Machine/Canon.lean`). Here too are the conditions under which statements are made. -/

namespace Sys2Proof.Machine

/-! When a word of a context executes normally (R58, R60, R112, R115): statements about one-operation rows assume it. -/

/-- A context that can issue: started, in no hold, with no word in flight, no STOP and no class 9 fault pending, its folio not being
loaded, its quire ON, and not at its poll limit. -/
abbrev State.ctxFree (s : State) (c : Nat) : Prop :=
  ((s.cx c).st = .ready ∨ (s.cx c).st = .stall) ∧ (s.cx c).inflight = none ∧ (s.cx c).hold = none ∧ (s.cx c).pend9 = none ∧
  (s.cx c).stopPend = false ∧ s.folioBusy (quireOf c) (s.cx c).maddr = false ∧ s.unitOn (domQuire (quireOf c)) = true ∧
  (s.cx c).pollcnt ≠ s.get (F.CTX_CTXCFG_POLLLIM c)

/-- A B operand that can be read: a latch it selects has no fill outstanding (R40, R60). -/
abbrev State.bReady (s : State) (c : Nat) (bsel : BitVec 3) : Prop :=
  (bsel = 2 → (s.cx c).bEmpty = false) ∧ (bsel = 3 → (s.cx c).qEmpty = false)

/-- A condition that does not wait: 14 for queue operations, 15, 16 and 27 for bank operations (R37, R60). -/
abbrev State.condReady (s : State) (c : Nat) (cond : BitVec 6) : Prop :=
  (cond = 14 → (s.cx c).qops = []) ∧ (cond = 15 ∨ cond = 16 ∨ cond = 27 → (s.cx c).ops = [])

/-- The bank and queue answers a context need not wait for: STOWN and STQ are clear (R85, R115). -/
abbrev State.noStrict (s : State) (c : Nat) : Prop := s.opt c 6 = false ∧ s.opt c 8 = false

/-- The condition of a word with every other field zero, whose A and B operands are G0 (R28, R37). -/
def State.plainCond (s : State) (c : Nat) (cond : BitVec 6) : Bool := s.condition c 0 (s.g c 0) (s.g c 0) cond.toNat

/-- The B operand of a word that carries BSEL, BREG and IMM (R39). -/
def State.plainB (s : State) (c : Nat) (bsel : BitVec 3) (breg : BitVec 4) (imm : Word) : Word :=
  s.operandB c (mwd [(143, 3, bsel.toNat), (146, 4, breg.toNat), (0, 64, imm.toNat)])

/-- Context `c`, whose other state has become `x`, after a word without POLL, hold, WAIT or PARK has run in state `s` (R58, R60, R111):
its next word is awaited at `next`. -/
def State.after (s : State) (c : Nat) (x : Ctx) (next : BitVec 14) : Ctx :=
  { x with st := .stall, word := .empty, inflight := none, maddr := next, routine := none, ownAddr := (s.cx c).maddr, ownRt := none,
           waitPoll := false, waitAll := s.opt c 9, waitTrap := s.opt c 3
           waitVec := BitVec.ofNat 14 (s.get (F.CTX_URGVEC_URGVEC c)), pollcnt := Nat.min ((s.cx c).pollcnt + 1) 65535 }

/-- The colophon takes an occurrence of a code as it comes (R389, R392): based, not frozen, the code not limited, room in the intake, and
nothing yet accepted in this FCLK. -/
abbrev State.records (s : State) (code : Nat) : Prop :=
  s.on F.COL_STATUS_BASED = true ∧ s.col.freezing = false ∧ s.get (rateRF code 12 2) = 0 ∧ s.acceptedNow = 0 ∧
  (s.col.intake.filter (fun o => !o.own)).length < 16

/-- The newest entry of the intake is a record of the block's own with these contents (R387, R389). -/
def State.recorded (t : State) (code source : Nat) (a0 a1 a2 : Word) : Prop :=
  ∃ o, t.col.intake.getLast? = some o ∧ o.code = code ∧ o.source = source ∧ o.sw = false ∧ o.a0 = a0 ∧ o.a1 = a1 ∧ o.a2 = a2

/-- Nothing outside a context's own page changes but what a fault's report reaches: the colophon, the spine, the interrupt controller, the
press (R117, R118, R400). -/
abbrev State.reportsOnly (s t : State) : Prop :=
  t = { s with regs := t.regs, ctx := t.ctx, col := t.col, posted := t.posted, prs := t.prs }

/-- The frame of a command of context `c`: nothing outside the registers and the contexts changes, no other context, and no register
but those listed. -/
abbrev State.keeps (s t : State) (c : Nat) (keys : List Nat) : Prop :=
  t = { s with regs := t.regs, ctx := t.ctx } ∧ (∀ d, d ≠ c → t.cx d = s.cx d) ∧ ∀ k, k ∉ keys → t.reg k = s.reg k

/-- An engine that starts a word at its next edge: it runs, with no delay to count and no stalled word (R266). -/
abbrev State.pioFree (s : State) (e : Nat) : Prop := s.pioRuns e = true ∧ (s.en e).delay = 0 ∧ (s.en e).stalled = none

/-- An engine at that edge, its divider moved on (R264), after a word with no DELAY that changes nothing and stays in place (R266). -/
def State.edgeOf (s : State) (e : Nat) : Engine := { (s.pioDivide e).en e with stalled := none, delay := 0, seen := false }

/-- The PC after a word that does not jump (R266). -/
def State.pcNext (s : State) (e : Nat) : Nat := s.pioNext e (s.en e).pc none

/-- The frame of an engine's command: nothing but that engine's typed state changes, and it becomes `x`. -/
abbrev State.onlyEn (s t : State) (e : Nat) (x : Engine) : Prop :=
  t = { s with pio := t.pio } ∧ t.en e = x ∧ ∀ k, k ≠ e → t.en k = s.en k

/-- A stitch port ready for a frame: its domain runs, its link is UP, nothing is being received and nothing is buffered (R295, R300). -/
abbrev State.portIdle (s : State) (p : Nat) : Prop :=
  s.unitOn (domStitch p) = true ∧ s.lstate p = 3 ∧ (s.sp p).rx = none ∧ (s.sp p).buf = []

/-- A frame that passes every check of R299. -/
abbrev frameSound (f : Frame) : Prop :=
  f.crcOk = true ∧ f.len ≤ 512 ∧ f.blocks = (27 + f.len) / 8 ∧ f.hmode ≠ 3 ∧ typeReserved f.type = false ∧ lenBad f.type f.len = false

/-- A frame for this device alone (R304). -/
abbrev State.forHere (s : State) (p : Nat) (f : Frame) : Prop := frameSound f ∧ s.routing p f = (true, [], false)

/-- A queue of which a push can be accepted and performed at once (R199, R200): its slice runs and has nothing to do, its descriptor is good,
the queue takes the element, and its ring's bank answers. -/
abbrev State.queueTakes (s : State) (port n : Nat) : Prop :=
  s.unitOn (domSlice (n % 16)) = true ∧ s.sl (n % 16) = Slice.reset ∧ s.qdPattern n 0 = 0 ∧ s.qdPattern n 1 = 0 ∧
  (match s.verdict port 4 n (s.on (F.QD_CFG_EN n)) with | .slot i => s.elemReady n i | _ => false) = true

/-- A command runs: it answers a next state. -/
def Runs (i : Instr) (s : State) : Prop := ∃ t, exec i s = .next t

/-- A command stops the run. -/
def Stops (i : Instr) (s : State) : Prop := ¬ Runs i s

end Sys2Proof.Machine
end

