-- ==== Sys2Proof/Certificates/Slice0/Obligations.lean ====
section
/-! DEFINITION. The statements for the provers, family by family. Each is a conjunction of parts; its docstring says what each part states, in
order, with the numbered rules it follows. -/

open Sys2Proof Sys2Proof.Machine

/-- CONT, JUMP and PARK name their next address outright (R28, R35). BRT and BRF with a COND that is not reserved (R28): TARGET or the next
word, as the effective condition says. A form that uses a reserved COND sequences as CONT, and is counted once with its address (R26, R29).
LOOP (R32): the counter CPOL selects counts down, and the word branches while it is not zero; a counter at zero stays, and the word falls
through. Nothing else changes. TDISP (R33): TARGET plus the field of G[AREG], modulo 16,384; with a reserved width the word sequences as
CONT and is counted. Every condition code (R37), for any word and operands: what makes it true. Codes 58 to 63 are never true; code 28 is
stated where A[MEMAR] lies in bank space, and code 43 for AMOD 6 where the index has a bit (log entry 62). Each row of one operation runs as
a whole word at once: the model's row operands, log entry 3. -/
def Obligations.SequencingForms : Prop :=
  -- UnconditionalForms
  (∀ (s : State) (c : Fin 1024), s.ctxFree c →
     let x := s.cx c
     exec (.cont c) s = .next (s.setCx c (s.after c x (x.maddr + 1))) ∧
     (∀ target, exec (.jump c target) s = .next (s.setCx c (s.after c x target))) ∧
     ∀ target, exec (.park c target) s = .next (s.setCx c { s.after c x target with st := .parked })) ∧
  -- Branches
  (∀ (s : State) (c : Fin 1024) (cond : BitVec 6) (cpol : Bool) (target : BitVec 14), s.ctxFree c → s.condReady c cond →
     condReserved cond.toNat = false →
     let x := s.cx c
     let eff := s.plainCond c cond != cpol
     exec (.brt c cond cpol target) s = .next (s.setCx c (s.after c x (if eff = true then target else x.maddr + 1))) ∧
     exec (.brf c cond cpol target) s = .next (s.setCx c (s.after c x (if eff = true then x.maddr + 1 else target)))) ∧
  -- ReservedConditionSequencesAsCont
  (∀ (s : State) (c : Fin 1024) (cond : BitVec 6) (cpol : Bool) (target : BitVec 14), s.ctxFree c →
     condReserved cond.toNat = true →
     ∀ i, (i = .brt c cond cpol target ∨ i = .brf c cond cpol target ∨ i = .callc c cond cpol target ∨ i = .ret c cond cpol ∨
         i = .wait c cond cpol false target) →
       ∃ t, exec i s = .next t ∧ t.cx c = s.after c (s.cx c) ((s.cx c).maddr + 1) ∧
         s.keeps t c [R.QUI_RSVCNT (quireOf c), (errcnt (quiPage (quireOf c))).key] ∧
         t.get (F.QUI_RSVCNT_COUNT (quireOf c)) = Nat.min (s.get (F.QUI_RSVCNT_COUNT (quireOf c)) + 1) (2 ^ 32 - 1) ∧
         t.get (F.QUI_RSVCNT_LAST (quireOf c)) = (s.cx c).maddr.toNat ∧
         t.get (errcnt (quiPage (quireOf c))) = Nat.min (s.get (errcnt (quiPage (quireOf c))) + 1) (2 ^ 32 - 1)) ∧
  -- LoopCountsDown
  (∀ (s : State) (c : Fin 1024) (cpol : Bool) (target : BitVec 14), s.ctxFree c →
     let n := s.get (lcRF c (b2n cpol))
     exec (.loop c cpol target) s =
       .next ((s.put (lcRF c (b2n cpol)) (n - 1)).setCx c (s.after c (s.cx c) (if n - 1 ≠ 0 then target else (s.cx c).maddr + 1)))) ∧
  -- TableDispatch
  (∀ (s : State) (c : Fin 1024) (width : BitVec 6) (areg : BitVec 4) (shamt : BitVec 6) (target : BitVec 14), s.ctxFree c →
     let valid := 1 ≤ width.toNat ∧ width.toNat ≤ 14
     let field := (s.g c areg.toNat).toNat / 2 ^ shamt.toNat % 2 ^ width.toNat
     ∃ t, exec (.tdisp c width areg shamt target) s = .next t ∧
       t.cx c = s.after c (s.cx c) (if valid then BitVec.ofNat 14 ((target.toNat + field) % 16384) else (s.cx c).maddr + 1) ∧
       s.keeps t c (if valid then [] else [R.QUI_RSVCNT (quireOf c), (errcnt (quiPage (quireOf c))).key]) ∧
       (¬ valid → t.get (F.QUI_RSVCNT_COUNT (quireOf c)) = Nat.min (s.get (F.QUI_RSVCNT_COUNT (quireOf c)) + 1) (2 ^ 32 - 1))) ∧
  -- ConditionCodes
  (∀ (s : State) (c : Nat) (w : Micro) (a b : Word),
     let x := s.cx c
     let is := fun (code : Nat) (p : Prop) => (s.condition c w a b code = true ↔ p)
     let flag := fun (i : Nat) => bit (s.reg (R.CTX_FLAGPRED c)) i = true
     let addr := s.get (aRF c (mMemar w))
     let size := memSize (mMemop w)
     let m := s.get (mRF c (mMemar w))
     is 0 True ∧ (∀ n, 58 ≤ n → is n False) ∧ is 1 (flag 1) ∧ is 2 (flag 2) ∧ is 3 (flag 3) ∧ is 4 (flag 0) ∧
     (∀ n, 1 ≤ n → n ≤ 7 → is (4 + n) (flag (8 + n))) ∧ is 12 (s.get (lcRF c 0) = 0) ∧ is 13 (s.get (lcRF c 1) = 0) ∧
     is 14 (x.qok = true) ∧ is 15 (x.atomZero = true) ∧ is 16 (x.poisoned = true) ∧
     is 17 (∃ e ∈ x.entries, e.u = true ∧ e.p = true) ∧ is 18 (flag 4) ∧ is 19 (flag 5) ∧ is 20 (flag 1 ∧ ¬flag 2) ∧
     is 21 (¬flag 1 ∨ flag 2) ∧ is 22 (¬(flag 3 ↔ flag 0)) ∧ is 23 (¬(flag 3 ↔ flag 0) ∨ flag 2) ∧ is 24 (x.bEmpty = false) ∧
     is 25 (x.qEmpty = false) ∧ is 26 (x.divReady = true) ∧ is 27 (x.corrected = true) ∧
     (addr < 2 ^ 25 → is 28 (s.on (F.BNK_OWN_PEND (addr / 2 ^ 18)) = true)) ∧
     (s.opt c 9 = false → is 29 (∃ e ∈ x.entries, e.w = true ∧ e.p = true)) ∧
     (s.opt c 9 = true → is 29 ((∃ e ∈ x.entries, e.w = true) ∧ ∀ e ∈ x.entries, e.w = true → e.p = true)) ∧
     is 30 (x.urg = true) ∧ is 31 (x.nxt ≠ none) ∧
     (x.cur = none → is 32 False ∧ is 33 False ∧ is 34 True ∧ is 35 False) ∧
     (∀ d, x.cur = some d → is 32 (bit d.word 8 = true) ∧ is 33 (bit d.word 9 = true) ∧
       is 34 (bit d.word 13 = true → s.pred c (fld d.word 14 3) ≠ bit d.word 17) ∧ is 35 (fld d.word 10 2 ≠ 0)) ∧
     is 36 (a.getLsbD (mShamt w) = true) ∧ is 37 (a = 0) ∧ is 38 (fld a 0 32 = 0) ∧ is 39 (a.msb = true) ∧ is 40 (a = b) ∧
     is 41 (a.toNat < b.toNat) ∧ is 42 (a.toInt < b.toInt) ∧
     (mAmod w = 4 → is 43 (m % 32 ≠ 0 ∧ amodAddr 4 addr size m (iStep w) ≠ (addr + size) % 2 ^ 32)) ∧
     (mAmod w = 5 → is 43 (m % 32 ≠ 0 ∧ amodAddr 5 addr size m (iStep w) ≠ (addr + 2 ^ 32 - size) % 2 ^ 32)) ∧
     (mAmod w = 6 → m % 32 = 0 ∨ m.testBit 5 = false → is 43 False) ∧
     (mAmod w = 6 → m.testBit 5 = true → Nat.log2 size < m % 32 →
       is 43 (amodAddr 6 addr size m (iStep w) / 2 ^ Nat.log2 size % 2 ^ (m % 32 - Nat.log2 size) = 0)) ∧
     (mAmod w ∉ [4, 5, 6] → is 43 False) ∧ is 44 (s.get (lcRF c 0) = 1) ∧ is 45 (s.get (lcRF c 1) = 1) ∧ is 46 (x.mstk = []) ∧
     is 47 (4 ≤ x.mstk.length) ∧ is 48 (s.ostk c = []) ∧ is 49 (16 ≤ (s.ostk c).length) ∧
     is 50 (s.get F.BEAM_HACT_HAS ≤ s.beam.tick ∧ s.beam.tick < s.get F.BEAM_HACT_HAE) ∧
     is 51 (s.get F.BEAM_VACT_VAS ≤ s.beam.line ∧ s.beam.line < s.get F.BEAM_VACT_VAE) ∧ is 52 (s.beam.frame % 2 = 1) ∧
     is 53 (s.on F.RHO_STATUS_HOLD = true) ∧ is 54 (s.get F.RHO_STATUS_ROLE = 1 ∨ s.get F.RHO_STATUS_ROLE = 3) ∧
     is 55 (s.pwr.pwrfail = true) ∧ is 56 (s.on F.COL_STATUS_FROZEN = true) ∧
     is 57 (s.opt c 6 = true ∨ s.opt c 7 = true ∨ s.opt c 8 = true))

/-- CALL, CALLC and a RET that finds an entry, on the micro return stack (R28, R30, R108). A push on a full micro return stack (R30): with
MSTRAP clear the oldest entry goes and the push is counted; with MSTRAP set the context is faulted with class 4, its stack and micro address
as they were. A taken RET on an empty micro return stack sequences as CONT and is counted, and is no fault (R31). Each row of one operation
runs as a whole word at once: the model's row operands, log entry 3. -/
def Obligations.MicroReturnStack : Prop :=
  -- CallsAndReturns
  (∀ (s : State) (c : Fin 1024) (cond : BitVec 6) (cpol : Bool) (target : BitVec 14), s.ctxFree c → s.condReady c cond →
     condReserved cond.toNat = false →
     let x := s.cx c
     let taken := s.plainCond c cond != cpol
     let pushed : Ctx := { s.after c x target with mstk := ⟨x.maddr + 1, false, none⟩ :: x.mstk }
     (x.mstk.length < 4 →
       exec (.call c target) s = .next (s.setCx c pushed) ∧
       exec (.callc c cond cpol target) s = .next (s.setCx c (if taken = true then pushed else s.after c x (x.maddr + 1)))) ∧
     ∀ e rest, x.mstk = e :: rest →
       exec (.ret c cond cpol) s = .next (s.setCx c
         (if taken = true then { s.after c x e.addr with mstk := rest, urg := x.urg && !e.urgent, routine := e.cont }
           else s.after c x (x.maddr + 1)))) ∧
  -- FullMicroStack
  (∀ (s : State) (c : Fin 1024) (target : BitVec 14), s.ctxFree c → (s.cx c).mstk.length = 4 →
     let x := s.cx c
     (s.opt c 3 = false → ∃ t, exec (.call c target) s = .next t ∧
       (t.cx c).mstk = ⟨x.maddr + 1, false, none⟩ :: x.mstk.take 3 ∧ (t.cx c).maddr = target ∧ (t.cx c).st = .stall ∧
       s.keeps t c [R.QUI_SEQERR (quireOf c), (errcnt (quiPage (quireOf c))).key] ∧
       t.get (F.QUI_SEQERR_MSWRAP (quireOf c)) = Nat.min (s.get (F.QUI_SEQERR_MSWRAP (quireOf c)) + 1) (2 ^ 16 - 1) ∧
       t.get (errcnt (quiPage (quireOf c))) = Nat.min (s.get (errcnt (quiPage (quireOf c))) + 1) (2 ^ 32 - 1)) ∧
     (s.opt c 3 = true → ∃ t, exec (.call c target) s = .next t ∧ (t.cx c).st = .faulted ∧ (t.cx c).fclass = 4 ∧
       (t.cx c).mstk = x.mstk ∧ (t.cx c).maddr = x.maddr)) ∧
  -- ReturnOnEmptyStack
  (∀ (s : State) (c : Fin 1024) (cond : BitVec 6) (cpol : Bool), s.ctxFree c → s.condReady c cond →
     condReserved cond.toNat = false → (s.cx c).mstk = [] → (s.plainCond c cond != cpol) = true →
     ∃ t, exec (.ret c cond cpol) s = .next t ∧ t.cx c = s.after c (s.cx c) ((s.cx c).maddr + 1) ∧
       s.keeps t c [R.QUI_SEQERR (quireOf c), (errcnt (quiPage (quireOf c))).key] ∧
       t.get (F.QUI_SEQERR_MSUNDER (quireOf c)) = Nat.min (s.get (F.QUI_SEQERR_MSUNDER (quireOf c)) + 1) (2 ^ 16 - 1) ∧
       t.get (errcnt (quiPage (quireOf c))) = Nat.min (s.get (errcnt (quiPage (quireOf c))) + 1) (2 ^ 32 - 1))

/-- WAIT without POLL (R34): with its effective condition true, the context waits for its mask, resuming at TARGET, or goes on there at once
when the mask is satisfied, EVLAST then naming the lowest pending event; with it false, the next word follows. A POLL-marked WAIT with an
urgent event pending and URG clear diverts (R57, R108): it does nothing itself, its own address goes on the micro return stack with the
urgent mark, URG is set, EVLAST names the lowest urgent event, and the context goes to URGVEC. Each row of one operation runs as a whole
word at once: the model's row operands, log entry 3. -/
def Obligations.WaitsAndUrgentEvents : Prop :=
  -- WaitForms
  (∀ (s : State) (c : Fin 1024) (cond : BitVec 6) (cpol : Bool) (target : BitVec 14), s.ctxFree c → s.condReady c cond →
     condReserved cond.toNat = false →
     let x := s.cx c
     exec (.wait c cond cpol false target) s = .next (s.setCx c
       (if (s.plainCond c cond != cpol) = true then
         (if x.waitMet (s.opt c 9) = true then { s.after c x target with evlast := x.lowestW } else { s.after c x target with st := .wait })
       else s.after c x (x.maddr + 1)))) ∧
  -- UrgentDiversion
  (∀ (s : State) (c : Fin 1024) (cond : BitVec 6) (cpol : Bool) (target : BitVec 14), s.ctxFree c → s.condReady c cond →
     condReserved cond.toNat = false → (s.cx c).mstk.length < 4 → (s.cx c).urg = false → (s.cx c).urgentMet = true →
     (s.cx c).routine = none →
     let x := s.cx c
     ∃ t, exec (.wait c cond cpol true target) s = .next t ∧ s.keeps t c [] ∧ (t.cx c).mstk = ⟨x.maddr, true, none⟩ :: x.mstk ∧
       (t.cx c).urg = true ∧ (t.cx c).evlast = x.lowestU ∧ (t.cx c).st = .stall ∧
       (t.cx c).maddr = BitVec.ofNat 14 (s.get (F.CTX_URGVEC_URGVEC c)) ∧ (t.cx c).pollcnt = 0)

/-- ADD, ADC, SUB, SBC, RSUB, NEG, CMP, INC and DEC, at 64 bits and, from code 0x20, at 32 bits: the result modulo 2^n, the carry or "no borrow"
offered as C, the signed overflow offered as V (R43, R63, R68). ADDS, SUBS, ADDUS, SUBUS and ABS, at 64 and 32 bits: the clamps, V exactly
when the result saturated or A is most negative, and C (R43, R63, R68, R70). PASSA, PASSB, the logic codes, TST, MIN, MAX, MINU, MAXU and
SELC, at 64 bits and, from code 0x20, at 32 bits (R43, R63, R68): C and V are those from before the word. Code 0 and the reserved codes pass
A and offer no flag. -/
def Obligations.AluResults : Prop :=
  -- AluSumsAndDifferences
  (∀ (n : Nat), (n = 64 ∨ n = 32) → ∀ (a b : Word) (c v : Bool),
     let op := fun (k : Nat) => alu (if n = 32 then k + 32 else k) a b c v
     let x : BitVec n := a.setWidth n
     let y : BitVec n := b.setWidth n
     let k : Nat := if c then 1 else 0
     let j : Nat := if c then 0 else 1
     let wide := fun (i : Int) => decide (i < -2 ^ (n - 1) ∨ 2 ^ (n - 1) ≤ i)
     op 2 = ⟨(x + y).toNat, some (decide (2 ^ n ≤ x.toNat + y.toNat)), some (wide (x.toInt + y.toInt)), true, true⟩ ∧
     op 3 = ⟨(x + y + BitVec.ofNat n k).toNat, some (decide (2 ^ n ≤ x.toNat + y.toNat + k)), some (wide (x.toInt + y.toInt + k)), true, true⟩ ∧
     op 4 = ⟨(x - y).toNat, some (decide (y.toNat ≤ x.toNat)), some (wide (x.toInt - y.toInt)), true, true⟩ ∧
     op 5 = ⟨(x - y - BitVec.ofNat n j).toNat, some (decide (y.toNat + j ≤ x.toNat)), some (wide (x.toInt - y.toInt - j)), true, true⟩ ∧
     op 6 = ⟨(y - x).toNat, some (decide (x.toNat ≤ y.toNat)), some (wide (y.toInt - x.toInt)), true, true⟩ ∧
     op 7 = ⟨(-x).toNat, some (x == 0), some (x == BitVec.intMin n), true, true⟩ ∧ op 15 = { op 4 with writes := false } ∧
     op 26 = ⟨(x + 1).toNat, some (decide (2 ^ n ≤ x.toNat + 1)), some (wide (x.toInt + 1)), true, true⟩ ∧
     op 27 = ⟨(x - 1).toNat, some (decide (1 ≤ x.toNat)), some (wide (x.toInt - 1)), true, true⟩) ∧
  -- AluSaturation
  (∀ (n : Nat), (n = 64 ∨ n = 32) → ∀ (a b : Word) (c v : Bool),
     let op := fun (k : Nat) => alu (if n = 32 then k + 32 else k) a b c v
     let x : BitVec n := a.setWidth n
     let y : BitVec n := b.setWidth n
     let wide := fun (i : Int) => decide (i < -2 ^ (n - 1) ∨ 2 ^ (n - 1) ≤ i)
     let clamp := fun (i : Int) (r : BitVec n) =>
       if 2 ^ (n - 1) ≤ i then BitVec.intMax n else if i < -2 ^ (n - 1) then BitVec.intMin n else r
     op 21 = ⟨(if x.msb = true then -x else x).toNat, some c, some (x == BitVec.intMin n), true, true⟩ ∧
     op 22 = ⟨(clamp (x.toInt + y.toInt) (x + y)).toNat, some (decide (2 ^ n ≤ x.toNat + y.toNat)), some (wide (x.toInt + y.toInt)), true, true⟩ ∧
     op 23 = ⟨(clamp (x.toInt - y.toInt) (x - y)).toNat, some (decide (y.toNat ≤ x.toNat)), some (wide (x.toInt - y.toInt)), true, true⟩ ∧
     op 24 = ⟨(if 2 ^ n ≤ x.toNat + y.toNat then BitVec.allOnes n else x + y).toNat, some (decide (2 ^ n ≤ x.toNat + y.toNat)),
       some (decide (2 ^ n ≤ x.toNat + y.toNat)), true, true⟩ ∧
     op 25 = ⟨(if x.toNat < y.toNat then 0 else x - y).toNat, some (decide (y.toNat ≤ x.toNat)), some (decide (x.toNat < y.toNat)), true, true⟩) ∧
  -- AluLogicAndSelection
  (∀ (n : Nat), (n = 64 ∨ n = 32) → ∀ (a b : Word) (c v : Bool),
     let op := fun (k : Nat) => alu (if n = 32 then k + 32 else k) a b c v
     let x : BitVec n := a.setWidth n
     let y : BitVec n := b.setWidth n
     let kept := fun (r : BitVec n) => (⟨r.toNat, some c, some v, true, true⟩ : AluOut)
     (n = 32 → op 0 = kept x) ∧ op 1 = kept y ∧ op 8 = kept (x &&& y) ∧ op 9 = kept (x ||| y) ∧ op 10 = kept (x ^^^ y) ∧
     op 11 = kept (x &&& ~~~y) ∧ op 12 = kept (x ||| ~~~y) ∧ op 13 = kept (~~~(x ^^^ y)) ∧ op 14 = kept (~~~x) ∧
     op 16 = { kept (x &&& y) with writes := false } ∧ op 17 = kept (if y.slt x = true then y else x) ∧
     op 18 = kept (if x.slt y = true then y else x) ∧ op 19 = kept (if y.ult x = true then y else x) ∧
     op 20 = kept (if x.ult y = true then y else x) ∧ op 28 = kept (if c = true then x else y) ∧
     ∀ k, (k = 0 ∨ 29 ≤ k % 32) → alu k a b c v = ⟨a.toNat, none, none, false, true⟩)

/-- Shift and rotate results and the C offered, by amount (R71): `op` 5 to 8 take the amount from B[7:0], and 1 to 4 from SHAMT. EXTU, EXTS and
INS, bit by bit (R72), and CLZ, POPC, BREV and BSWAP (R73): none offers C. -/
def Obligations.ShifterResults : Prop :=
  -- ShiftsByAmount
  (∀ (x b : Word) (p w base : Nat), p < 64 →
     shifter 0 x.toNat p b w base = (x.toNat, none) ∧
     (p = 0 → ∀ k, k ∈ [1, 2, 3, 4] → shifter k x.toNat p b w base = (x.toNat, none)) ∧
     (1 ≤ p →
       shifter 1 x.toNat p b w base = ((x <<< p).toNat, some (x.getLsbD (64 - p))) ∧
       shifter 2 x.toNat p b w base = ((x >>> p).toNat, some (x.getLsbD (p - 1))) ∧
       shifter 3 x.toNat p b w base = ((x.sshiftRight p).toNat, some (x.getLsbD (p - 1))) ∧
       shifter 4 x.toNat p b w base = ((x.rotateRight p).toNat, some (x.getLsbD (p - 1)))) ∧
     (fld b 0 8 < 64 → ∀ k, k ∈ [5, 6, 7, 8] → shifter k x.toNat p b w base = shifter (k - 4) x.toNat (fld b 0 8) b w base) ∧
     (fld b 0 8 = 64 →
       shifter 5 x.toNat p b w base = (0, some (x.getLsbD 0)) ∧ shifter 6 x.toNat p b w base = (0, some x.msb) ∧
       shifter 7 x.toNat p b w base = ((x.sshiftRight 64).toNat, some x.msb) ∧ shifter 8 x.toNat p b w base = (x.toNat, some x.msb)) ∧
     (64 < fld b 0 8 →
       shifter 5 x.toNat p b w base = (0, some false) ∧ shifter 6 x.toNat p b w base = (0, some false) ∧
       shifter 7 x.toNat p b w base = ((x.sshiftRight 64).toNat, some false) ∧
       shifter 8 x.toNat p b w base = ((x.rotateRight (fld b 0 8 % 64)).toNat, some false))) ∧
  -- BitFieldsAndCounts
  (∀ (x b base : Word) (p w : Nat), p < 64 → 1 ≤ w → w ≤ 64 →
     let ext := shifter 9 x.toNat p b w base.toNat
     let sxt := shifter 10 x.toNat p b w base.toNat
     let ins := shifter 11 x.toNat p b w base.toNat
     (ext.2 = none ∧ sxt.2 = none ∧ ins.2 = none) ∧
     (∀ k, k < 64 → ext.1.testBit k = (decide (k < w) && x.getLsbD (p + k))) ∧
     (∀ k, k < 64 → sxt.1.testBit k = if k < w then x.getLsbD (p + k) else x.getLsbD (p + w - 1)) ∧
     (∀ k, k < 64 → ins.1.testBit k = if p ≤ k ∧ k < p + w then x.getLsbD (k - p) else base.getLsbD k) ∧
     (shifter 12 x.toNat p b w base.toNat = (if x = 0 then 64 else 63 - Nat.log2 x.toNat, none)) ∧
     (shifter 13 x.toNat p b w base.toNat = (((List.range 64).filter (fun k => x.getLsbD k)).length, none)) ∧
     (∀ k, k < 64 → (shifter 14 x.toNat p b w base.toNat).1.testBit k = x.getLsbD (63 - k)) ∧
     ∀ k, k < 8 → fld (BitVec.ofNat 64 (shifter 15 x.toNat p b w base.toNat).1) (8 * k) 8 = fld x (8 * (7 - k)) 8)

/-- The products of R74: MULW and MULWU give the low half and hold the high half of the exact product; MUL, MULHS and MULHU give the same
halves. The multiplies and the reads of the divider (R46, R74-R76): the value goes to the destination, no flag changes, MULW and MULWU hold
the high half; RDQ and RDR need no divide in flight. Each row of one operation runs as a whole word at once: the model's row operands, log
entry 3. -/
def Obligations.Multiplies : Prop :=
  -- Products
  (∀ a b : Word,
     (product 4 a b).2.toInt * 2 ^ 64 + (product 4 a b).1.toNat = a.toInt * b.toInt ∧
     (product 5 a b).2.toNat * 2 ^ 64 + (product 5 a b).1.toNat = a.toNat * b.toNat ∧
     (product 1 a b).1 = a * b ∧ (product 4 a b).1 = a * b ∧ (product 5 a b).1 = a * b ∧
     product 2 a b = product 4 a b ∧ product 3 a b = product 5 a b) ∧
  -- MultipliesAndReads
  (∀ (s : State) (c : Fin 1024) (areg : BitVec 4) (bsel : BitVec 3) (breg : BitVec 4) (dsel : BitVec 3) (dreg : BitVec 4) (imm : Word),
     s.ctxFree c →
     let a := s.g c areg.toNat
     let b := s.plainB c bsel breg imm
     let u := if 5 ≤ dsel.toNat ∨ (dsel = 4 ∧ (dreg = 0 ∨ 12 ≤ dreg.toNat)) then s.countReserved (quireOf c) (s.cx c).maddr else s
     let go := fun (w : State) => (.next (w.setCx c (s.after c (w.cx c) ((s.cx c).maddr + 1))) : Res)
     let high := fun (v : Word) (w : State) => w.setCx c { w.cx c with hiprod := v }
     let dst := fun (v : Word) => u.writeDest c dsel.toNat dreg.toNat v
     (s.bReady c bsel →
       exec (.mul c areg bsel breg dsel dreg imm) s = go (dst (product 1 a b).1) ∧
       exec (.mulhs c areg bsel breg dsel dreg imm) s = go (dst (product 2 a b).2) ∧
       exec (.mulhu c areg bsel breg dsel dreg imm) s = go (dst (product 3 a b).2) ∧
       exec (.mulw c areg bsel breg dsel dreg imm) s = go (high (product 4 a b).2 (dst (product 4 a b).1)) ∧
       exec (.mulwu c areg bsel breg dsel dreg imm) s = go (high (product 5 a b).2 (dst (product 5 a b).1))) ∧
     ((s.cx c).div = none →
       exec (.rdq c dsel dreg) s = go (dst (s.cx c).quot) ∧ exec (.rdr c dsel dreg) s = go (dst (s.cx c).rem)) ∧
     exec (.rdh c dsel dreg) s = go (dst (s.cx c).hiprod))

/-- The divides of R79: truncated quotients and the remainder's law for a divisor that is not zero, the results for a zero divisor, and the one
signed overflow. DIVS and DIVU enter the divider with their operands (R77, R80): a zero divisor sets DZ, the signed overflow sets OV, no
result changes until DIVIDE_COMPLETE, which gives the results of R79. A divide by zero under the trap option (R80, R114): of the word's
effects only DZ is set. The context is faulted with class 5 at the divide word, the record's argument 1 is the dividend and argument 2 is 0,
and no divide starts. Each row of one operation runs as a whole word at once: the model's row operands, log entry 3. -/
def Obligations.Divides : Prop :=
  -- Quotients
  (∀ a b : Word,
     (b ≠ 0 → divide false a b = (a / b, a % b)) ∧ (b ≠ 0 → divide true a b = (a.sdiv b, a.srem b)) ∧
     (b ≠ 0 → (divide true a b).1 * b + (divide true a b).2 = a) ∧
     divide false a 0 = (BitVec.allOnes 64, a) ∧ divide true a 0 = (if a.msb = true then BitVec.intMin 64 else BitVec.intMax 64, a) ∧
     divide true (BitVec.intMin 64) (BitVec.allOnes 64) = (BitVec.intMin 64, 0) ∧
     (divOverflows true a b = true ↔ a = BitVec.intMin 64 ∧ b = BitVec.allOnes 64) ∧ divOverflows false a b = false) ∧
  -- DividesStartAndComplete
  (∀ (s : State) (c : Fin 1024) (areg : BitVec 4) (bsel : BitVec 3) (breg : BitVec 4) (imm : Word),
     (s.ctxFree c → s.bReady c bsel → (s.cx c).div = none →
       let a := s.g c areg.toNat
       let b := s.plainB c bsel breg imm
       (b = 0 → s.opt c 5 = false) →
       let started := fun (sg : Bool) (t : State) =>
         t.cx c = { s.after c (s.cx c) ((s.cx c).maddr + 1) with div := some ⟨sg, a, b⟩, divReady := false } ∧
         s.keeps t c [R.CTX_FLAGPRED c] ∧ (t.on (flagRF c 4) = true ↔ s.on (flagRF c 4) = true ∨ b = 0) ∧
         (t.on (flagRF c 5) = true ↔ s.on (flagRF c 5) = true ∨ divOverflows sg a b = true) ∧
         ∀ k, k < 64 → k ≠ 4 → k ≠ 5 → bit (t.reg (R.CTX_FLAGPRED c)) k = bit (s.reg (R.CTX_FLAGPRED c)) k
       (∃ t, exec (.divs c areg bsel breg imm) s = .next t ∧ started true t) ∧
       ∃ t, exec (.divu c areg bsel breg imm) s = .next t ∧ started false t) ∧
     ∀ d, (s.cx c).div = some d → s.unitOn (domQuire (quireOf c)) = true →
       exec (.divideComplete c) s = .next (s.setCx c
         { s.cx c with quot := (divide d.signed d.a d.b).1, rem := (divide d.signed d.a d.b).2, div := none, divReady := true })) ∧
  -- DivideByZeroTrap
  (∀ (s : State) (c : Fin 1024) (areg : BitVec 4) (bsel : BitVec 3) (breg : BitVec 4) (imm : Word), s.ctxFree c → s.bReady c bsel →
     (s.cx c).div = none → s.opt c 5 = true → s.plainB c bsel breg imm = 0 →
     let x := s.cx c
     let traps := fun (t : State) =>
       t.cx c = { x with st := .faulted, word := .empty, fclass := 5, finfo := (t.cx c).finfo, pollcnt := Nat.min (x.pollcnt + 1) 65535 } ∧
       s.reportsOnly t ∧ (∀ d, d ≠ c.val → t.cx d = s.cx d) ∧ t.on (flagRF c 4) = true ∧ t.on (F.CTX_STATUS_FAULTSEEN c) = true ∧
       (∀ i, i < 64 → i ≠ 4 → bit (t.reg (R.CTX_FLAGPRED c)) i = bit (s.reg (R.CTX_FLAGPRED c)) i) ∧
       (∀ k, k / 4096 = ctxPage c → k ≠ R.CTX_FLAGPRED c → k ≠ R.CTX_STATUS c → t.reg k = s.reg k) ∧
       (s.records 0x015 → t.recorded 0x015 c (t.cx c).finfo (s.g c areg.toNat) 0) ∧
       fld (t.cx c).finfo 0 14 = x.maddr.toNat ∧ fld (t.cx c).finfo 16 4 = 5 ∧ fld (t.cx c).finfo 32 32 = s.get (F.CTX_OPC_OPC c)
     (∃ t, exec (.divs c areg bsel breg imm) s = .next t ∧ traps t) ∧ ∃ t, exec (.divu c areg bsel breg imm) s = .next t ∧ traps t)

/-- The B operands of R39 and R65, for a word that carries BSEL, BREG and IMM. DSEL's destinations (R41): all of G, its low half, an A register
from the low half of the result, or none; every other register and every context keeps its state. DSEL writes of the special registers (R42,
R67, R84, R85, R131): read-only and reserved numbers keep their value; the flags, counters, predicates and URGVEC take their bits; OPC
discards the held instruction and both fetched lines; a reserved MLOG keeps the modifier and is counted. The predicate bits, counters and
event number read as State holds them. -/
def Obligations.OperandsAndDestinations : Prop :=
  -- OperandSources
  (∀ (s : State) (c : Nat) (breg : BitVec 4) (imm : Word),
     let b := fun (sel : BitVec 3) => s.plainB c sel breg imm
     b 0 = s.g c breg.toNat ∧ b 1 = imm ∧ b 2 = (s.cx c).blatch ∧ b 3 = (s.cx c).qlatch ∧
     b 4 = BitVec.ofNat 64 (s.get (aRF c (breg.toNat % 4))) ∧ fld (b 5) 0 16 = s.beam.tick % 2 ^ 16 ∧
     fld (b 5) 16 16 = s.beam.line % 2 ^ 16 ∧ fld (b 5) 32 32 = s.beam.frame % 2 ^ 32 ∧ b 6 = (s.cx c).olatch ∧
     (breg = 0 → c < 2 ^ 64 → (b 7).toNat = c) ∧ (breg = 2 → (b 7).toNat = s.get (F.CTX_OPC_OPC c)) ∧
     (breg = 9 → bit (b 7) 0 = true ∧ ∀ n, 1 ≤ n → n ≤ 7 → bit (b 7) n = s.pred c n) ∧
     (breg = 12 → b 7 = (s.cx c).evlast.setWidth 64) ∧ (breg = 15 → b 7 = 0)) ∧
  -- DestinationKinds
  (∀ (s : State) (c dreg : Nat) (v : Word), dreg < 16 →
     (let t := s.writeDest c 1 dreg v
      t.g c dreg = v ∧ t = { s with regs := t.regs } ∧ ∀ k, k ≠ R.CTX_G c dreg → t.reg k = s.reg k) ∧
     (let t := s.writeDest c 2 dreg v
      fld (t.g c dreg) 0 32 = fld v 0 32 ∧ fld (t.g c dreg) 32 32 = fld (s.g c dreg) 32 32 ∧ t = { s with regs := t.regs } ∧
      ∀ k, k ≠ R.CTX_G c dreg → t.reg k = s.reg k) ∧
     (let t := s.writeDest c 3 dreg v
      t.get (aRF c (dreg % 4)) = fld v 0 32 ∧ t = { s with regs := t.regs } ∧
      (∀ n, n < 4 → n ≠ dreg % 4 → t.get (aRF c n) = s.get (aRF c n)) ∧ ∀ k, k ≠ (aRF c (dreg % 4)).key → t.reg k = s.reg k) ∧
     s.writeDest c 0 dreg v = s ∧ s.writeDest c 5 dreg v = s ∧ s.writeDest c 6 dreg v = s ∧ s.writeDest c 7 dreg v = s) ∧
  -- SpecialRegisterWrites
  (∀ (s : State) (c : Nat) (v : Word),
     (∀ n, n ∈ [0, 12, 13, 14, 15] → s.writeDest c 4 n v = s) ∧
     (s.writeDest c 4 1 v).special c 1 = BitVec.ofNat 64 (fld v 0 6) ∧
     (let t := s.writeDest c 4 2 v
      t.get (F.CTX_OPC_OPC c) = fld v 0 32 ∧ t.cx c = { s.cx c with nxt := none, lines := [] } ∧ s.keeps t c [R.CTX_OPC c]) ∧
     (s.writeDest c 4 3 v).special c 3 = BitVec.ofNat 64 (fld v 0 32) ∧ (s.writeDest c 4 4 v).special c 4 = BitVec.ofNat 64 (fld v 0 32) ∧
     (∀ n, 1 ≤ n → n ≤ 7 → (s.writeDest c 4 9 v).pred c n = bit v n) ∧ (s.writeDest c 4 9 v).pred c 0 = true ∧
     (s.writeDest c 4 10 v).get (F.CTX_URGVEC_URGVEC c) = fld v 0 14 ∧
     ∀ n, n < 4 →
       (mlogReserved (fld v 0 16) = false → s.writeDest c 4 (5 + n) v = s.put (mRF c n) (fld v 0 16 % 64)) ∧
       (mlogReserved (fld v 0 16) = true → s.writeDest c 4 (5 + n) v = s.rej (ctxPage c)))

/-- ALU_OPERATION (R41, R43, R45, R62, R69): the destination and the flags FLAGW selects take the ALU's result, OV is set with V, and the next
word follows; a reserved code, a reserved DSEL, or a write to a special register that cannot be written is counted once (R26).
SHIFTER_OPERATION (R44, R45, R62): as an ALU operation, its input the A operand. The flags a word forms (R45, R67): each flag FLAGW selects
and the unit offers takes its value, over a DSEL write of the flags; every other flag bit keeps its own. Sticky flags are set and never
cleared (R69), and a reserved encoding counts COUNT and ERRCNT, with its address (R26). PREDICATE_WRITE (R55): PSET 2n and 2n + 1 set Pn to
the effective condition or its complement; 1 and a reserved COND are counted. What a word's ALU and shifter give (R44, R45, R62, R63): the
shifter takes the ALU's result; C is the shifter's where it offers one and the ALU's otherwise, V the ALU's; N and Z are formed from the
result, over bits [31:0] for a 32-bit ALU code without a shifter operation; and what the multiply/divide unit puts in the result's place
(R46). Each row of one operation runs as a whole word at once: the model's row operands, log entry 3. -/
def Obligations.DatapathWordsRun : Prop :=
  -- AluOperationRuns
  (∀ (s : State) (c : Fin 1024) (aluop : BitVec 6) (areg : BitVec 4) (bsel : BitVec 3) (breg : BitVec 4) (dsel : BitVec 3)
     (dreg : BitVec 4) (flagw : BitVec 4) (imm : Word), s.ctxFree c → s.bReady c bsel →
     let dp := datapath aluop.toNat 0 0 64 0 (s.g c areg.toNat) (s.plainB c bsel breg imm) (s.on (flagRF c 1)) (s.on (flagRF c 0))
     let counted := aluReserved aluop.toNat = true ∨ 5 ≤ dsel.toNat ∨
       (dsel = 4 ∧ aluop.toNat % 32 ≠ 15 ∧ aluop.toNat % 32 ≠ 16 ∧ (dreg = 0 ∨ 12 ≤ dreg.toNat))
     let u := if counted then s.countReserved (quireOf c) (s.cx c).maddr else s
     let w := (u.writeResult c dsel.toNat dreg.toNat flagw.toNat (BitVec.ofNat 64 dp.res) dp dp.v).setSticky c 5 (dp.v == some true)
     exec (.aluOperation c aluop areg bsel breg dsel dreg flagw imm) s = .next (w.setCx c (s.after c (w.cx c) ((s.cx c).maddr + 1)))) ∧
  -- ShifterOperationRuns
  (∀ (s : State) (c : Fin 1024) (shop : BitVec 4) (shamt : BitVec 6) (areg : BitVec 4) (bsel : BitVec 3) (breg : BitVec 4)
     (dsel : BitVec 3) (dreg : BitVec 4) (flagw : BitVec 4) (imm : Word), s.ctxFree c → s.bReady c bsel →
     let wd := if fld imm 42 6 = 0 then 64 else fld imm 42 6
     let base := if dsel = 1 then (s.g c dreg.toNat).toNat else 0
     let dp := datapath 0 shop.toNat shamt.toNat wd base (s.g c areg.toNat) (s.plainB c bsel breg imm) (s.on (flagRF c 1))
       (s.on (flagRF c 0))
     let counted := 5 ≤ dsel.toNat ∨ (dsel = 4 ∧ (dreg = 0 ∨ 12 ≤ dreg.toNat))
     let u := if counted then s.countReserved (quireOf c) (s.cx c).maddr else s
     let w := u.writeResult c dsel.toNat dreg.toNat flagw.toNat (BitVec.ofNat 64 dp.res) dp dp.v
     exec (.shifterOperation c shop shamt areg bsel breg dsel dreg flagw imm) s = .next (w.setCx c (s.after c (w.cx c) ((s.cx c).maddr + 1)))) ∧
  -- FlagsWritten
  (∀ (s : State) (c flagw : Nat) (r : Word) (dp : DpOut) (v : Option Bool),
     let t := s.writeResult c 0 0 flagw r dp v
     let want := fun (i : Nat) (o : Option Bool) => s.on (flagRF c i) = true ∧ (flagw.testBit i = false ∨ o = none) ∨
       flagw.testBit i = true ∧ o = some true
     s.keeps t c [R.CTX_FLAGPRED c] ∧ t.cx c = s.cx c ∧
     (t.on (flagRF c 3) = true ↔ want 3 dp.n) ∧ (t.on (flagRF c 2) = true ↔ want 2 dp.z) ∧ (t.on (flagRF c 1) = true ↔ want 1 dp.c) ∧
     (t.on (flagRF c 0) = true ↔ want 0 v) ∧
     (∀ i, 4 ≤ i → i < 64 → bit (t.reg (R.CTX_FLAGPRED c)) i = bit (s.reg (R.CTX_FLAGPRED c)) i) ∧
     (∀ dsel dreg, s.writeResult c dsel dreg flagw r dp v =
       (if dp.writes = true then s.writeDest c dsel dreg r else s).writeResult c 0 0 flagw r dp v) ∧
     (∀ i, s.setSticky c i false = s ∧ s.setSticky c i true = s.put (flagRF c i) 1) ∧
     ∀ q addr, let u := s.countReserved q addr
       u.get (F.QUI_RSVCNT_COUNT q) = Nat.min (s.get (F.QUI_RSVCNT_COUNT q) + 1) (2 ^ 32 - 1) ∧ u.get (F.QUI_RSVCNT_LAST q) = addr.toNat ∧
       u.get (errcnt (quiPage q)) = Nat.min (s.get (errcnt (quiPage q)) + 1) (2 ^ 32 - 1) ∧ s.keeps u c [R.QUI_RSVCNT q, (errcnt (quiPage q)).key]) ∧
  -- PredicateWrites
  (∀ (s : State) (c : Fin 1024) (pset : BitVec 4) (cond : BitVec 6) (cpol : Bool), s.ctxFree c → s.condReady c cond →
     let w := if pset = 1 ∨ (2 ≤ pset.toNat ∧ condReserved cond.toNat = true) then s.countReserved (quireOf c) (s.cx c).maddr
       else if 2 ≤ pset.toNat then
         s.put ⟨R.CTX_FLAGPRED c, 8 + pset.toNat / 2, 1⟩ (b2n ((s.plainCond c cond != cpol) != (pset.toNat % 2 == 1)))
       else s
     exec (.predicateWrite c pset cond cpol) s = .next (w.setCx c (s.after c (s.cx c) ((s.cx c).maddr + 1)))) ∧
  -- DatapathForms
  ((∀ (aluop shop shamt w base : Nat) (a b : Word) (c v : Bool),
     let o := alu aluop a b c v
     let sh := shifter shop o.res shamt b w base
     let dp := datapath aluop shop shamt w base a b c v
     let silent := (aluop = 0 ∨ 29 ≤ aluop % 32) ∧ shop = 0
     let n := if shop = 0 ∧ 32 ≤ aluop then 32 else 64
     dp.res = sh.1 ∧ dp.writes = o.writes ∧ dp.v = o.v ∧ (∀ k, sh.2 = some k → dp.c = some k) ∧ (sh.2 = none → dp.c = o.c) ∧
     (silent → dp.n = none ∧ dp.z = none) ∧
     (¬ silent → dp.n = some (sh.1.testBit (n - 1)) ∧ dp.z = some (decide (sh.1 % 2 ^ n = 0)))) ∧
   ∀ (s : State) (c : Nat) (w : Micro) (a b : Word),
     let r := s.wordResult c w a b
     r.2 = datapath (mAluop w) (mShop w) (mShamt w) (iWidth w) (if mDsel w = 1 then (s.g c (mDreg w)).toNat else 0) a b
       (s.on (flagRF c 1)) (s.on (flagRF c 0)) ∧
     (mMduop w = 1 → r.1 = a * b) ∧ (mMduop w = 2 → r.1 = (product 2 a b).2) ∧ (mMduop w = 3 → r.1 = (product 3 a b).2) ∧
     (mMduop w = 4 ∨ mMduop w = 5 → r.1 = a * b) ∧ (mMduop w = 8 → r.1 = (s.cx c).quot) ∧ (mMduop w = 9 → r.1 = (s.cx c).rem) ∧
     (mMduop w = 10 → r.1 = (s.cx c).hiprod) ∧ (mMduop w ∉ [1, 2, 3, 4, 5, 8, 9, 10] → r.1 = BitVec.ofNat 64 r.2.res))

/-- The bank operation rows (R48, R49): A[MEMAR] is post-modified, the operation begins at its old value, and the next word follows; under STOWN
a request to a bank holds the context until its answer (R115). AMOD 7 is reserved: counted, no post-modify. A bank operation's beginning
(R48): the access is aligned down, a misaligned or out-of-space address is counted, a fill empties the bank read latch, an address outside
bank space is answered with zero and a write there is dropped. The post-modified address (R49), modulo 2^32: the linear forms, the modulo
forms within the aligned block of the modifier, and the linear forms where the modifier holds no size. Each row of one operation runs as a
whole word at once: the model's row operands, log entry 3. -/
def Obligations.BankOperationWords : Prop :=
  -- BankOperationsBegin
  (∀ (s : State) (c : Fin 1024) (areg : BitVec 4) (memar : BitVec 2) (amod : BitVec 3) (step : BitVec 16), s.ctxFree c →
     let f := aRF c memar.toNat
     let addr := s.get f
     let begun := fun (op a : Nat) =>
       let u := if amod = 7 then s.countReserved (quireOf c) (s.cx c).maddr
         else if amod = 0 then s else s.put f (amodAddr amod.toNat addr (memSize op) (s.get (mRF c memar.toNat)) step)
       let w := u.memStart c op addr (s.g c a) (s.cx c).maddr (s.opt c 6)
       let x := s.after c (w.cx c) ((s.cx c).maddr + 1)
       (.next (w.setCx c (if s.opt c 6 = true ∧ inSpace addr = true then { x with hold := some ⟨true, false, .cont⟩ } else x)) : Res)
     exec (.ld64 c memar amod step) s = begun 1 0 ∧ exec (.ld32 c memar amod step) s = begun 2 0 ∧
     exec (.ld16 c memar amod step) s = begun 3 0 ∧ exec (.ld8 c memar amod step) s = begun 4 0 ∧
     exec (.ld32s c memar amod step) s = begun 5 0 ∧ exec (.ld16s c memar amod step) s = begun 6 0 ∧
     exec (.ld8s c memar amod step) s = begun 7 0 ∧ exec (.st64 c areg memar amod step) s = begun 8 areg.toNat ∧
     exec (.st32 c areg memar amod step) s = begun 9 areg.toNat ∧ exec (.st16 c areg memar amod step) s = begun 10 areg.toNat ∧
     exec (.st8 c areg memar amod step) s = begun 11 areg.toNat ∧ exec (.aadd c areg memar amod step) s = begun 12 areg.toNat ∧
     exec (.aswp c areg memar amod step) s = begun 13 areg.toNat) ∧
  -- BankOperationRequest
  (∀ (s : State) (c addr : Nat) (op : Nat) (data : Word) (off : BitVec 14) (strict : Bool), 1 ≤ op → op ≤ 13 →
     let t := s.memStart c op addr data off strict
     let q := quireOf c
     let al := addr - addr % memSize op
     let asks := memFills op = true ∨ inSpace addr = true
     ((t.cx c).ops = if asks then (s.cx c).ops ++ [⟨BitVec.ofNat 4 op, BitVec.ofNat 32 al, data, off, strict,
         if inSpace addr = true then .requested else .delivered 0 0⟩] else (s.cx c).ops) ∧
     ((t.cx c).bEmpty = true ↔ (s.cx c).bEmpty = true ∨ memFills op = true) ∧
     t.get (F.QUI_SEQERR_MISALIGN q) = (if addr % memSize op = 0 then s.get (F.QUI_SEQERR_MISALIGN q)
       else Nat.min (s.get (F.QUI_SEQERR_MISALIGN q) + 1) (2 ^ 16 - 1)) ∧
     t.get (F.QUI_SEQERR_OUTRANGE q) = (if inSpace addr = true then s.get (F.QUI_SEQERR_OUTRANGE q)
       else Nat.min (s.get (F.QUI_SEQERR_OUTRANGE q) + 1) (2 ^ 16 - 1)) ∧
     s.keeps t c [R.QUI_SEQERR q, (errcnt (quiPage q)).key]) ∧
  -- PostModifyForms
  (∀ (a : BitVec 32) (op m : Nat) (step : BitVec 16), 1 ≤ op → op ≤ 13 → m < 2 ^ 16 →
     let sz : BitVec 32 := BitVec.ofNat 32 (memSize op)
     let at_ := fun (f : Nat) => BitVec.ofNat 32 (amodAddr f a.toNat (memSize op) m step)
     let mask : BitVec 32 := BitVec.ofNat 32 (2 ^ (m % 32) - 1)
     at_ 0 = a ∧ at_ 1 = a + sz ∧ at_ 2 = a - sz ∧ at_ 3 = a + step.signExtend 32 ∧
     (m % 32 = 0 → at_ 4 = a + sz ∧ at_ 5 = a - sz ∧ at_ 6 = a + sz) ∧ (m.testBit 5 = false → at_ 6 = a + sz) ∧
     (m % 32 ≠ 0 → at_ 4 = ((a &&& ~~~mask) ||| ((a + sz) &&& mask)) ∧ at_ 5 = ((a &&& ~~~mask) ||| ((a - sz) &&& mask))))

/-- The event rows (R51): the operation on the context's event table or the spine, and the next word; an event the operation may not name is
only counted (R26). What the event operations do to an event table (R100, R101): WADD and UADD mark the event's entry, or take the
lowest-numbered invalid one, or set EVFULL; WDEL and UDEL clear a mark, the entry's record going with the last; WCLR clears every W; CONSUME
clears the record; SIGNAL posts its line once an FCLK (R98). SPINE_ASSERTION (R98, R99): the oldest post of the line reaches its listeners:
every context's event table, DMA pacing, the timers, the engines, the event-out pins, wake entries of KIND 6, the interrupt mirror of lines
below 0x400, the switch event of FSW, and the press; a line nobody posted reaches none. What an assertion does at a context's event table
(R99, R102-R104, R107, R110): the event's entry is pending, a second record before a CONSUME merging; the waiting context whose mask it
completes goes on with EVLAST, one waiting with POLL is diverted by an urgent event, and in a quire in RET it asks for the quire's wake.
Posts of one line within one FCLK merge; a posted line is asserted by its own command, in the order the commands come (log entries 3 and
18). -/
def Obligations.EventOperationsAndSpine : Prop :=
  -- EventOperationsRun
  (∀ (s : State) (c : Fin 1024) (event : BitVec 12), s.ctxFree c →
     let ran := fun (op : Nat) (refused : Bool) =>
       let w := if refused = true then s.countReserved (quireOf c) (s.cx c).maddr else s.evApply c op event (s.cx c).maddr
       (.next (w.setCx c (s.after c (w.cx c) ((s.cx c).maddr + 1))) : Res)
     let absent := decide (0xC80 ≤ event.toNat)
     exec (.signal c event) s = ran 1 (absent || !decide (0x400 ≤ event.toNat ∧ event.toNat ≤ 0x7FF)) ∧
     exec (.wadd c event) s = ran 2 absent ∧ exec (.wdel c event) s = ran 3 absent ∧ exec (.uadd c event) s = ran 5 absent ∧
     exec (.udel c event) s = ran 6 absent ∧ exec (.consume c event) s = ran 7 absent ∧
     (let w := s.evApply c 4 0 (s.cx c).maddr
      exec (.wclr c) s = .next (w.setCx c (s.after c (w.cx c) ((s.cx c).maddr + 1))))) ∧
  -- EventTableOperations
  (∀ (s : State) (c : Nat) (e : BitVec 12) (off : BitVec 14),
     let x := s.cx c
     e.toNat < 0xC80 →
     (∀ i, x.findEt e = some i →
       (let y := ((s.evApply c 2 e off).cx c).etAt i; y.w = true ∧ y.u = (x.etAt i).u ∧ y.p = (x.etAt i).p ∧ y.event = e) ∧
       (let y := ((s.evApply c 5 e off).cx c).etAt i; y.u = true ∧ y.w = (x.etAt i).w ∧ y.p = (x.etAt i).p) ∧
       (let y := ((s.evApply c 3 e off).cx c).etAt i; y.w = false ∧ y.u = (x.etAt i).u ∧ y.p = ((x.etAt i).p && (x.etAt i).u)) ∧
       (let y := ((s.evApply c 6 e off).cx c).etAt i; y.u = false ∧ y.w = (x.etAt i).w ∧ y.p = ((x.etAt i).p && (x.etAt i).w)) ∧
       (let y := ((s.evApply c 7 e off).cx c).etAt i; y = { x.etAt i with p := false })) ∧
     (∀ i, x.findEt e = none → x.freeEt = some i →
       ((s.evApply c 2 e off).cx c).etAt i = ⟨e, true, false, false⟩ ∧ ((s.evApply c 5 e off).cx c).etAt i = ⟨e, false, true, false⟩) ∧
     (x.findEt e = none → x.freeEt = none → ∀ op urgent, (op = 2 ∧ urgent = (0 : Word) ∨ op = 5 ∧ urgent = 1) →
       let t := s.evApply c op e off
       t.get (F.CTX_STATUS_EVFULL c) = 1 ∧ t.cx c = x ∧
       t.get (errcnt (ctxPage c)) = Nat.min (s.get (errcnt (ctxPage c)) + 1) (2 ^ 32 - 1) ∧
       (s.records 0x01B → t.recorded 0x01B c (e.setWidth 64) urgent (BitVec.ofNat 64 (off.toNat + s.get (F.CTX_OPC_OPC c) * 2 ^ 32)))) ∧
     (x.findEt e = none → s.evApply c 3 e off = s ∧ s.evApply c 6 e off = s ∧ s.evApply c 7 e off = s) ∧
     (∀ i, i < 16 → ((s.evApply c 4 e off).cx c).etAt i = (x.etAt i).mask false (x.etAt i).u) ∧
     (0x400 ≤ e.toNat → e.toNat ≤ 0x7FF → (s.fclk, e.toNat) ∈ (s.evApply c 1 e off).posted)) ∧
  -- SpineAssertions
  (∀ (s : State) (line : BitVec 12), s.pwr.running = true →
     let n := line.toNat
     let posted := s.posted.any (fun p => p.2 == n)
     let u := { s with posted := dropFirst (fun p : Nat × Nat => p.2 == n) s.posted }
     let v := u.ctx.foldl (fun s e => s.etAssert e.1 line) u
     (posted = false → exec (.spineAssertion line) s = .next s) ∧
     (posted = true → exec (.spineAssertion line) s = .next
       (let t := (((v.dmaAssert n).timerUnit (fun s => s.tmAssert n)).pioAssert n).pinAssert n
        let t := (t.wakeEntries 6 (fun e => fld e 36 12 == n)).raiseIf (decide (n < 0x400)) (1024 + n)
        let t := if (t.on F.PWR_STATUS_FLOCKED && t.get F.PWR_FSW_SWEV == n) = true then { t with pwr := { t.pwr with swSeen := true } } else t
        if t.get F.PRS_PEVSRC_PEVSRC = n then t.pressTrigger 2 2 else t)) ∧
     (s.wf = true → ∀ c, v.cx c = (u.etAssert c line).cx c ∧ v.get (F.CTX_EVMERGE_EVMERGE c) = (u.etAssert c line).get (F.CTX_EVMERGE_EVMERGE c)) ∧
     (∀ c, (s.dmaState c ≠ 1 → c < 64 → s.dPace c = 1 → fld (s.dCtl c) 18 12 = n → s.get (F.DMA_STATUS_PREQ c) < 15 →
       (s.dmaAssert n).get (F.DMA_STATUS_PREQ c) = s.get (F.DMA_STATUS_PREQ c) + 1)) ∧
     ∀ p, p < 128 → ((s.pinAssert n).pn p).evOut = ((s.pn p).evOut || (s.pinFsel p == 6 && s.get (pinCfg p 28 12) == n))) ∧
  -- AssertionsAtAContext
  (∀ (s : State) (c i : Nat) (line : BitVec 12), c < 1024 → (s.cx c).st ≠ .idle → s.unitKept (domQuire (quireOf c)) = true →
     (s.cx c).findEt line = some i →
     let x := s.cx c
     let e := x.etAt i
     let t := s.etAssert c line
     ((t.cx c).etAt i).p = true ∧ ((t.cx c).etAt i).event = line ∧ ((t.cx c).etAt i).w = e.w ∧ ((t.cx c).etAt i).u = e.u ∧
     (∀ j, j ≠ i → (t.cx c).etAt j = x.etAt j) ∧
     t.get (F.CTX_EVMERGE_EVMERGE c) = (if e.p = true then Nat.min (s.get (F.CTX_EVMERGE_EVMERGE c) + 1) (2 ^ 32 - 1)
       else s.get (F.CTX_EVMERGE_EVMERGE c)) ∧
     (x.st = .wait → x.word = .empty → x.waitAll = false → e.w = true → (∀ d ∈ x.entries, d.w = true → d.p = false) → twf (fun _ => EtEntry.reset) x.et = true →
       s.unitOn (domQuire (quireOf c)) = true → (t.cx c).st = .stall ∧ (t.cx c).evlast = line ∧ (t.cx c).maddr = x.maddr) ∧
     (x.st = .wait → x.waitPoll = true → x.urg = false → x.waitAll = false → e.w = false → e.u = true →
       (∀ d ∈ x.entries, d.w = true → d.p = false) → x.mstk.length < 4 → s.unitOn (domQuire (quireOf c)) = true → twf (fun _ => EtEntry.reset) x.et = true →
       (t.cx c).urg = true ∧ (t.cx c).mstk = ⟨x.ownAddr, true, x.ownRt⟩ :: x.mstk ∧ (t.cx c).maddr = x.waitVec ∧ (t.cx c).st = .stall) ∧
     (x.st = .wait → x.waitAll = false → e.w = true → (∀ d ∈ x.entries, d.w = true → d.p = false) → x.wantsWake = false →
       s.domState (domQuire (quireOf c)) = 2 → s.move (domQuire (quireOf c)) = none → s.pwr.running = true → twf (fun _ => EtEntry.reset) x.et = true →
       t.move (domQuire (quireOf c)) = some (.exiting 0) ∧ (t.cx c).st = .wait ∧
       t.get F.PWR_LW_LWCNT = Nat.min (s.get F.PWR_LW_LWCNT + 1) (2 ^ F.PWR_LW_LWCNT.width - 1)))

/-- The boundary actions DOORBELL, PRESS and COLREC, and a BLITGO that is taken onto the list (R52, R342, R350, R390, R400). A BLITGO that finds
BLTEN clear or the list full is abandoned (R114, R117, R343): BLTAB counts, 0xC61 is posted when enabled, and the context is faulted with
class 9, its next word's address kept; the record names the XOP word, the XOP code 3 and the limit. XOP FAULT (R52, R113, R114, R117): class
2 or 3 parks the context in FAULTED at micro address 0 with FCLASS, FINFO and FAULTSEEN, OPC at the current instruction, the record's
arguments the A and B operands; any other class is only counted. The loop-counter rows (R54): loads from the B operand's low half,
decrements that stop at zero. DISP (R36, R131, R134): the decoded instruction becomes the current one, OPC moves past it, G15 holds its
decode word, the context goes to its dispatch entry, and the next decode is requested. Each row of one operation runs as a whole word at
once: the model's row operands, log entry 3. -/
def Obligations.ActionsAndDispatch : Prop :=
  -- BoundaryActionsRun
  (∀ (s : State) (c : Fin 1024) (code : BitVec 10) (areg breg : BitVec 4), s.ctxFree c →
     let go := fun (w : State) => (.next (w.setCx c (s.after c (s.cx c) ((s.cx c).maddr + 1))) : Res)
     exec (.doorbell c) s = go (s.raise c) ∧ exec (.press c) s = go (s.pressTrigger 1 2) ∧
     exec (.colrec c code areg breg) s = go (s.occur code.toNat c true (s.g c areg.toNat) (s.g c breg.toNat)
       (BitVec.ofNat 64 ((s.cx c).maddr.toNat + s.get (F.CTX_OPC_OPC c) * 2 ^ 32))) ∧
     (s.on F.BND_CTRL_BLTEN = true → s.blit.waiting.length < 8 → s.unitKept domBnd = true →
       exec (.blitgo c) s =
         go { s with blit := { s.blit with waiting := s.blit.waiting ++ [⟨c, (s.cx c).maddr, s.get F.BND_BLTTO_BLTTO, false⟩] } })) ∧
  -- BlitgoAbandoned
  (∀ (s : State) (c : Fin 1024), s.ctxFree c → s.on F.BND_CTRL_BLTEN = false ∨ 8 ≤ s.blit.waiting.length →
     ∃ t, exec (.blitgo c) s = .next t ∧ (t.cx c).st = .faulted ∧ (t.cx c).fclass = 9 ∧ (t.cx c).maddr = (s.cx c).maddr + 1 ∧
       t.get F.BND_BLTAB_BLTAB = Nat.min (s.get F.BND_BLTAB_BLTAB + 1) (2 ^ F.BND_BLTAB_BLTAB.width - 1) ∧ t.blit = s.blit ∧
       ((s.get F.BND_EVEN_EVEN).testBit 33 = true → (s.fclk, 0xC61) ∈ t.posted) ∧ fld (t.cx c).finfo 0 14 = (s.cx c).maddr.toNat ∧
       (s.records 0x019 → t.recorded 0x019 c (t.cx c).finfo 3 0) ∧ s.reportsOnly t ∧ (∀ d, d ≠ c.val → t.cx d = s.cx d) ∧
       ∀ n, t.g c n = s.g c n) ∧
  -- FaultAction
  (∀ (s : State) (c : Fin 1024) (cls areg breg : BitVec 4), s.ctxFree c →
     let opc := match (s.cx c).cur with | some d => d.addr.toNat | none => s.get (F.CTX_OPC_OPC c)
     (cls = 2 ∨ cls = 3 → ∃ t, exec (.fault c cls areg breg) s = .next t ∧ (t.cx c).st = .faulted ∧ (t.cx c).fclass = cls.toNat ∧
       (t.cx c).maddr = 0 ∧ (t.cx c).inflight = none ∧ t.get (F.CTX_STATUS_FAULTSEEN c) = 1 ∧ t.get (F.CTX_OPC_OPC c) = opc ∧
       (t.cx c).finfo = BitVec.ofNat 64 ((s.cx c).maddr.toNat + cls.toNat * 2 ^ 16 + opc * 2 ^ 32) ∧
       (s.records (0x010 + cls.toNat) → t.recorded (0x010 + cls.toNat) c (t.cx c).finfo (s.g c areg.toNat) (s.g c breg.toNat)) ∧
       s.reportsOnly t ∧ (∀ d, d ≠ c.val → t.cx d = s.cx d) ∧
       ∀ k, k / 4096 = ctxPage c → k ≠ R.CTX_OPC c → k ≠ R.CTX_STATUS c → t.reg k = s.reg k) ∧
     (cls ≠ 2 → cls ≠ 3 → exec (.fault c cls areg breg) s =
       .next ((s.countReserved (quireOf c) (s.cx c).maddr).setCx c (s.after c (s.cx c) ((s.cx c).maddr + 1))))) ∧
  -- LoopCounterOperations
  (∀ (s : State) (c : Fin 1024) (bsel : BitVec 3) (breg : BitVec 4) (imm : Word), s.ctxFree c →
     let go := fun (w : State) => (.next (w.setCx c (s.after c (s.cx c) ((s.cx c).maddr + 1))) : Res)
     let b := fld (s.plainB c bsel breg imm) 0 32
     (s.bReady c bsel → exec (.ld0 c bsel breg imm) s = go (s.put (F.CTX_LC_LC0 c) b) ∧
       exec (.ld1 c bsel breg imm) s = go (s.put (F.CTX_LC_LC1 c) b)) ∧
     exec (.dec0 c) s = go (s.put (F.CTX_LC_LC0 c) (s.get (F.CTX_LC_LC0 c) - 1)) ∧
     exec (.dec1 c) s = go (s.put (F.CTX_LC_LC1 c) (s.get (F.CTX_LC_LC1 c) - 1))) ∧
  -- DispatchRuns
  (∀ (s : State) (c : Fin 1024) (d : Decoded), s.ctxFree c → (s.cx c).nxt = some d → isCall d.word = false → isRet d.word = false →
     ∃ t, exec (.disp c) s = .next t ∧ (t.cx c).st = .stall ∧ (t.cx c).cur = some d ∧ (t.cx c).nxt = none ∧
       (t.cx c).olatch = s.latchFor c d ∧ t.get (F.CTX_OPC_OPC c) = (d.addr.toNat + dLen d.word) % 2 ^ 32 ∧ t.g c 15 = d.word ∧
       (t.cx c).maddr = s.dispEntry (quireOf c) (dispIndex d.word) ∧ (c : Nat) ∈ (t.qu (quireOf c)).dq ∧
       ∀ n, n ≠ 8 → n ≠ 15 → n < 16 → t.g c n = s.g c n)

/-- The slot table's choice (R95, R96): a context is ready when it is READY with a word and fits when its word covers no entry kept from it. For
an entry open to any context, the choice is the READY context that fits of the highest priority, the first from RRSTART among equals, and
none only when there is none; an entry fixed to a context takes that one, and falls to the same rule under FALL only. MICROWORD_ISSUE (R58,
R59, R96, R111): the chosen context's word enters the datapath with what it reads and decides then, and the slot position moves on by its
cycle length; with none chosen it moves on by one. RRSTART moves on with entry 63. MICROWORD_COMMIT (R58, R108) of a word that only
computes: its result and flags are written, and the context goes on at the next address decided at issue, an urgent diversion's entry pushed
with URG and EVLAST set; a STOP that was pending takes effect instead (R90). CONTEXT_READY (R22, R87, R114): a context in STALL whose causes
have cleared becomes READY, or is faulted with class 1 at an uncorrectable word, whose record holds its syndrome and whether a reload
started; one that still has a cause stays as it is. POLL words and poll starvation (R57, R108, R112): a POLL-marked CONT or JUMP with an
urgent event pending issues with its own effects and is to go to URGVEC, its own next address pushed with the urgent mark, and its commit
sets URG and EVLAST. A word without POLL at the poll limit is counted once and issues, or under STPOLL faults its context with class 7 and
does not issue. -/
def Obligations.IssueAndCommit : Prop :=
  -- SlotChoice
  (∀ (s : State) (q pos c : Nat), pos < 64 →
     let min := s.get (F.QUI_SLOT_MINPRI q pos)
     let rr := s.get (F.QUI_RRSTART_RRSTART q)
     let kind := fun (p : Nat) => s.get (F.QUI_SLOT_KIND q p)
     let ok := fun (d : Nat) => quireOf d = q ∧ s.readyNow d = true ∧ s.fits q d pos = true ∧ min ≤ s.get (F.CTX_CTXCFG_PRI d)
     let open_ := fun (o : Option Nat) =>
       (o = none ↔ ∀ d, ¬ ok d) ∧
       (o = some c → ok c ∧ ∀ d, ok d → s.get (F.CTX_CTXCFG_PRI d) < s.get (F.CTX_CTXCFG_PRI c) ∨
         (s.get (F.CTX_CTXCFG_PRI d) = s.get (F.CTX_CTXCFG_PRI c) ∧ (c % 32 + 32 - rr) % 32 ≤ (d % 32 + 32 - rr) % 32))
     let own := 32 * q + s.get (F.QUI_SLOT_CTX q pos)
     let takes := s.readyNow own = true ∧ s.fits q own pos = true
     (kind pos = 0 ∨ kind pos = 3 → open_ (s.chooseCtx q pos)) ∧ (kind pos = 2 → s.chooseCtx q pos = none) ∧
     (kind pos = 1 → takes → s.chooseCtx q pos = some own) ∧
     (kind pos = 1 → ¬ takes → s.on (F.QUI_SLOT_FALL q pos) = true → open_ (s.chooseCtx q pos)) ∧
     (kind pos = 1 → ¬ takes → s.on (F.QUI_SLOT_FALL q pos) = false → s.chooseCtx q pos = none) ∧
     (s.readyNow c = true ↔ (s.cx c).st = .ready ∧ (s.cx c).inflight = none ∧ (s.cx c).word ≠ .empty ∧ s.stalled c = false) ∧
     ∀ w, (s.cx c).word = .good w → (s.fits q c pos = true ↔ ∀ j, 1 ≤ j → j < effCl w →
       kind ((pos + j) % 64) ≠ 2 ∧ (kind ((pos + j) % 64) = 1 → 32 * q + s.get (F.QUI_SLOT_CTX q ((pos + j) % 64)) = c))) ∧
  -- IssueOfAWord
  (∀ (s : State) (q : Fin 32), s.unitOn (domQuire q) = true →
     let pos := (s.qu q).slotPos
     let passes := fun (t : State) (n : Nat) => (t.qu q).slotPos = (pos + n) % 64 ∧
       t.get (F.QUI_RRSTART_RRSTART q) = (if 64 ≤ pos + n then (s.get (F.QUI_RRSTART_RRSTART q) + 1) % 32 else s.get (F.QUI_RRSTART_RRSTART q))
     (s.chooseCtx q pos = none → ∃ t, exec (.microwordIssue q) s = .next t ∧ passes t 1 ∧ t.ctx = s.ctx ∧
       ∀ k, k ≠ R.QUI_RRSTART q → t.reg k = s.reg k) ∧
     ∀ c w, s.chooseCtx q pos = some c → s.ctxFree c → (s.cx c).word = .good w → mPoll w = false → mSeq w ≠ 7 →
       s.overflows c (.good w) = none → s.divTraps c w (s.operandB c w) = false →
       let eff := s.condition c w (s.g c (mAreg w)) (s.operandB c w) (mCond w) != mCpol w
       ∃ t i, exec (.microwordIssue q) s = .next t ∧ passes t (effCl w) ∧
         t.cx c = { s.cx c with st := .run, word := .empty, inflight := some i, pollcnt := Nat.min ((s.cx c).pollcnt + 1) 65535 } ∧
         i.addr = (s.cx c).maddr ∧ i.word = .good w ∧ i.a = s.g c (mAreg w) ∧ i.b = s.operandB c w ∧
         (i.guardOk = true ↔ (s.pred c (mGuard w / 2) = true ↔ mGuard w % 2 = 0)) ∧ i.divert = none ∧
         i.eff = (eff && !condReserved (mCond w)) ∧ (mSeq w = 0 → i.next = (s.cx c).maddr + 1 ∧ i.pushes = []) ∧
         (mSeq w = 1 → i.next = mTarget w ∧ i.pushes = []) ∧
         (mSeq w = 2 → i.next = if i.eff = true then mTarget w else (s.cx c).maddr + 1) ∧
         (mSeq w = 4 → i.next = mTarget w ∧ i.pushes = [⟨(s.cx c).maddr + 1, false, none⟩]) ∧
         (∀ d, d ≠ c → t.cx d = s.cx d) ∧ ∀ k, k ≠ R.QUI_RRSTART q → t.reg k = s.reg k) ∧
  -- CommitOfAWord
  (∀ (s : State) (c : Fin 1024) (w : Micro) (i : Issued), s.unitOn (domQuire (quireOf c)) = true → (s.cx c).st = .run →
     (s.cx c).inflight = some i → (s.cx c).word = .empty → (s.cx c).pend9 = none → (s.cx c).hold = none →
     i.word = .good w → i.guardOk = true → i.handover = false → i.psetVal = none → i.popped = false → i.underflow = false →
     mSeq w ≤ 1 → mMduop w = 0 → mMemop w = 0 → mAmod w = 0 → mQop w = 0 → mEvop w = 0 → mXop w = 0 → mLcop w = 0 →
     encReserved w = false → opRefused w i.b = false →
     let x := s.cx c
     let r := s.wordResult c w i.a i.b
     let v := (s.writeResult c (mDsel w) (mDreg w) (mFlagw w) r.1 r.2 r.2.v).setSticky c 5 (r.2.v == some true)
     let st := if x.stopPend = true then CtxSt.idle else .stall
     (i.divert = none → i.pushes = [] → ∃ t, exec (.microwordCommit c) s = .next t ∧ t.regs = v.regs ∧ (∀ d, d ≠ c.val → t.cx d = s.cx d) ∧
       t = { s with regs := t.regs, ctx := t.ctx, blit := t.blit } ∧ (x.stopPend = false → t.blit = s.blit) ∧
       (t.cx c).inflight = none ∧ (t.cx c).maddr = i.next ∧ (t.cx c).routine = i.cont ∧ (t.cx c).mstk = x.mstk ∧ (t.cx c).st = st) ∧
     ∀ ev e, i.divert = some ev → i.pushes = [e] → x.mstk.length < 4 → x.urgentMet = true →
       ∃ t, exec (.microwordCommit c) s = .next t ∧ t.regs = v.regs ∧ (t.cx c).inflight = none ∧ (t.cx c).maddr = i.next ∧
         (t.cx c).mstk = e :: x.mstk ∧ (t.cx c).urg = true ∧ (t.cx c).evlast = x.lowestU ∧ (t.cx c).st = st) ∧
  -- ContextBecomesReady
  (∀ (s : State) (c : Fin 1024), (s.cx c).st = .stall → s.unitOn (domQuire (quireOf c)) = true →
     (s.stalled c = true → exec (.contextReady c) s = .next s) ∧
     (∀ w, s.stalled c = false → (s.cx c).word = .good w → exec (.contextReady c) s = .next (s.setCx c { s.cx c with st := .ready })) ∧
     ∀ syn rel, s.stalled c = false → (s.cx c).word = .bad syn rel →
       ∃ t, exec (.contextReady c) s = .next t ∧ (t.cx c).st = .faulted ∧ (t.cx c).fclass = 1 ∧ (t.cx c).maddr = (s.cx c).maddr ∧
         (s.records 0x011 → t.recorded 0x011 c (t.cx c).finfo (syn.setWidth 64) (if rel = true then 1 else 0)) ∧ s.reportsOnly t) ∧
  -- PollWords
  (∀ (s : State) (q : Fin 32) (c : Nat) (w : Micro), s.unitOn (domQuire q) = true → s.chooseCtx q (s.qu q).slotPos = some c →
     (s.cx c).word = .good w → (s.cx c).st = .ready → (s.cx c).inflight = none → (s.cx c).hold = none → (s.cx c).pend9 = none →
     (s.cx c).stopPend = false → mSeq w ≤ 1 → (s.cx c).mstk.length < 4 → s.divTraps c w (s.operandB c w) = false →
     let x := s.cx c
     let own := if mSeq w = 1 then mTarget w else x.maddr + 1
     (mPoll w = true → x.urgentMet = true → x.urg = false → ∃ t i, exec (.microwordIssue q) s = .next t ∧
       t.cx c = { x with st := .run, word := .empty, inflight := some i, pollcnt := 0, starved := false } ∧ i.guardOk = s.guardOk c w ∧
       i.next = BitVec.ofNat 14 (s.get (F.CTX_URGVEC_URGVEC c)) ∧ i.pushes = [⟨own, true, none⟩] ∧ i.divert = some x.lowestU) ∧
     (mPoll w = true → x.urgentMet = false ∨ x.urg = true → ∃ t i, exec (.microwordIssue q) s = .next t ∧
       t.cx c = { x with st := .run, word := .empty, inflight := some i, pollcnt := 0, starved := false } ∧ i.next = own ∧ i.pushes = [] ∧
       i.divert = none) ∧
     (mPoll w = false → x.pollcnt = s.get (F.CTX_CTXCFG_POLLLIM c) → s.opt c 7 = false → x.starved = false →
       ∃ t i, exec (.microwordIssue q) s = .next t ∧ (t.cx c).st = .run ∧ (t.cx c).inflight = some i ∧ i.next = own ∧ (t.cx c).starved = true ∧
         t.get (F.CTX_STARVCNT_STARVCNT c) = Nat.min (s.get (F.CTX_STARVCNT_STARVCNT c) + 1) (2 ^ 32 - 1) ∧
         t.get (errcnt (ctxPage c)) = Nat.min (s.get (errcnt (ctxPage c)) + 1) (2 ^ 32 - 1) ∧ t.get (F.CTX_STATUS_STARVED c) = 1 ∧
         (s.records 0x01A → t.recorded 0x01A c (BitVec.ofNat 64 x.pollcnt) (BitVec.ofNat 64 x.pollcnt) (x.maddr.setWidth 64))) ∧
     (mPoll w = false → x.pollcnt = s.get (F.CTX_CTXCFG_POLLLIM c) → s.opt c 7 = true →
       ∃ t, exec (.microwordIssue q) s = .next t ∧ (t.cx c).st = .faulted ∧ (t.cx c).fclass = 7 ∧ (t.cx c).maddr = x.maddr ∧
         (t.cx c).pollcnt = x.pollcnt ∧ (s.records 0x017 → t.recorded 0x017 c (t.cx c).finfo (BitVec.ofNat 64 x.pollcnt) (BitVec.ofNat 64 x.pollcnt)) ∧
         ∀ n, t.g c n = s.g c n))

/-- The control store's code (R21, R22): a stored word reads back as it was encoded, and any single wrong bit is corrected. The systematic form
of the code is DEDUCED (log entry 38). -/
def Obligations.ControlStoreCodeCorrectsOne : Prop :=
  ∀ w : Micro, (bchEncode w).setWidth 192 = w ∧ bchDecode (bchEncode w) = some (bchEncode w, false) ∧
    ∀ i, i < 208 → bchDecode (bchEncode w ^^^ (1#208 <<< i)) = some (bchEncode w, true)

/-- The control store's code corrects any two wrong bits (R22). The systematic form of the code is DEDUCED (log entry 38). -/
def Obligations.ControlStoreCodeCorrectsTwo : Prop :=
  ∀ (w : Micro) (i j : Nat), i < j → j < 208 →
    bchDecode (bchEncode w ^^^ (1#208 <<< i) ^^^ (1#208 <<< j)) = some (bchEncode w, true)

/-- CONTROL_STORE_READ (R22, R58, R61): the empty word register of a started context takes its next word, corrected and counted where needed; an
uncorrectable word is held with its syndrome, counted with its address. DECODE_COMPLETE (R131, R132): the first request's decode, its lines
held, becomes the context's next instruction, and the request ends. FRONT_END_LINE_FETCH (R130, R178, R182): a line outside bank space is
held as invalid and counted; a line in it is read when its bank accepts, its 16 bytes those of the two words where both are sound; one its
bank refuses is held as invalid, a violation. The decoder (R123-R128, R135): any prefixes `pre`, an escape byte or none, then opcode `op`
and its operand bytes, all held in the fetch buffer, decode to the fields of the decode word, the length and the immediate; past 14 bytes
the instruction is over-long; an invalid byte ends it with BADFETCH. -/
def Obligations.FetchAndDecode : Prop :=
  -- ControlStoreReads
  (∀ (s : State) (c : Fin 1024), (s.cx c).word = .empty → (s.cx c).st ≠ .idle → (s.cx c).st ≠ .faulted →
     s.unitOn (domQuire (quireOf c)) = true → s.folioBusy (quireOf c) (s.cx c).fetchAddr = false → (s.cx c).fetchRoutine = none →
     let q := quireOf c
     let a := (s.cx c).fetchAddr.toNat
     let next := fun (f : RF) (more : Bool) => if more = true then Nat.min (s.get f + 1) (2 ^ f.width - 1) else s.get f
     (∀ v fixed, bchDecode (s.storeWord q a) = some (v, fixed) → ∃ t, exec (.controlStoreRead c) s = .next t ∧
       t.cx c = { s.cx c with word := .good (v.setWidth 192) } ∧ t.get (F.QUI_CSERR_CORR q) = next (F.QUI_CSERR_CORR q) fixed ∧
       (∀ d, d ≠ c.val → t.cx d = s.cx d) ∧ ∀ k, k ≠ R.QUI_CSERR q → t.reg k = s.reg k) ∧
     (bchDecode (s.storeWord q a) = none → ∃ t, exec (.controlStoreRead c) s = .next t ∧
       (∃ rel, (t.cx c).word = .bad (BitVec.ofNat 16 (bchSyndrome (s.storeWord q a))) rel ∧
         (rel = true ↔ s.reloadable q (a / 512) = true)) ∧
       t.get (F.QUI_CSERR_UNC q) = next (F.QUI_CSERR_UNC q) true ∧ t.get (F.QUI_CSERR_UADDR q) = a)) ∧
  -- DecodeCompletes
  (∀ (s : State) (c : Fin 1024) (d : Decoded), s.unitOn (domQuire (quireOf c)) = true → s.decodeHead (quireOf c) = some (c : Nat) →
     decodeAt (s.cx c).lines (s.get (F.CTX_OPC_OPC c)) s.free.1 = .done d →
     ∃ t, exec (.decodeComplete c) s = .next t ∧ t.cx c = { s.cx c with nxt := some d } ∧ (t.qu (quireOf c)).dq = (s.qu (quireOf c)).dq.tail ∧
       t.regs = s.regs ∧ t.freeCtr = s.freeCtr + 1 ∧ ∀ e, e ≠ c → t.cx e = s.cx e) ∧
  -- LineFetch
  (∀ (s : State) (c : Fin 1024) (i : Nat), s.unitOn (domQuire (quireOf c)) = true → s.decodeHead (quireOf c) = some (c : Nat) →
     decodeAt (s.cx c).lines (s.get (F.CTX_OPC_OPC c)) 0 = .missing i →
     let q := quireOf c
     let line := (s.get (F.CTX_OPC_OPC c) + i) % 2 ^ 32 / 16
     let held := fun (t : State) (p : FetchLine → Prop) => ∃ l, l ∈ (t.cx c).lines ∧ l.line = BitVec.ofNat 28 line ∧ p l
     (inSpace (16 * line) = false → ∃ t, exec (.frontEndLineFetch c) s = .next t ∧ held t (fun l => l.invalid = true) ∧
       t.get (F.QUI_SEQERR_OUTRANGE q) = Nat.min (s.get (F.QUI_SEQERR_OUTRANGE q) + 1) (2 ^ 16 - 1)) ∧
     (inSpace (16 * line) = true → s.portAGate (bankOf (16 * line)) q = .accepted →
       ∃ t, exec (.frontEndLineFetch c) s = .next t ∧ held t (fun l => l.invalid = false ∧
         (secSyndrome (s.portAWord (2 * line)) = 0 → secSyndrome (s.portAWord (2 * line + 1)) = 0 →
           l.data.extractLsb' 0 64 = (s.portAWord (2 * line)).setWidth 64 ∧ l.data.extractLsb' 64 64 = (s.portAWord (2 * line + 1)).setWidth 64))) ∧
     (inSpace (16 * line) = true → s.portAGate (bankOf (16 * line)) q = .refused →
       ∃ t, exec (.frontEndLineFetch c) s = .next t ∧ held t (fun l => l.invalid = true) ∧
         t.get (F.BNK_VIOL_VCOUNT (bankOf (16 * line))) = Nat.min (s.get (F.BNK_VIOL_VCOUNT (bankOf (16 * line))) + 1) (2 ^ 32 - 1) ∧
         (s.records 0x030 → t.recorded 0x030 (0x500 + bankOf (16 * line)) (BitVec.ofNat 64 (16 * line)) (BitVec.ofNat 64 q) 4)) ∧
     (inSpace (16 * line) = true → s.portAGate (bankOf (16 * line)) q = .held → exec (.frontEndLineFetch c) s = .next s)) ∧
  -- InstructionsDecode
  (∀ (lines : List FetchLine) (pc : Nat) (free : Word) (pre : List Nat) (esc : Bool) (op : Nat) (bytes : Nat → Nat),
     (∀ b ∈ pre, 0xE0 ≤ b ∧ b ≤ 0xF4) → op < 256 → (esc = false → op < 0xE0 ∨ 0xF5 ≤ op ∧ op ≠ 0xF8) → (∀ i, bytes i < 256) →
     (∀ i, i < pre.length → pre[i]? = some (bytes i)) →
     let k := pre.length + if esc = true then 1 else 0
     (esc = true → bytes pre.length = 0xF8) → bytes k = op →
     let last := fun (p : Nat → Bool) => pre.reverse.find? p
     let within := fun (lo hi : Nat) => decide (lo ≤ op ∧ op ≤ hi)
     let r := if esc = true then decide (op ≤ 2)
       else within 0 0x1C || within 0x38 0x3E || within 0x40 0x5F || op == 0x71 || op == 0x73 || within 0x82 0x87 || within 0xA0 0xA5 ||
         within 0xA8 0xA9 || within 0xAB 0xB0 || op == 0xBB || within 0xC0 0xC5 || within 0xD0 0xD9
     let tails := if esc = true then 0
       else if op = 0xBB ∨ 0xD7 ≤ op ∧ op ≤ 0xD9 then 2
       else if op ∈ [0x84, 0x85, 0x87, 0xA3, 0xA4, 0xC0, 0xC1, 0xC5] then 1 else 0
     let rb := if r = true then bytes (k + 1) else 0
     let imms := if r = true then [0, 1, 4, 8].getD (rb / 64) 0
       else if esc = true then 0 else if op = 0x70 ∨ op = 0x72 then 4 else if within 0x60 0x6F = true ∨ op = 0x75 then 1 else 0
     let at_ := k + 1 + if r = true then 1 else 0
     let len := at_ + imms + tails
     let value := (List.range imms).foldl (fun v i => v + bytes (at_ + i) * 256 ^ i) 0
     let prefixed := fun (w : Word) => dOp w = op ∧ dEsc w = esc ∧ dRep w = pre.contains 0xF0 ∧ dAmo w = pre.contains 0xF1 ∧
       dWid w = (match last (fun b => decide (0xF2 ≤ b)) with | some b => 0xF5 - b | none => 0) ∧
       (match last (fun b => decide (b ≤ 0xEF)) with
        | some b => bit w 13 = true ∧ fld w 14 3 = b / 2 % 8 ∧ bit w 17 = b.testBit 0 | none => fld w 13 5 = 0)
     ((∀ i, i < len → lineByte lines pc i = some (some (bytes i))) → len ≤ 14 → ∃ d, decodeAt lines pc free = .done d ∧ prefixed d.word ∧
       dOver d.word = false ∧ dBad d.word = false ∧ dLen d.word = len ∧ fld d.word 24 8 = rb ∧
       dT1 d.word = (if 1 ≤ tails then bytes (at_ + imms) else 0) ∧ dT2 d.word = (if tails = 2 then bytes (at_ + imms + 1) else 0) ∧
       fld d.word 48 16 = 0 ∧ d.addr = BitVec.ofNat 32 pc ∧ d.imm = (BitVec.ofNat (8 * imms) value).signExtend 64) ∧
     ((∀ i, i < 14 → lineByte lines pc i = some (some (bytes i))) → 14 < len → ∃ d, decodeAt lines pc free = .done d ∧
       dOver d.word = true ∧ dBad d.word = false ∧ dLen d.word = 14 ∧ dispIndex d.word = 511) ∧
     (∀ j, j < len → j < 14 → (∀ i, i < j → lineByte lines pc i = some (some (bytes i))) → lineByte lines pc j = some none →
       ∃ d, decodeAt lines pc free = .done d ∧ dBad d.word = true ∧ dOver d.word = false ∧ dLen d.word = j + 1 ∧
         dispIndex d.word = 510 ∧ (pre.length < j → dEsc d.word = esc)) ∧
     ∀ j, j < len → j < 14 → (∀ i, i < j → lineByte lines pc i = some (some (bytes i))) → lineByte lines pc j = none →
       decodeAt lines pc free = .missing j)

/-- START (R89): legal from IDLE only, it begins the context at ENTRY with its stacks, event table, latches and URG cleared; otherwise the write
is rejected and counted. RESUME (R91, R168) and STOP (R90): the states from which they are legal, what they change, and the rejection from
any other. RESUME empties the fetch buffer; STOP in RUN lets the word commit first, and the timeouts of a stopped context's BLITGOs no
longer fault it. OSTK_WRITE (R92, R151): in IDLE, PARKED or FAULTED the two entries take their address, and their valid bit where every
entry before is valid; an entry after an invalid one becomes invalid, and no other address changes; in any other state the write is rejected
and counted. -/
def Obligations.ContextCommands : Prop :=
  -- StartsAContext
  (∀ (s : State) (c : Fin 1024), s.pageUp (domQuire (quireOf c)) = true →
     ((s.cx c).st = .idle → ∃ t, exec (.ctxStart c) s = .next t ∧
       t.cx c = { s.cx c with
         st := .stall, word := .empty, inflight := none, stopPend := false, hold := none, pend9 := none, mstk := [], et := [], urg := false,
         pollcnt := 0, starved := false, blatch := 0, bEmpty := false, qlatch := 0, qEmpty := false, routine := none, cur := none,
         maddr := BitVec.ofNat 14 (s.get (F.CTX_ENTRY_ENTRY c)) } ∧
       t.ostk c = [] ∧ t.resp = { s.resp with rgErr := false, rgData := 0 } ∧ (∀ d, d ≠ c.val → t.cx d = s.cx d) ∧
       ∀ k, (∀ i, i < 8 → k ≠ R.CTX_OSTK c i) → t.reg k = s.reg k) ∧
     ((s.cx c).st ≠ .idle → exec (.ctxStart c) s = .next ((s.rej (ctxPage c)).okResponse 0))) ∧
  -- ResumesAndStops
  (∀ (s : State) (c : Fin 1024), s.pageUp (domQuire (quireOf c)) = true →
     let x := s.cx c
     ((x.st = .parked ∨ x.st = .faulted) → exec (.ctxResume c) s = .next ((s.setCx c
       { x with st := .stall, word := .empty, pollcnt := 0, starved := false, fclass := 0, pend9 := none, nxt := none, lines := [] }).okResponse 0)) ∧
     (x.st ≠ .parked → x.st ≠ .faulted → exec (.ctxResume c) s = .next ((s.rej (ctxPage c)).okResponse 0)) ∧
     (x.st = .run → exec (.ctxStop c) s = .next ((s.setCx c { x with stopPend := true }).okResponse 0)) ∧
     (x.st ≠ .run → x.st ≠ .idle →
       let t := s.setCx c { x with st := .idle, word := .empty, stopPend := false, hold := none, pend9 := none }
       exec (.ctxStop c) s = .next (({ t with blit := { t.blit with
         waiting := t.blit.waiting.map (fun (r : BlitReq) => if r.ctx = c then { r with stopped := true } else r) } }).okResponse 0)) ∧
     (x.st = .idle → exec (.ctxStop c) s = .next ((s.rej (ctxPage c)).okResponse 0))) ∧
  -- OlupoStackWrites
  (∀ (s : State) (c : Fin 1024) (k : Fin 8) (value : Word), s.pageUp (domQuire (quireOf c)) = true →
     let valid := fun (t : State) (i : Nat) => bit (t.reg (R.CTX_OSTK c (i / 2))) (32 * (i % 2) + 31) = true
     let asked := fun (i : Nat) => if i / 2 = k.val then bit value (32 * (i % 2) + 31) = true else valid s i
     (s.ctxWritable c = false → exec (.ostkWrite c k value) s = .next ((s.rej (ctxPage c)).okResponse 0)) ∧
     (s.ctxWritable c = true → ∃ t, exec (.ostkWrite c k value) s = .next t ∧
       fld (t.reg (R.CTX_OSTK c k)) 0 25 = fld value 0 25 ∧ fld (t.reg (R.CTX_OSTK c k)) 32 25 = fld value 32 25 ∧
       (∀ i, i < 16 → (valid t i ↔ ∀ j, j ≤ i → asked j)) ∧
       (∀ i, i < 16 → i / 2 ≠ k.val → fld (t.reg (R.CTX_OSTK c (i / 2))) (32 * (i % 2)) 31 = fld (s.reg (R.CTX_OSTK c (i / 2))) (32 * (i % 2)) 31) ∧
       t.ctx = s.ctx ∧ ∀ r, (∀ j, j < 8 → r ≠ R.CTX_OSTK c j) → t.reg r = s.reg r))

/-- The scrubber (R22, R381): a corrected word waiting is written back; a scrub read moves POS on, round the RAM, and passes on a word it had to
correct. Host commits of microwords (R23, R378): a word of RAM is stored with fresh check bits and ADDR moves on, in every joined quire if
the page is joined; a ROM address, or LOCK.CS, rejects and counts the write. Loads and reloads (R379, R380, R382): LOAD starts at the
image's first folio or is rejected; a copied folio leads to the next, and the last one ends the load; a reload that has been copied counts
and leaves its folio free; a copy touches no other folio. -/
def Obligations.ControlStoreLoading : Prop :=
  -- Scrubbing
  (∀ (s : State) (q : Fin 32), s.unitOn (domQuire q) = true →
     let a := s.get (F.CST_SCRUB_POS q)
     let next := if a = 0x3FFF then 0x1000 else a + 1
     ((s.qu q).wback = [] → exec (.scrubWriteback q) s = .next s) ∧
     (∀ b w rest, (s.qu q).wback = (b, w) :: rest → 0x1000 ≤ b → b < 0x4000 → ∃ t, exec (.scrubWriteback q) s = .next t ∧
       t.storeWord q b = w ∧ (t.qu q).wback = rest ∧ (∀ d, d ≠ b → d < 0x4000 → t.storeWord q d = s.storeWord q d) ∧ t.regs = s.regs) ∧
     (s.on (F.CST_CTRL_SCEN q) = false → exec (.scrubRead q) s = .next s) ∧
     (s.on (F.CST_CTRL_SCEN q) = true → s.folioBusy q (BitVec.ofNat 14 a) = false →
       (bchSyndrome (s.storeWord q a) = 0 → ∃ t, exec (.scrubRead q) s = .next t ∧ t.get (F.CST_SCRUB_POS q) = next % 2 ^ 14 ∧
         t.qui = s.qui ∧ ∀ r, r ≠ R.CST_SCRUB q → t.reg r = s.reg r) ∧
       (∀ v, bchDecode (s.storeWord q a) = some (v, true) → 0x1000 ≤ a → (s.qu q).wback = [] → ∃ t, exec (.scrubRead q) s = .next t ∧
         t.get (F.CST_SCRUB_POS q) = next % 2 ^ 14 ∧ (t.qu q).wback = [(a, v)]))) ∧
  -- StoreCommits
  (∀ (s : State) (q : Fin 32) (data2 : BitVec 64), s.pageUp (domQuire q) = true →
     let a := s.get (F.CST_ADDR_ADDR q)
     let w : Micro := data2 ++ s.reg (R.CST_DATA q 1) ++ s.reg (R.CST_DATA q 0)
     let joined := fun (k : Nat) => s.on (F.CST_CTRL_JOIN k) = true ∧ s.pageUp (domQuire k) = true
     ∃ t, exec (.cstWordCommit q data2) s = .next t ∧ t.get (F.CST_ADDR_ADDR q) = (a + 1) % 2 ^ 14 ∧
       (s.on (F.CST_CTRL_JOIN q) = true → ∀ k, k < 32 →
         (joined k → s.on (F.CST_LOCK_CS k) = false → 0x1000 ≤ a → t.storeWord k a = bchEncode w) ∧
         (¬ joined k ∨ s.on (F.CST_LOCK_CS k) = true → t.storeWord k a = s.storeWord k a) ∧
         ∀ d, d ≠ a → d < 0x4000 → t.storeWord k d = s.storeWord k d) ∧
       (s.on (F.CST_CTRL_JOIN q) = false → s.on (F.CST_LOCK_CS q) = false → 0x1000 ≤ a → t.storeWord q a = bchEncode w ∧
         (∀ d, d ≠ a → d < 0x4000 → t.storeWord q d = s.storeWord q d) ∧ t.get (rejcnt (cstPage q)) = s.get (rejcnt (cstPage q))) ∧
       (s.on (F.CST_CTRL_JOIN q) = false → (s.on (F.CST_LOCK_CS q) = true ∨ a < 0x1000) → t.cst = s.cst ∧
         t.get (rejcnt (cstPage q)) = Nat.min (s.get (rejcnt (cstPage q)) + 1) (2 ^ 32 - 1))) ∧
  -- StoreLoads
  (∀ (s : State) (q : Fin 32), s.unitOn (domQuire q) = true →
     let first := s.get (F.CST_IMG_FIRST q)
     let n := s.get (F.CST_IMG_NFOL q)
     let may := (s.qu q).load = none ∧ (s.qu q).reload = none ∧ s.on (F.CST_LOCK_CS q) = false ∧ 8 ≤ first ∧ 1 ≤ n ∧ first + n ≤ 32
     (may → ∃ t, exec (.load q) s = .next t ∧ t.get (F.CST_STATUS_LBUSY q) = 1 ∧ t.cst = s.cst ∧
       (t.qu q).load = some ⟨first, first + n - 1, s.get (F.CST_IMG_IMGBASE q), first⟩) ∧
     (¬ may → exec (.load q) s = .next ((s.rej (cstPage q)).okResponse 0)) ∧
     ((s.qu q).load = none → exec (.folioLoadComplete q) s = .next s) ∧
     ((s.qu q).reload = none → exec (.folioReloadComplete q) s = .next s) ∧
     (∀ l u, (s.qu q).load = some l → s.copyWords q l.folio l.base l.first 512 = (.done, u) →
       ∃ t, exec (.folioLoadComplete q) s = .next t ∧ t.cst = u.cst ∧
         (l.folio < l.last → (t.qu q).load = some { l with folio := l.folio + 1 }) ∧
         (l.last ≤ l.folio → (t.qu q).load = none ∧ t.get (F.CST_STATUS_LBUSY q) = 0)) ∧
     (∀ l u, (s.qu q).reload = some l → s.copyWords q l.folio l.base l.first 512 = (.done, u) → (s.qu q).reloadReq = [] →
       ∃ t, exec (.folioReloadComplete q) s = .next t ∧ t.cst = u.cst ∧ (t.qu q).reload = none ∧ t.get (F.CST_STATUS_RLBUSY q) = 0 ∧
         t.get (F.CST_RLCNT_RLCNT q) = Nat.min (s.get (F.CST_RLCNT_RLCNT q) + 1) (2 ^ (F.CST_RLCNT_RLCNT q).width - 1)) ∧
     (∀ f base k u, s.copyWords q f base first k = (.done, u) → k ≤ 512 → ∀ a, a / 512 ≠ f → a < 0x4000 → f < 32 →
       u.storeWord q a = s.storeWord q a))

/-- The bank code (R178): a stored word reads back clean, any one wrong bit of the 72 is corrected, any two are detected. The array (R169): a
word stored reads back with its check bits, every other word keeps its value, little-endian (R6) bytes, and the memories stay canonical.
Bank memory is listed by byte in canonical form, an unlisted byte reading 0 (log entry 10). -/
def Obligations.BankWords : Prop :=
  -- BankCodeCorrectsOneDetectsTwo
  (∀ w : Word, secSyndrome (secEncode w) = 0 ∧ (secEncode w).setWidth 64 = w ∧
     (∀ i, i < 72 → let v := secEncode w ^^^ (1#72 <<< i); secDecode (v.setWidth 64) (secSyndrome v) = (w, .corrected)) ∧
     ∀ i j, i < j → j < 72 →
       let v := secEncode w ^^^ (1#72 <<< i) ^^^ (1#72 <<< j)
       (secDecode (v.setWidth 64) (secSyndrome v)).2 = .poisoned) ∧
  -- ArrayWordStoredReadsBack
  (∀ (s : State) (w : Nat) (v : BitVec 72),
     (s.setArrWord w v).arrWord w = v ∧ (∀ u, u ≠ w → (s.setArrWord w v).arrWord u = s.arrWord u) ∧
     (∀ i, i < 8 → tget (fun _ => (0 : Byte)) (s.setArrWord w v).mem (8 * w + i) = v.extractLsb' (8 * i) 8) ∧
     (Memory.wf s.mem = true → Memory.wf (s.setArrWord w v).mem = true) ∧ (Memory.wf s.chk = true → Memory.wf (s.setArrWord w v).chk = true))

/-- PORT_A_REQUEST_STEP (R171, R172, R175, R181-R183): a bank that is not ON or in handover holds an operation, and a younger one to another
bank goes on; an accepted load is read, a doubleword store joins the write steps, a narrower one merges its bytes. An atomic on Port A
(R177, R180): it delivers the old word, its write step stores the sum or the new value, and on a poisoned word an AADD writes nothing.
Condition 15 is whether the value now in memory, or the old value of a swap, is zero. PORT_A_WRITE_STEP (R171, R178, R180, R253): the bank's
oldest write step stores its word with fresh check bits, discarding a write-back of it that waits, and posts the event it carries; one whose
merge met a poisoned word stores nothing and is counted; no other word changes. BANK_READ_LATCH_FILL (R48, R172, R178-R180): the latch takes
the bytes of the access, extended as the operation says; a corrected word is counted and sets condition 27; a poisoned one is delivered as
stored, with condition 16, UNC, ECCLOG and a record. An operation that a bank's owner refuses (R114, R115, R182): the violation is counted
and recorded, and the memory keeps its words; a load then reads zero, or under STOWN leaves its latch empty and faults the context with
class 6, its record before the bank's. -/
def Obligations.PortAAccesses : Prop :=
  -- PortARequest
  (∀ (s : State) (c : Fin 1024) (op : BankOp) (rest : List BankOp), (s.cx c).ops = op :: rest → op.phase = .requested →
     (s.cx c).hold = none → s.unitOn (domQuire (quireOf c)) = true → op.addr.toNat < 2 ^ 25 →
     let q := quireOf c
     let n := bankOf op.addr.toNat
     let w := op.addr.toNat / 8
     let kept := s.unitOn (domBank n) = false ∨ (s.get (F.BNK_OWN_OWNER n) = q ∧ s.on (F.BNK_OWN_PEND n) = true)
     let takes := fun (n : Nat) => s.unitOn (domBank n) = true ∧ s.get (F.BNK_OWN_OWNER n) = q ∧ s.on (F.BNK_OWN_PEND n) = false
     let stores := fun (d : Word) (mask : Nat) => (.next ((s.setCx c { s.cx c with ops := rest }).setBk n
       { s.bk n with wsteps := (s.bk n).wsteps ++ [⟨w, d, mask, none, q, false, none, none⟩] }) : Res)
     (kept → (∀ o ∈ rest, o.phase ≠ .requested) → exec (.portARequestStep c) s = .next s) ∧
     (∀ o more, kept → rest = o :: more → o ≠ op → o.phase = .requested → 1 ≤ o.memop.toNat → o.memop.toNat ≤ 7 → o.addr.toNat < 2 ^ 25 →
       takes (bankOf o.addr.toNat) → secSyndrome (s.portAWord (o.addr.toNat / 8)) = 0 →
       exec (.portARequestStep c) s = .next (s.setCx c { s.cx c with
         ops := op :: { o with phase := .delivered ((s.portAWord (o.addr.toNat / 8)).setWidth 64) 0 } :: more })) ∧
     (takes n →
       (1 ≤ op.memop.toNat → op.memop.toNat ≤ 7 → secSyndrome (s.portAWord w) = 0 → exec (.portARequestStep c) s = .next (s.setCx c { s.cx c with
         ops := { op with phase := .delivered ((s.portAWord w).setWidth 64) 0 } :: rest })) ∧
       (op.memop = 8 → op.addr.toNat % 8 = 0 → exec (.portARequestStep c) s = stores op.data 255) ∧
       (9 ≤ op.memop.toNat → op.memop.toNat ≤ 11 → op.addr.toNat % memSize op.memop.toNat = 0 → secSyndrome (s.portAWord w) = 0 →
         let k := op.addr.toNat % 8
         let size := memSize op.memop.toNat
         exec (.portARequestStep c) s = stores (setFld ((s.portAWord w).setWidth 64) (8 * k) (8 * size) (fld op.data 0 (8 * size)))
           ((2 ^ size - 1) * 2 ^ k)))) ∧
  -- AtomicsOnPortA
  (∀ (s : State) (c : Fin 1024) (op : BankOp) (rest : List BankOp), (s.cx c).ops = op :: rest → op.memop = 12 ∨ op.memop = 13 → op.addr.toNat % 8 = 0 →
     (s.cx c).hold = none → s.unitOn (domQuire (quireOf c)) = true → op.addr.toNat < 2 ^ 25 →
     let w := op.addr.toNat / 8
     let v := s.portAWord w
     let got : BankOp := { op with phase := .delivered (v.setWidth 64) (secSyndrome v) }
     let n := bankOf op.addr.toNat
     let step := fun (d : Word) (mask : Nat) => (.next ((s.setCx c { s.cx c with ops := got :: rest }).setBk n
       { s.bk n with wsteps := (s.bk n).wsteps ++ [⟨w, d, mask, none, quireOf c, true, none, none⟩] }) : Res)
     (op.phase = .requested → s.portAGate n (quireOf c) = .accepted → secSyndrome v = 0 →
       exec (.portARequestStep c) s = step (if op.memop = 12 then v.setWidth 64 + op.data else op.data) 255) ∧
     (op.phase = .requested → s.portAGate n (quireOf c) = .accepted → (secDecode (v.setWidth 64) (secSyndrome v)).2 = .poisoned → op.memop = 12 →
       exec (.portARequestStep c) s = step 0 0) ∧
     ∀ d, op.phase = .delivered d 0 → s.pwr.running = true → ∃ t, exec (.bankReadLatchFill c) s = .next t ∧ (t.cx c).blatch = d ∧
       (t.cx c).ops = rest ∧ ((t.cx c).atomZero = true ↔ if op.memop = 12 then d + op.data = 0 else d = 0)) ∧
  -- PortAWriteStep
  (∀ (s : State) (n : Fin 128) (p : WStep) (rest : List WStep), s.unitOn (domBank n) = true → (s.bk n).wsteps = p :: rest →
     p.word / 32768 = n → (s.bk n).march = none →
     (p.drop = none → p.mask ≠ 0 → s.on (F.BNK_INJ_ARM n) = false →
       ∃ t, exec (.portAWriteStep n) s = .next t ∧ t.arrWord p.word = secEncode p.data ∧ (∀ w, w ≠ p.word → t.arrWord w = s.arrWord w) ∧
         (t.bk n).wsteps = rest ∧ (∀ w, w ∈ (t.bk n).wb ↔ w ∈ (s.bk n).wb ∧ w ≠ p.word) ∧ t.regs = s.regs ∧ (∀ k, k ≠ n → t.bk k = s.bk k) ∧
         ∀ l, p.line = some l → l < 0xC80 → (s.fclk, l) ∈ t.posted) ∧
     (∀ syn, p.drop = some syn → ∃ t, exec (.portAWriteStep n) s = .next t ∧ t.mem = s.mem ∧ t.chk = s.chk ∧ (t.bk n).wsteps = rest ∧
       t.get (F.BNK_NDROP_COUNT n) = Nat.min (s.get (F.BNK_NDROP_COUNT n) + 1) (2 ^ (F.BNK_NDROP_COUNT n).width - 1) ∧
       (s.records 0x032 → t.recorded 0x032 (0x500 + n.val) (BitVec.ofNat 64 (8 * p.word)) (BitVec.ofNat 64 syn.toNat) (BitVec.ofNat 64 p.req)))) ∧
  -- LatchFills
  (∀ (s : State) (c : Fin 1024) (op : BankOp) (rest : List BankOp) (w : Word) (syn : BitVec 8), s.pwr.running = true →
     (s.cx c).ops = op :: rest → op.phase = .delivered w syn → 1 ≤ op.memop.toNat → op.memop.toNat ≤ 7 →
     let n := bankOf op.addr.toNat
     let filled := fun (d : Word) (bad fixed : Bool) => { s.cx c with
       ops := rest, blatch := loadValue op.memop.toNat op.addr.toNat d, bEmpty := rest.any (fun o => memFills o.memop.toNat),
       poisoned := bad, corrected := fixed }
     let more := fun (f : RF) => Nat.min (s.get f + 1) (2 ^ f.width - 1)
     (syn = 0 → exec (.bankReadLatchFill c) s = .next (s.setCx c (filled w false false))) ∧
     (op.addr.toNat < 2 ^ 25 → ∀ d, secDecode w syn = (d, .corrected) → ∃ t, exec (.bankReadLatchFill c) s = .next t ∧
       t.cx c = filled d false true ∧ t.get (F.BNK_ECCCNT_CORR n) = more (F.BNK_ECCCNT_CORR n) ∧ t.get (F.BNK_STATUS_CORRSEEN n) = 1) ∧
     (op.addr.toNat < 2 ^ 25 → (secDecode w syn).2 = .poisoned → ∃ t, exec (.bankReadLatchFill c) s = .next t ∧ t.cx c = filled w true false ∧
       t.get (F.BNK_ECCCNT_UNC n) = more (F.BNK_ECCCNT_UNC n) ∧ t.get (F.BNK_STATUS_UNCSEEN n) = 1 ∧
       t.get (F.BNK_ECCLOG_WORD n) = op.addr.toNat / 8 % 32768 ∧ t.get (F.BNK_ECCLOG_SYND n) = syn.toNat ∧ t.get (F.BNK_ECCLOG_PORT n) = 0 ∧
       (s.records 0x031 → t.recorded 0x031 (0x500 + n) (BitVec.ofNat 64 (op.addr.toNat / 8 * 8)) (syn.setWidth 64) (BitVec.ofNat 64 (quireOf c)))) ∧
     (let bits := 8 * memSize op.memop.toNat
      let v := w.toNat / 2 ^ (8 * (op.addr.toNat % 8)) % 2 ^ bits
      (loadValue op.memop.toNat op.addr.toNat w).toInt =
        if op.memop.toNat ≤ 4 then (BitVec.ofNat 64 v).toInt else (BitVec.ofNat bits v).toInt)) ∧
  -- OwnershipRefusals
  (∀ (s : State) (c : Fin 1024) (op : BankOp) (rest : List BankOp), (s.cx c).ops = op :: rest → op.phase = .requested →
     s.unitOn (domQuire (quireOf c)) = true → op.addr.toNat < 2 ^ 25 →
     let q := quireOf c
     let n := bankOf op.addr.toNat
     let x := s.cx c
     let counted := fun (t : State) => t.mem = s.mem ∧ t.bnk = s.bnk ∧ t.get (F.BNK_VIOL_VREQ n) = q ∧
       t.get (F.BNK_VIOL_VCOUNT n) = Nat.min (s.get (F.BNK_VIOL_VCOUNT n) + 1) (2 ^ (F.BNK_VIOL_VCOUNT n).width - 1) ∧
       t.get (F.BNK_VIOL_VWORD n) = op.addr.toNat / 8 % 32768 ∧ t.get (F.BNK_STATUS_VIOLSEEN n) = 1 ∧
       t.get (errcnt (bankPage n)) = Nat.min (s.get (errcnt (bankPage n)) + 1) (2 ^ 32 - 1)
     let kind := if op.memop = 12 then 2 else if op.memop = 13 then 3 else if 8 ≤ op.memop.toNat ∧ op.memop.toNat ≤ 11 then 1 else 0
     s.unitOn (domBank n) = true → s.get (F.BNK_OWN_OWNER n) ≠ q →
     (op.strict = false → x.hold = none →
       ∃ t, exec (.portARequestStep c) s = .next t ∧ counted t ∧
         (t.cx c).ops = (if memFills op.memop.toNat = true then { op with phase := .delivered 0 0 } :: rest else rest) ∧ (t.cx c).st = x.st ∧
         (s.records 0x030 → t.recorded 0x030 (0x500 + n) (op.addr.setWidth 64) (BitVec.ofNat 64 q) (BitVec.ofNat 64 kind))) ∧
     ∀ b, op.strict = true → x.hold = some ⟨true, b, .cont⟩ → x.st ≠ .idle → x.st ≠ .faulted →
       ∃ t, exec (.portARequestStep c) s = .next t ∧ counted t ∧ (t.cx c).st = .faulted ∧ (t.cx c).fclass = 6 ∧ (t.cx c).maddr = x.maddr ∧
         (t.cx c).ops = rest ∧ (t.cx c).bEmpty = x.bEmpty ∧ (t.cx c).blatch = x.blatch ∧ t.get (F.CTX_STATUS_FAULTSEEN c) = 1 ∧
         (s.records 0x030 → s.records 0x016 → (s.col.intake.filter (fun o => !o.own)).length < 15 →
           ∃ f v, t.col.intake = s.col.intake ++ [f, v] ∧ f.code = 0x016 ∧ f.source = c.val ∧ f.a0 = (t.cx c).finfo ∧
             f.a1 = op.addr.setWidth 64 ∧ f.a2 = op.memop.setWidth 64 ∧ v.code = 0x030 ∧ v.source = 0x500 + n))

/-- PORT_B_ACCESS (R174, R177, R187): a line is written or read, a write of part of a word holding the port for two BCLK; of two users the one
later in order waits and is counted, as does an access that finds the port or its word held; a destructive march refuses and counts it.
ECC_WRITEBACK (R179): the oldest word waiting is corrected in place when it still reads as correctable. Ownership (R181, R183, R184): a
write of OWN takes effect with PEND set, unless it is locked, pending, reserved or under a destructive march, and then it is rejected and
counted; the handover completes when no write step remains. The read data of Port B is observed in a field of the model's own (log entry
13). -/
def Obligations.PortBAndOwnership : Prop :=
  -- PortBAccesses
  (∀ (s : State) (n : Fin 128) (r : PortBRequest), s.unitOn (domBank n) = true → r.user ≠ .march →
     s.get (F.BNK_OWN_OWNER n) ≠ portBCode r.user →
     let w := n.val * 32768 + 2 * r.line.toNat
     let free := (s.bk n).march = none ∧ s.portBWaits n r.user (lineWords n r) = false
     let count := match r.user with | .queueManager => F.BNK_PBSTALL_QMG n | .dma => F.BNK_PBSTALL_DMA n | _ => F.BNK_PBSTALL_HOST n
     (free → r.isWrite = true → r.enables = BitVec.allOnes 16 → s.on (F.BNK_INJ_ARM n) = false →
       ∃ t, exec (.portBAccess n [r]) s = .next t ∧ t.arrWord w = secEncode (r.data.setWidth 64) ∧
         t.arrWord (w + 1) = secEncode (r.data.extractLsb' 64 64) ∧ (∀ u, u ≠ w → u ≠ w + 1 → t.arrWord u = s.arrWord u) ∧ t.ctx = s.ctx ∧
         s.bclk ≤ (t.bk n).busyB ∧ (t.bk n).userB = portBCode r.user) ∧
     (free → r.isWrite = true → r.enables = 1 → secSyndrome (s.arrWord w) = 0 → s.on (F.BNK_INJ_ARM n) = false →
       ∃ t, exec (.portBAccess n [r]) s = .next t ∧
         t.arrWord w = secEncode (setFld ((s.arrWord w).setWidth 64) 0 8 (fld (r.data.setWidth 64) 0 8)) ∧
         (∀ u, u ≠ w → t.arrWord u = s.arrWord u) ∧ s.bclk + 1 ≤ (t.bk n).busyB) ∧
     (free → r.isWrite = false → secSyndrome (s.arrWord w) = 0 → secSyndrome (s.arrWord (w + 1)) = 0 →
       ∃ t, exec (.portBAccess n [r]) s = .next t ∧ (t.bk n).bdata.setWidth 64 = (s.arrWord w).setWidth 64 ∧
         (t.bk n).bdata.extractLsb' 64 64 = (s.arrWord (w + 1)).setWidth 64 ∧ t.mem = s.mem ∧ t.regs = s.regs) ∧
     (s.portBWaits n r.user (lineWords n r) = true → exec (.portBAccess n [r]) s = .next (s.inc count)) ∧
     (∀ o : PortBRequest, free → r.user = .dma → o.user = .hostWindow → s.get (F.BNK_OWN_OWNER n) ≠ portBCode .hostWindow →
       ∃ t, exec (.portBAccess n [r, o]) s = .next t ∧ exec (.portBAccess n [r]) (s.inc (F.BNK_PBSTALL_HOST n)) = .next t) ∧
     ∀ m, (s.bk n).march = some m → m.preserving = false → ∃ t, exec (.portBAccess n [r]) s = .next t ∧ t.mem = s.mem ∧ t.chk = s.chk ∧
       t.get (errcnt (bankPage n)) = Nat.min (s.get (errcnt (bankPage n)) + 1) (2 ^ 32 - 1) ∧ (r.isWrite = false → (t.bk n).bdata = 0)) ∧
  -- EccWriteback
  (∀ (s : State) (n : Fin 128) (w : Nat) (rest : List Nat) (d : Word), s.unitOn (domBank n) = true → (s.bk n).march = none →
     (s.bk n).wb = w :: rest → (s.bk n).busyB < s.bclk → w / 32768 = n → secDecode ((s.arrWord w).setWidth 64) (secSyndrome (s.arrWord w)) = (d, .corrected) →
     ∃ t, exec (.eccWriteback n) s = .next t ∧ t.arrWord w = secEncode d ∧ (∀ u, u ≠ w → t.arrWord u = s.arrWord u) ∧ t.regs = s.regs) ∧
  -- OwnershipHandovers
  (∀ (s : State) (n : Fin 128) (owner : BitVec 6),
     (s.pageUp (domBank n) = true →
       let bad := s.on (F.BNK_LOCK_OWN n) = true ∨ s.on (F.BNK_OWN_PEND n) = true ∨ ¬ (owner.toNat ≤ 0x23 ∨ owner.toNat = 0x3F) ∨
         s.marchRefuses n = true
       (bad → exec (.ownershipHandover n owner) s = .next ((s.rej (bankPage n)).okResponse 0)) ∧
       (¬ bad → s.get (F.BNK_OWN_OWNER n) = owner.toNat → exec (.ownershipHandover n owner) s = .next (s.okResponse 0)) ∧
       (¬ bad → s.get (F.BNK_OWN_OWNER n) ≠ owner.toNat → ∃ t, exec (.ownershipHandover n owner) s = .next t ∧
         t.get (F.BNK_OWN_OWNER n) = owner.toNat ∧ t.get (F.BNK_OWN_PEND n) = 1 ∧ ∀ k, k ≠ R.BNK_OWN n → t.reg k = s.reg k)) ∧
     (s.unitOn (domBank n) = true → s.on (F.BNK_OWN_PEND n) = true → (s.bk n).wsteps = [] →
       ∃ t, exec (.handoverComplete n) s = .next t ∧ t.get (F.BNK_OWN_PEND n) = 0 ∧ t.get (F.BNK_OWN_OWNER n) = s.get (F.BNK_OWN_OWNER n) ∧
         (s.on (F.BNK_EVEN_ONHAND n) = true → s.get (F.BNK_EVEN_EV n) < 0xC80 → (s.fclk, s.get (F.BNK_EVEN_EV n)) ∈ t.posted)))

/-- March commands (R186-R189): a destructive march starts only on a bank owned by nobody, a preserving one on any; a lock or a running march
rejects both; an abort sends a destructive one to its last element, from line 0, and a preserving one puts its group back and ends.
MARCH_ACCESS (R187, R188, R189): every access of both marches. `test b e r line` is read (or write) `r` of element `e` under background `b`
at a line: a write stores its pattern in the row alone, a read counts a row that differs and logs the first. A preserving march saves eight
rows, tests them and writes them back, group by group; the destructive one ends with zeros and the results. INJ_WRITE (R191): taken while
ARM is clear, rejected while it is set; the next word stored has its check bits and the chosen data bit flipped, and ARM clears. -/
def Obligations.MarchesAndInjection : Prop :=
  -- MarchCommands
  (∀ (s : State) (n : Fin 128) (gap : BitVec 8), s.pageUp (domBank n) = true →
     let idle := (s.bk n).march = none
     (idle → s.get (F.BNK_OWN_OWNER n) = 0x3F → s.on (F.BNK_OWN_PEND n) = false → s.on (F.BNK_LOCK_MARCH n) = false →
       ∃ t, exec (.marchStartDestructive n gap) s = .next t ∧ (t.bk n).march = some ⟨false, 0, 0, [], false⟩ ∧
         t.get (F.BNK_STATUS_MBUSY n) = 1 ∧ t.mem = s.mem) ∧
     (idle → s.on (F.BNK_LOCK_MARCH n) = false →
       ∃ t, exec (.marchStartPreserving n gap) s = .next t ∧ (t.bk n).march = some ⟨true, 0, 0, [], false⟩ ∧
         t.get (F.BNK_STATUS_MBUSY n) = 1 ∧ t.mem = s.mem) ∧
     (s.on (F.BNK_LOCK_MARCH n) = true ∨ ¬ idle → exec (.marchStartPreserving n gap) s = .next ((s.rej (bankPage n)).okResponse 0) ∧
       exec (.marchStartDestructive n gap) s = .next ((s.rej (bankPage n)).okResponse 0)) ∧
     ∀ m, (s.bk n).march = some m →
       (m.preserving = false → ∃ t, exec (.marchAbort n gap) s = .next t ∧ t.get (F.BNK_MSTAT_ABORTED n) = 1 ∧
         (t.bk n).march = some { m with pos := 327680, group := 0, save := [] } ∧ t.mem = s.mem) ∧
       (m.preserving = true → m.pos < 176 → m.save.length ≤ 16 → ∃ t, exec (.marchAbort n gap) s = .next t ∧ t.get (F.BNK_MSTAT_ABORTED n) = 1 ∧
         (t.bk n).march = none ∧ t.get (F.BNK_STATUS_MBUSY n) = 0 ∧ t.get (F.BNK_STATUS_MDONE n) = 1 ∧
         (∀ i, 2 * i + 1 < m.save.length → m.pos ≤ 168 + i → t.arrRow n (8 * m.group + i) = (m.save.getD (2 * i) 0, m.save.getD (2 * i + 1) 0)) ∧
         ∀ l, (∀ i, 2 * i + 1 < m.save.length → m.pos ≤ 168 + i → l ≠ 8 * m.group + i) → t.arrRow n l = s.arrRow n l)) ∧
  -- MarchAccesses
  (∀ (s : State) (n : Fin 128) (m : March), s.unitOn (domBank n) = true → (s.bk n).march = some m → s.portBFree n 0x25 = true →
     let row := fun (t : State) (l : Nat) => t.arrRow n l
     let goes := fun (p : State → Prop) => ∃ t, exec (.marchAccess n) s = .next t ∧ p t
     let on := fun (t : State) (pos : Nat) (save : List (BitVec 72)) => (t.bk n).march = some { m with pos := pos, save := save }
     let only := fun (t : State) (l : Nat) (a b : BitVec 72) => row t l = (a, b) ∧ (∀ k, k ≠ l → row t k = row s k) ∧ t.regs = s.regs
     let pat := fun (b : Nat) (one : Bool) => (if b = 0 then (if one = true then BitVec.allOnes 72 else 0)
       else (if one = true then 0x555555555555555555 else 0xAAAAAAAAAAAAAAAAAA) : BitVec 72)
     let put := fun (b : Nat) (one : Bool) (l : Nat) => goes (fun t => only t l (pat b one) (pat b one) ∧ on t (m.pos + 1) m.save)
     let read := fun (b e : Nat) (one : Bool) (l : Nat) =>
       (row s l = (pat b one, pat b one) → goes (fun t => t.mem = s.mem ∧ t.chk = s.chk ∧ t.regs = s.regs ∧ on t (m.pos + 1) m.save)) ∧
       (row s l ≠ (pat b one, pat b one) → goes (fun t => t.mem = s.mem ∧ t.chk = s.chk ∧
         t.get (F.BNK_MSTAT_FAILCNT n) = Nat.min (s.get (F.BNK_MSTAT_FAILCNT n) + 1) (2 ^ (F.BNK_MSTAT_FAILCNT n).width - 1) ∧
         t.get ⟨R.BNK_REPAIRSUM n, 8 * (l / 2048) + 3, 1⟩ = 1 ∧ (m.failed = false → t.get (F.BNK_MFAIL_LINE n) = l ∧
           t.get (F.BNK_MFAIL_ELEM n) = 6 * b + e ∧ ∃ m', (t.bk n).march = some m' ∧ m'.failed = true ∧ m'.pos = m.pos + 1)))
     (∀ lines start base, (m.preserving = false ∧ m.group = 0 ∧ m.save = [] ∧ lines = 16384 ∧ start = 0 ∧ base = 0) ∨
         (m.preserving = true ∧ m.group < 2048 ∧ lines = 8 ∧ start = 8 ∧ base = 8 * m.group) →
       ∀ b i, b < 2 → i < lines →
         let at_ := fun (k : Nat) => m.pos = start + 10 * lines * b + k
         (at_ i → put b false (base + i)) ∧ (at_ (lines + 2 * i) → read b 1 false (base + i)) ∧ (at_ (lines + 2 * i + 1) → put b true (base + i)) ∧
         (at_ (3 * lines + 2 * i) → read b 2 true (base + i)) ∧ (at_ (3 * lines + 2 * i + 1) → put b false (base + i)) ∧
         (at_ (5 * lines + 2 * i) → read b 3 false (base + lines - 1 - i)) ∧ (at_ (5 * lines + 2 * i + 1) → put b true (base + lines - 1 - i)) ∧
         (at_ (7 * lines + 2 * i) → read b 4 true (base + lines - 1 - i)) ∧ (at_ (7 * lines + 2 * i + 1) → put b false (base + lines - 1 - i)) ∧
         (at_ (9 * lines + i) → read b 5 false (base + i))) ∧
     (m.preserving = false → m.group = 0 → m.save = [] → 327680 ≤ m.pos → m.pos + 1 < 344064 →
       goes (fun t => only t (m.pos - 327680) 0 0 ∧ on t (m.pos + 1) [])) ∧
     (m.preserving = false → m.pos = 344063 → goes (fun t => row t 16383 = (0, 0) ∧ (t.bk n).march = none ∧ t.get (F.BNK_STATUS_MBUSY n) = 0 ∧
       t.get (F.BNK_STATUS_MDONE n) = 1 ∧ (s.on (F.BNK_MSTAT_FAILCNT n) = true → t.get (F.BNK_STATUS_MFAIL n) = 1))) ∧
     (m.preserving = true → m.pos < 8 → goes (fun t => t.mem = s.mem ∧ t.chk = s.chk ∧ t.regs = s.regs ∧
       on t (m.pos + 1) (m.save ++ [(row s (8 * m.group + m.pos)).1, (row s (8 * m.group + m.pos)).2]))) ∧
     (m.preserving = true → 168 ≤ m.pos → m.pos < 175 →
       goes (fun t => only t (8 * m.group + (m.pos - 168)) (m.save.getD (2 * (m.pos - 168)) 0) (m.save.getD (2 * (m.pos - 168) + 1) 0) ∧
         on t (m.pos + 1) m.save)) ∧
     (m.preserving = true → m.pos = 175 → m.group + 1 < 2048 → goes (fun t => only t (8 * m.group + 7) (m.save.getD 14 0) (m.save.getD 15 0) ∧
       (t.bk n).march = some { m with pos := 0, group := m.group + 1, save := [] })) ∧
     (m.preserving = true → m.pos = 175 → m.group = 2047 → goes (fun t => row t 16383 = (m.save.getD 14 0, m.save.getD 15 0) ∧
       (t.bk n).march = none ∧ t.get (F.BNK_STATUS_MBUSY n) = 0 ∧ t.get (F.BNK_STATUS_MDONE n) = 1))) ∧
  -- ErrorInjection
  (∀ (s : State) (n : Fin 128) (value : Word), s.pageUp (domBank n) = true →
     (s.on (F.BNK_INJ_ARM n) = true → exec (.injWrite n value) s = .next ((s.rej (bankPage n)).okResponse 0)) ∧
     (s.on (F.BNK_INJ_ARM n) = false → ∃ t, exec (.injWrite n value) s = .next t ∧ (t.reg (R.BNK_INJ n)).toNat = value.toNat % 2 ^ 16 ∧
       ∀ k, k ≠ R.BNK_INJ n → t.reg k = s.reg k) ∧
     ∀ p rest, s.unitOn (domBank n) = true → (s.bk n).wsteps = p :: rest → p.word / 32768 = n → p.drop = none → p.mask ≠ 0 →
       (s.bk n).march = none → s.on (F.BNK_INJ_ARM n) = true → ∃ t, exec (.portAWriteStep n) s = .next t ∧
         t.arrWord p.word = secEncode p.data ^^^ (BitVec.ofNat 72 (s.get (F.BNK_INJ_CFLIP n)) <<< 64) ^^^
           (if s.on (F.BNK_INJ_DEN n) = true then 1 <<< s.get (F.BNK_INJ_DBIT n) else 0) ∧
         t.get (F.BNK_INJ_ARM n) = 0 ∧ ∀ w, w ≠ p.word → t.arrWord w = s.arrWord w)

/-- QUEUE_GRANT (R204, R205, R212): the port next in rotation after the last one served is granted first, its oldest request moves to the
granted operations with the queue's EN, the rotation goes on from it, and MAXWAIT takes a longer wait; after two grants an FCLK makes none.
Two requests of different ports in one grant (R204, R205): both are granted, first the one whose port comes first after the last served. A
granted operation that finds room or an element is accepted (R199, R200): it waits for its element access at the reserved pointer; WMARM
sets ARMED and answers, and the watermark, met at once, disarms it and posts. -/
def Obligations.QueueRequests : Prop :=
  -- QueueGrants
  (∀ (s : State) (k : Fin 16) (r : QReq), s.unitOn (domSlice k) = true →
     ((s.sl k).grants = (s.fclk, 2) → exec (.queueGrant k) s = .next s) ∧
     ((s.sl k).grants.1 ≠ s.fclk → (s.sl k).reqs = [r] → r.port < 64 → s.qdPattern r.queue 0 = 0 → s.qdPattern r.queue 1 = 0 →
       ∃ t, exec (.queueGrant k) s = .next t ∧ (t.sl k).reqs = [] ∧ (t.sl k).lastPort = r.port ∧
         (t.sl k).granted = (s.sl k).granted ++ [(r, s.on (F.QD_CFG_EN r.queue))] ∧ t.mem = s.mem ∧ t.ctx = s.ctx ∧
         t.get (F.QSL_MAXWAIT_MAXWAIT k) = Nat.max (s.get (F.QSL_MAXWAIT_MAXWAIT k)) (Nat.min (s.fclk - r.since) 65535) ∧
         ∀ f, f ≠ R.QSL_MAXWAIT k → t.reg f = s.reg f)) ∧
  -- GrantRotation
  (∀ (s : State) (k : Fin 16) (a b : QReq), s.unitOn (domSlice k) = true → (s.sl k).grants.1 ≠ s.fclk →
     ((s.sl k).reqs = [a, b] ∨ (s.sl k).reqs = [b, a]) →
     (s.sl k).lastPort < 64 → a.port < 64 → b.port < 64 → turnsAfter (s.sl k).lastPort a.port < turnsAfter (s.sl k).lastPort b.port →
     s.qdPattern a.queue 0 = 0 → s.qdPattern a.queue 1 = 0 → s.qdPattern b.queue 0 = 0 → s.qdPattern b.queue 1 = 0 →
     ∃ t, exec (.queueGrant k) s = .next t ∧ (t.sl k).reqs = [] ∧ (t.sl k).lastPort = b.port ∧
       (t.sl k).granted = (s.sl k).granted ++ [(a, s.on (F.QD_CFG_EN a.queue)), (b, s.on (F.QD_CFG_EN b.queue))]) ∧
  -- QueueOperationsAccepted
  (∀ (s : State) (n : BitVec 14) (r : QReq) (en : Bool) (rest : List (QReq × Bool)) (c id : Nat),
     let k := n.toNat % 16
     s.unitOn (domSlice k) = true → (s.sl k).granted = (r, en) :: rest → r.queue = n.toNat → r.tag = .ctx c id → (s.cx c).hold = none →
     s.refusalCause r.port r.qop n.toNat en = 0 →
     let room := (s.rtail n.toNat + 2 ^ 18 - s.get (F.QD_PTR_HEAD n.toNat)) % 2 ^ 18 < s.qCap n.toNat
     let some_ := (s.get (F.QD_PTR_TAIL n.toNat) + 2 ^ 18 - s.rhead n.toNat) % 2 ^ 18 ≠ 0
     let taken := fun (t : State) (index : Nat) =>
       t.sl k = { s.sl k with granted := rest, accesses := (s.sl k).accesses ++ [⟨r, index⟩] } ∧ t.ctx = s.ctx ∧ t.regs = s.regs ∧ t.mem = s.mem
     (room → r.qop = 1 → ∃ t, exec (.push n) s = .next t ∧ taken t (s.rtail n.toNat)) ∧
     (room → r.qop = 4 → ∃ t, exec (.pushif n) s = .next t ∧ taken t (s.rtail n.toNat)) ∧
     (some_ → r.qop = 2 → ∃ t, exec (.pop n) s = .next t ∧ taken t (s.rhead n.toNat)) ∧
     (some_ → r.qop = 3 → ∃ t, exec (.peek n) s = .next t ∧ taken t (s.rhead n.toNat)) ∧
     (some_ → r.qop = 5 → ∃ t, exec (.popif n) s = .next t ∧ taken t (s.rhead n.toNat)) ∧
     (r.qop = 6 → ∃ t, exec (.wmarm n) s = .next t ∧ (t.sl k).granted = rest ∧ (t.sl k).accesses = (s.sl k).accesses ∧
       (let met := if s.on (F.QD_PTR_WMDIR n.toNat) = true then s.qCount n.toNat ≤ s.get (F.QD_PTR_WM n.toNat)
         else s.get (F.QD_PTR_WM n.toNat) ≤ s.qCount n.toNat
        (¬ met → t.get (F.QD_PTR_ARMED n.toNat) = 1) ∧
        (met → t.get (F.QD_PTR_ARMED n.toNat) = 0 ∧
         (s.get (F.QD_CFG_NOTIFY n.toNat) < 0x480 → (s.fclk, 0x800 + s.get (F.QD_CFG_NOTIFY n.toNat)) ∈ t.posted))) ∧
       (∀ f, f ≠ R.QD_PTR n.toNat → t.reg f = s.reg f) ∧ ∀ o, o.id = id → (s.cx c).qops = [o] → (t.cx c).qok = true ∧ (t.cx c).qops = []))

/-- An operation on a full or empty queue (R200, R201, R212): the context is answered without success; PUSH, POP and PEEK are counted as
overflow or underflow, with LAST and a record, PUSHIF and POPIF are not, and POP, PEEK and POPIF deliver zero. Refusals (R201, R202, R212):
a reserved number, a disabled queue, an element taken from another quire's queue or a port queue by the wrong port. The operation changes no
queue, is answered without success, zero in the pop latch, and counts, whatever STQ says. A push to any quire's queue is not refused.
ELEMENT_ACCESS_COMPLETE (R174, R193, R199, R203): a push writes its element in the ring and advances TAIL; a pop delivers its element to its
context and advances HEAD, a poisoned one as read and counted; PEEK advances nothing. An access whose bank does not answer waits. The
watermark (R207, R208) at a pointer's advance: a push whose count reaches WM, or a pop whose count falls to WM under WMDIR, posts the
notification line and disarms; one that does not, or is not armed, stays as it is. Under STQ a PUSH to a full queue, and a POP or PEEK of an
empty one, fault their context with class 8 (R114, R115, R202): nothing is counted in OVFCNT or UNFCNT, a pop latch stays empty, and the
record names the queue, the underflow and the push data. What the slice notes of it is log entry 64's. -/
def Obligations.QueueOutcomes : Prop :=
  -- QueueOverflowAndUnderflow
  (∀ (s : State) (n : BitVec 14) (r : QReq) (en : Bool) (rest : List (QReq × Bool)) (c : Nat) (o : CtxQop),
     let k := n.toNat % 16
     s.unitOn (domSlice k) = true → (s.sl k).granted = (r, en) :: rest → r.queue = n.toNat → r.tag = .ctx c o.id → (s.cx c).hold = none →
     (s.cx c).qops = [o] → o.answer = none → o.qop.toNat = r.qop → r.strict = false → r.port ≤ 31 →
     s.refusalCause r.port r.qop n.toNat en = 0 →
     let full := s.qCap n.toNat ≤ (s.rtail n.toNat + 2 ^ 18 - s.get (F.QD_PTR_HEAD n.toNat)) % 2 ^ 18
     let empty := (s.get (F.QD_PTR_TAIL n.toNat) + 2 ^ 18 - s.rhead n.toNat) % 2 ^ 18 = 0
     let more := fun (t : State) (f : RF) => t.get f = Nat.min (s.get f + 1) (2 ^ f.width - 1)
     let counted := fun (t : State) (f : RF) (cause code : Nat) (d : Word) => more t f ∧ more t (errcnt (slicePage k)) ∧
       t.get (F.QSL_LAST_QUEUE k) = n.toNat ∧ t.get (F.QSL_LAST_CAUSE k) = cause ∧ t.get (F.QSL_LAST_PORT k) = r.port ∧ t.mem = s.mem ∧
       (s.records code → t.recorded code (sourceOfPage (slicePage k)) (BitVec.ofNat 64 (n.toNat + r.port * 2 ^ 16 + cause * 2 ^ 24)) d
         (BitVec.ofNat 64 c))
     let failed := fun (t : State) => (t.cx c).qok = false ∧ (t.cx c).qops = []
     let zero := fun (t : State) => failed t ∧ (t.cx c).qlatch = 0 ∧ (t.cx c).qEmpty = false
     (full → r.qop = 1 → ∃ t, exec (.push n) s = .next t ∧ failed t ∧ counted t (F.QSL_OVF_OVFCNT k) 1 0x040 r.data ∧
       t.get (F.QSL_STATUS_OVFSEEN k) = 1) ∧
     (full → r.qop = 4 → ∃ t, exec (.pushif n) s = .next t ∧ failed t ∧ t.regs = s.regs ∧ t.mem = s.mem) ∧
     (empty → r.qop = 2 → ∃ t, exec (.pop n) s = .next t ∧ zero t ∧ counted t (F.QSL_OVF_UNFCNT k) 2 0x041 0 ∧
       t.get (F.QSL_STATUS_UNFSEEN k) = 1) ∧
     (empty → r.qop = 3 → ∃ t, exec (.peek n) s = .next t ∧ zero t ∧ counted t (F.QSL_OVF_UNFCNT k) 2 0x041 0 ∧
       t.get (F.QSL_STATUS_UNFSEEN k) = 1) ∧
     (empty → r.qop = 5 → ∃ t, exec (.popif n) s = .next t ∧ zero t ∧ t.regs = s.regs ∧ t.mem = s.mem)) ∧
  -- QueueRefusals
  (∀ (s : State) (n : BitVec 14) (r : QReq) (en : Bool) (rest : List (QReq × Bool)) (c : Nat) (o : CtxQop),
     let k := n.toNat % 16
     s.unitOn (domSlice k) = true → (s.sl k).granted = (r, en) :: rest → r.queue = n.toNat → r.tag = .ctx c o.id → (s.cx c).hold = none →
     (s.cx c).qops = [o] → o.qop.toNat = r.qop → r.port ≤ 31 →
     let own := s.get (F.QD_CFG_OWN n.toNat)
     let more := fun (t : State) (f : RF) => t.get f = Nat.min (s.get f + 1) (2 ^ f.width - 1)
     let refused := fun (cause : Nat) (i : Instr) => ∃ t, exec i s = .next t ∧ (t.cx c).qok = false ∧ (t.cx c).qops = [] ∧
       (qopFills r.qop = true → (t.cx c).qlatch = 0) ∧ (t.cx c).st = (s.cx c).st ∧ more t (F.QSL_REF_REFCNT k) ∧ more t (errcnt (slicePage k)) ∧
       t.get (F.QSL_LAST_QUEUE k) = n.toNat ∧ t.get (F.QSL_LAST_CAUSE k) = cause ∧ t.get (F.QSL_LAST_PORT k) = r.port ∧
       t.get (F.QSL_STATUS_REFSEEN k) = 1 ∧ t.mem = s.mem ∧ (t.sl k).accesses = (s.sl k).accesses ∧
       t.reg (R.QD_CFG n.toNat) = s.reg (R.QD_CFG n.toNat) ∧ t.reg (R.QD_PTR n.toNat) = s.reg (R.QD_PTR n.toNat) ∧
       (s.records 0x042 → t.recorded 0x042 (sourceOfPage (slicePage k)) (BitVec.ofNat 64 (n.toNat + r.port * 2 ^ 16 + cause * 2 ^ 24))
         (if r.qop = 1 ∨ r.qop = 4 then r.data else 0) (BitVec.ofNat 64 c))
     (∀ i, (r.qop, i) ∈ [(1, Instr.push n), (2, .pop n), (3, .peek n), (4, .pushif n), (5, .popif n), (6, .wmarm n)] →
       (16349 ≤ n.toNat → refused 3 i) ∧ (n.toNat < 16349 → en = false → refused 4 i) ∧
       (16284 ≤ n.toNat → n.toNat < 16349 → en = true → r.qop = 2 ∨ r.qop = 3 ∨ r.qop = 5 → refused 6 i) ∧
       (n.toNat < 16256 → en = true → own ≤ 31 → own ≠ r.port → (r.qop = 2 ∨ r.qop = 3 ∨ r.qop = 5 ∨ r.qop = 6) → refused 5 i)) ∧
     (n.toNat < 16256 → en = true → r.qop = 1 ∨ r.qop = 4 → s.refusalCause r.port r.qop n.toNat en = 0)) ∧
  -- ElementAccesses
  (∀ (s : State) (n : BitVec 14) (a : QAccess) (rest : List QAccess) (c : Nat) (o : CtxQop),
     let q := n.toNat
     let k := q % 16
     let w := s.elemWord q a.index
     s.unitOn (domSlice k) = true → s.unitOn (domBank (w / 32768)) = true → s.portBWaits (w / 32768) .queueManager [w] = false →
     (s.bk (w / 32768)).march = none →
     (s.sl k).accesses = a :: rest → a.req.queue = q → a.req.tag = .ctx c o.id → (s.cx c).qops = [o] → o.answer = none →
     o.qop.toNat = a.req.qop → s.on (F.QD_PTR_ARMED q) = false → s.on (F.BNK_INJ_ARM (w / 32768)) = false →
     (a.req.qop = 1 ∨ a.req.qop = 4 → ∃ t, exec (.elementAccessComplete n) s = .next t ∧ t.arrWord w = secEncode a.req.data ∧
       (∀ u, u ≠ w → t.arrWord u = s.arrWord u) ∧ t.get (F.QD_PTR_TAIL q) = (s.get (F.QD_PTR_TAIL q) + 1) % 2 ^ 18 ∧
       t.get (F.QD_PTR_HEAD q) = s.get (F.QD_PTR_HEAD q) ∧ (t.sl k).accesses = rest ∧ (t.cx c).qok = true) ∧
     (secSyndrome (s.arrWord w) = 0 → a.req.qop = 2 ∨ a.req.qop = 5 → ∃ t, exec (.elementAccessComplete n) s = .next t ∧
       (t.cx c).qlatch = (s.arrWord w).setWidth 64 ∧ (t.cx c).qok = true ∧ (t.cx c).qEmpty = false ∧ t.mem = s.mem ∧
       t.get (F.QD_PTR_HEAD q) = (s.get (F.QD_PTR_HEAD q) + 1) % 2 ^ 18 ∧ t.get (F.QD_PTR_TAIL q) = s.get (F.QD_PTR_TAIL q)) ∧
     (secSyndrome (s.arrWord w) = 0 → a.req.qop = 3 → ∃ t, exec (.elementAccessComplete n) s = .next t ∧
       (t.cx c).qlatch = (s.arrWord w).setWidth 64 ∧ t.regs = s.regs ∧ t.mem = s.mem) ∧
     (∀ d, secDecode ((s.arrWord w).setWidth 64) (secSyndrome (s.arrWord w)) = (d, .poisoned) → a.req.qop = 2 → a.req.port < 64 →
       ∃ t, exec (.elementAccessComplete n) s = .next t ∧ (t.cx c).qlatch = d ∧ (t.cx c).qok = true ∧ t.mem = s.mem ∧
         t.get (F.QD_PTR_HEAD q) = (s.get (F.QD_PTR_HEAD q) + 1) % 2 ^ 18 ∧ t.get (F.QSL_LAST_CAUSE k) = 7 ∧
         t.get (F.QSL_REF_POISCNT k) = Nat.min (s.get (F.QSL_REF_POISCNT k) + 1) (2 ^ (F.QSL_REF_POISCNT k).width - 1))) ∧
  -- Watermarks
  (∀ (s : State) (n : BitVec 14) (a : QAccess) (rest : List QAccess) (c : Nat) (o : CtxQop),
     let q := n.toNat
     let k := q % 16
     let w := s.elemWord q a.index
     s.unitOn (domSlice k) = true → s.unitOn (domBank (w / 32768)) = true → s.portBWaits (w / 32768) .queueManager [w] = false →
     (s.bk (w / 32768)).march = none → (s.sl k).accesses = a :: rest → a.req.queue = q → a.req.tag = .ctx c o.id → (s.cx c).qops = [o] →
     let wm := s.get (F.QD_PTR_WM q)
     let moved := fun (up : Bool) => (s.qCount q + (if up = true then 1 else 2 ^ 18 - 1)) % 2 ^ 18
     let met := fun (count : Nat) => if s.on (F.QD_PTR_WMDIR q) = true then count ≤ wm else wm ≤ count
     let line := 0x800 + s.get (F.QD_CFG_NOTIFY q)
     ∀ up, (up = true ∧ (a.req.qop = 1 ∨ a.req.qop = 4)) ∨ (up = false ∧ (a.req.qop = 2 ∨ a.req.qop = 5)) →
       ∃ t, exec (.elementAccessComplete n) s = .next t ∧ t.qCount q = moved up ∧
         (s.on (F.QD_PTR_ARMED q) = true → met (moved up) → t.get (F.QD_PTR_ARMED q) = 0 ∧ (line < 0xC80 → (s.fclk, line) ∈ t.posted)) ∧
         (s.on (F.QD_PTR_ARMED q) = true → ¬ met (moved up) → t.get (F.QD_PTR_ARMED q) = 1) ∧
         (s.on (F.QD_PTR_ARMED q) = false → t.get (F.QD_PTR_ARMED q) = 0)) ∧
  -- StrictQueueFaults
  (∀ (s : State) (n : BitVec 14) (r : QReq) (en b : Bool) (rest : List (QReq × Bool)) (c : Nat) (o : CtxQop),
     let k := n.toNat % 16
     let x := s.cx c
     s.unitOn (domSlice k) = true → (s.sl k).granted = (r, en) :: rest → r.queue = n.toNat → r.tag = .ctx c o.id →
     x.hold = some ⟨b, true, .cont⟩ → x.qops = [o] → r.strict = true → x.st ≠ .idle → x.st ≠ .faulted → s.refusalCause r.port r.qop n.toNat en = 0 →
     let full := s.qCap n.toNat ≤ (s.rtail n.toNat + 2 ^ 18 - s.get (F.QD_PTR_HEAD n.toNat)) % 2 ^ 18
     let empty := (s.get (F.QD_PTR_TAIL n.toNat) + 2 ^ 18 - s.rhead n.toNat) % 2 ^ 18 = 0
     let faulted := fun (i : Instr) (under : Nat) (d : Word) => ∃ t, exec i s = .next t ∧ (t.cx c).st = .faulted ∧ (t.cx c).fclass = 8 ∧
       (t.cx c).maddr = x.maddr ∧ (t.cx c).qops = [] ∧ (t.cx c).qEmpty = x.qEmpty ∧ (t.cx c).qlatch = x.qlatch ∧ t.mem = s.mem ∧
       (t.sl k).accesses = (s.sl k).accesses ∧ t.reg (R.QSL_OVF k) = s.reg (R.QSL_OVF k) ∧ t.reg (R.QD_CFG n.toNat) = s.reg (R.QD_CFG n.toNat) ∧
       t.reg (R.QD_PTR n.toNat) = s.reg (R.QD_PTR n.toNat) ∧ t.get (F.QSL_LAST_QUEUE k) = n.toNat ∧ t.get (F.QSL_LAST_CAUSE k) = 1 + under ∧
       t.get (errcnt (slicePage k)) = Nat.min (s.get (errcnt (slicePage k)) + 1) (2 ^ 32 - 1) ∧
       t.get (if under = 1 then F.QSL_STATUS_UNFSEEN k else F.QSL_STATUS_OVFSEEN k) = 1 ∧
       (s.records 0x018 → t.recorded 0x018 c (t.cx c).finfo (BitVec.ofNat 64 (n.toNat + under * 2 ^ 16)) d)
     (full → r.qop = 1 → faulted (.push n) 0 r.data) ∧ (empty → r.qop = 2 → faulted (.pop n) 1 0) ∧
     (empty → r.qop = 3 → faulted (.peek n) 1 0))

/-- Descriptor writes (R195, R205): they take a turn of the slice as port 63; under LOCK.DESC both are rejected; CFG is taken while the queue is
disabled if its ring fits a bank, else rejected and recorded; PTR's pointers move only while it is disabled. QD_LOW_HALF_READ (R195, R197,
R198): a host read of a descriptor word's low half answers it and latches the high half of the same moment, which the next read of that half
returns; a correctable word is corrected and waits for its write-back, an uncorrectable one is counted and disables the queue.
DESCRIPTOR_WRITEBACK (R198): the oldest corrected descriptor word is rewritten with fresh check bits. -/
def Obligations.QueueDescriptors : Prop :=
  -- DescriptorWrites
  (∀ (s : State) (n : BitVec 14) (value : Word),
     let q := n.toNat
     let k := q % 16
     let sz := fld value 24 5
     let fits := fld value 0 22 * 8 % 2 ^ 18 + 2 ^ sz ≤ 2 ^ 18
     s.pageUp (domSlice k) = true → s.qdPattern q 0 = 0 → s.qdPattern q 1 = 0 → (s.sl k).reqs = [] → tget (fun _ => 0) (s.sl k).since 63 = 0 →
     let rejected := fun (i : Instr) => ∃ t, exec i s = .next t ∧ (t.sl k).lastPort = 63 ∧
       t.get (rejcnt (slicePage k)) = Nat.min (s.get (rejcnt (slicePage k)) + 1) (2 ^ 32 - 1) ∧
       t.reg (R.QD_CFG q) = s.reg (R.QD_CFG q) ∧ t.reg (R.QD_PTR q) = s.reg (R.QD_PTR q)
     (s.on F.QMG_LOCK_DESC = true → rejected (.qdCfgWrite n value) ∧ rejected (.qdPtrWrite n value)) ∧
     (s.on F.QMG_LOCK_DESC = false → s.on (F.QD_CFG_EN q) = false → 6 ≤ sz → sz ≤ 20 → (fld value 32 6 < 32 ∨ fld value 32 6 = 63) → fits →
       ∃ t, exec (.qdCfgWrite n value) s = .next t ∧ (t.sl k).lastPort = 63 ∧
         t.get (F.QD_CFG_BASE q) = fld value 0 22 ∧ t.get (F.QD_CFG_LOG2SZ q) = sz ∧ t.get (F.QD_CFG_OWN q) = fld value 32 6 ∧
         t.get (F.QD_CFG_NOTIFY q) = fld value 40 10 ∧ t.get (F.QD_CFG_EN q) = fld value 63 1 ∧ ∀ f, f ≠ R.QD_CFG q → t.reg f = s.reg f) ∧
     (s.on F.QMG_LOCK_DESC = false → s.on (F.QD_CFG_EN q) = false → bit value 63 = true → 6 ≤ sz → sz ≤ 20 → ¬ fits →
       rejected (.qdCfgWrite n value)) ∧
     (s.on F.QMG_LOCK_DESC = false → s.on (F.QD_CFG_EN q) = true → fld value 0 36 ≠ fld (s.reg (R.QD_PTR q)) 0 36 →
       rejected (.qdPtrWrite n value)) ∧
     (s.on F.QMG_LOCK_DESC = false → s.on (F.QD_CFG_EN q) = false → s.qBusy q = false → bit value 54 = false → bit value 55 = false →
       ∃ t, exec (.qdPtrWrite n value) s = .next t ∧ t.get (F.QD_PTR_HEAD q) = fld value 0 18 ∧ t.get (F.QD_PTR_TAIL q) = fld value 18 18 ∧
         ∀ f, f ≠ R.QD_PTR q → t.reg f = s.reg f)) ∧
  -- DescriptorLowHalfReads
  (∀ (s : State) (n : BitVec 14) (ptr : Bool),
     let q := n.toNat
     let k := q % 16
     let key := if ptr = true then R.QD_PTR q else R.QD_CFG q
     let v := if ptr = true then setFld (s.reg key) 63 1 (b2n (s.qBusy q)) else s.reg key
     let p := s.qdPattern q (b2n ptr)
     s.pageUp (domSlice k) = true → (s.sl k).reqs = [] → tget (fun _ => 0) (s.sl k).since 63 = 0 →
     (p = 0 → ∃ t, exec (.qdLowHalfRead n ptr) s = .next t ∧ t.resp.rgErr = false ∧ t.resp.rgData = v.setWidth 32 ∧ t.regs = s.regs ∧
       (t.sl k).lastPort = 63 ∧ tget (fun _ => none) t.qdHigh (2 * q + b2n ptr) = some (v.extractLsb' 32 32) ∧
       (t.qdReadHalf q (b2n ptr) true).resp.rgData = v.extractLsb' 32 32) ∧
     (∀ d, secDecode (p.setWidth 64) (secSyndrome p) = (d, .corrected) → p ≠ 0 → ∃ t, exec (.qdLowHalfRead n ptr) s = .next t ∧
       t.resp.rgErr = false ∧ (q, ptr) ∈ (t.sl k).wback ∧
       t.get F.QMG_DERR_CORR = Nat.min (s.get F.QMG_DERR_CORR + 1) (2 ^ F.QMG_DERR_CORR.width - 1)) ∧
     ((secDecode (p.setWidth 64) (secSyndrome p)).2 = .poisoned → ∃ t, exec (.qdLowHalfRead n ptr) s = .next t ∧ t.get (F.QD_CFG_EN q) = 0 ∧
       t.get F.QMG_DERR_UNC = Nat.min (s.get F.QMG_DERR_UNC + 1) (2 ^ F.QMG_DERR_UNC.width - 1) ∧ t.get F.QMG_DLOG_QUEUE = q ∧
       t.get F.QMG_DLOG_SYND = (secSyndrome p).toNat ∧
       (s.records 0x044 → t.recorded 0x044 (sourceOfPage (slicePage k)) (BitVec.ofNat 64 (q + b2n ptr * 2 ^ 14)) ((secSyndrome p).setWidth 64) 0))) ∧
  -- DescriptorWriteback
  (∀ (s : State) (k : Fin 16) (n : Nat) (ptr : Bool) (rest : List (Nat × Bool)) (d : Word), s.unitOn (domSlice k) = true →
     (s.sl k).wback = (n, ptr) :: rest →
     secDecode ((s.qdPattern n (b2n ptr)).setWidth 64) (secSyndrome (s.qdPattern n (b2n ptr))) = (d, .corrected) →
     ∃ t, exec (.descriptorWriteback k) s = .next t ∧ t.qdPattern n (b2n ptr) = 0 ∧ (t.sl k).wback = rest ∧ t.regs = s.regs)

/-- BEAM_TICK (R213, R215): the position moves on a tick, to the next line's start, or to the next frame's start, the frame count then one more;
a stopped beam or a timer unit that does not run keeps its state. The divider (R215): from an accumulator below the period, the tick comes
after the least whole number of FCLK that reaches it, and the excess, less than one FCLK, stays. The beam's event lines at a tick
(R220-R222), at the position it reaches: line start, frame start, the begins and ends of the active area, each line start's deadlines, where
enabled, and the compares that match there, mode 3 clearing. A tick is a command of the model's queue; the passing of FCLK is log entry 2. -/
def Obligations.BeamTicks : Prop :=
  -- BeamTickMovesPosition
  (∀ s : State,
     (s.unitOn domTimer = false ∨ s.beamRun = false → exec .beamTick s = .next s) ∧
     (s.unitOn domTimer = true → s.beamRun = true → s.beam.coarse = none → s.rho.frameFix = none →
       ∃ t, exec .beamTick s = .next t ∧
         (s.beam.tick + 1 < s.hTotal → t.beam.tick = s.beam.tick + 1 ∧ t.beam.line = s.beam.line ∧ t.beam.frame = s.beam.frame) ∧
         (s.hTotal ≤ s.beam.tick + 1 → s.beam.line + 1 < s.vTotal →
           t.beam.tick = 0 ∧ t.beam.line = s.beam.line + 1 ∧ t.beam.frame = s.beam.frame) ∧
         (s.hTotal ≤ s.beam.tick + 1 → s.vTotal ≤ s.beam.line + 1 →
           t.beam.tick = 0 ∧ t.beam.line = 0 ∧ t.beam.frame = (s.beam.frame + 1) % 2 ^ 64))) ∧
  -- TickDividerKeepsExcess
  (∀ acc q : Nat, acc < q → accAfter acc q < 2 ^ 24 ∧ ∃ k, 1 ≤ k ∧ accAfter acc q + q = acc + k * 2 ^ 24 ∧ acc + (k - 1) * 2 ^ 24 < q) ∧
  -- BeamEventLines
  (∀ s : State, s.unitOn domTimer = true → s.beamRun = true → s.beam.coarse = none → s.rho.frameFix = none → s.beam.heldGeom = none →
     s.beam.heldHact = none → s.beam.heldVact = none → s.beam.heldSync = none →
     ∃ t, exec .beamTick s = .next t ∧
       let posts := fun (line : Nat) => (s.fclk, line) ∈ t.posted
       let start := t.beam.tick = 0
       let h := s.get F.BEAM_HACT_HAS ≠ s.get F.BEAM_HACT_HAE
       let v := s.get F.BEAM_VACT_VAS ≠ s.get F.BEAM_VACT_VAE
       (start → s.on F.BEAM_EVEN_LS = true → posts 0x380) ∧
       (start → t.beam.line = 0 → s.on F.BEAM_EVEN_FS = true → posts 0x381) ∧
       (t.beam.tick = s.get F.BEAM_HACT_HAS → h → s.on F.BEAM_EVEN_HAB = true → posts 0x382) ∧
       (t.beam.tick = s.get F.BEAM_HACT_HAE ∨ (start ∧ s.get F.BEAM_HACT_HAE = s.hTotal) → h → s.on F.BEAM_EVEN_HAE = true → posts 0x383) ∧
       (start → t.beam.line = s.get F.BEAM_VACT_VAS → v → s.on F.BEAM_EVEN_VAB = true → posts 0x384) ∧
       (start → t.beam.line = s.get F.BEAM_VACT_VAE ∨ (t.beam.line = 0 ∧ s.get F.BEAM_VACT_VAE = s.vTotal) → v → s.on F.BEAM_EVEN_VAE = true →
         posts 0x385) ∧
       (∀ p, p < 16 → start → (s.get F.BEAM_EVEN_DL).testBit p = true → posts (0x390 + p)) ∧
       ∀ i, i < 32 → let mode := s.get (F.BEAM_BCMP_MODE i)
         fld (s.reg (R.BEAM_BCMP i)) 16 14 = t.beam.tick → mode = 1 ∨ (2 ≤ mode ∧ fld (s.reg (R.BEAM_BCMP i)) 0 14 = t.beam.line) →
         posts (0x3A0 + i) ∧ t.get (F.BEAM_BCMP_MODE i) = if mode = 3 then 0 else mode)

/-- The beam's start and stop by the host (R217, R218): a start sets RUN and RUNNING at the origin, a stop clears them and lets held geometry
take effect; a start of a running beam and a stop of a stopped one change nothing but the response. The beam's register writes (R216, R217,
R225): TICKDIV keeps INT and counts a rejection below 4; geometry that does not stand is rejected, and is otherwise held while the beam
runs; LEAD changes only while it is stopped. -/
def Obligations.BeamCommands : Prop :=
  -- BeamStartsAndStops
  (∀ s : State, s.pageUp domTimer = true →
     (s.beamRun = false → ∃ t, exec .beamRunStart s = .next t ∧ t.get F.BEAM_CTRL_RUN = 1 ∧ t.get F.BEAM_STATUS_RUNNING = 1 ∧
       t.beam.tick = 0 ∧ t.beam.line = 0 ∧ t.beam.acc = 0 ∧ t.beam.frame = s.beam.frame) ∧
     (s.beamRun = true → exec .beamRunStart s = .next (s.okResponse 0)) ∧
     (s.beamRun = true → ∃ t, exec .beamRunStop s = .next t ∧ t.get F.BEAM_CTRL_RUN = 0 ∧ t.get F.BEAM_STATUS_RUNNING = 0 ∧
       t.get F.BEAM_STATUS_GPEND = 0 ∧ t.beam.tick = s.beam.tick ∧ t.beam.line = s.beam.line ∧ t.beam.frame = s.beam.frame) ∧
     (s.beamRun = false → exec .beamRunStop s = .next (s.okResponse 0))) ∧
  -- BeamRegisterWrites
  (∀ (s : State) (value : Word) (which : GeomReg), s.pageUp domTimer = true →
     let v := geomMask which value
     let u := s.holdLow (geomKey which) none
     let ok := which = .sync ∨ geomOk (if which = .geom then v else s.geomNext .geom) (if which = .hact then v else s.geomNext .hact)
       (if which = .vact then v else s.geomNext .vact) = true
     (4 ≤ fld value 24 16 → ∃ t, exec (.tickdivWrite value) s = .next t ∧ t.get F.BEAM_TICKDIV_FRAC = fld value 0 24 ∧
       t.get F.BEAM_TICKDIV_INT = fld value 24 16 ∧ ∀ k, k ≠ R.BEAM_TICKDIV → t.reg k = s.reg k) ∧
     (fld value 24 16 < 4 → ∃ t, exec (.tickdivWrite value) s = .next t ∧ t.get F.BEAM_TICKDIV_FRAC = fld value 0 24 ∧
       t.get F.BEAM_TICKDIV_INT = s.get F.BEAM_TICKDIV_INT ∧
       t.get (rejcnt beamPage) = Nat.min (s.get (rejcnt beamPage) + 1) (2 ^ 32 - 1)) ∧
     (¬ ok → exec (.geometryWrite which value) s = .next ((u.rej beamPage).okResponse 0)) ∧
     (ok → s.beamRun = false → exec (.geometryWrite which value) s = .next ((u.setReg (geomKey which) v).okResponse 0)) ∧
     (ok → s.beamRun = true → ∃ t, exec (.geometryWrite which value) s = .next t ∧ t.heldOf which = some v ∧
       t.get F.BEAM_STATUS_GPEND = 1 ∧ t.reg (geomKey which) = s.reg (geomKey which)) ∧
     (s.beamRun = false → exec (.leadWrite value) s = .next ((s.setReg R.BEAM_LEAD value).okResponse 0)) ∧
     (s.beamRun = true → exec (.leadWrite value) s = .next ((s.rej beamPage).okResponse 0)))

/-- TIMER_COUNT_EVENT (R226-R229, R231): a running general timer counts up, its match sets MATCHF; from TOP it wraps, sets OVFF, and under
ONESHOT stops. With SRC 2, 3 or 4 an event that has come is counted, and without one nothing is; a timer that does not run counts none.
Timer register writes by the host (R219, R228, R230): a COUNT write takes the place of a step that has come, and neither wraps nor matches;
CMPPRE sets CMP of a stopped timer, and waits as PREPEND for a running one without CMPIMM; the beam's frame count is writable while the beam
is stopped, its tick and line counts never. The direct actions (R236): the oldest one triggered and not performed starts or stops its timer,
or pulses its converter trigger, and is done. GSTART (R234): a timer armed in a started group starts and is no longer armed; one in another
group keeps its state. KEEPER_TIMER_STEP (R239): an enabled timer counts SCLK, modulo 2^32, and matches; a held write takes the edge instead
of a count. What a master event does to a slave (R233): it starts a waiting timer of modes 1 and 4, resets COUNT in modes 2 and 4, and turns
the gate of mode 3 over. An assertion (R226, R228, R235) is a count event for a running timer of SRC 4, and a capture: CAPTURE takes COUNT
with CAPF, OVR if one stood, after the step where the timer counts that assertion. A count event is a command, whatever its prescaler (log
entry 19). -/
def Obligations.Timers : Prop :=
  -- TimerCounts
  (∀ (s : State) (t : Fin 256), 4 ≤ t.val → s.unitOn domTimer = true → (s.tm t).mev = 0 → (s.tm t).caps = [] →
     let c := s.get (F.TMR_COUNT_COUNT t)
     let src := s.get (F.TMR_CFG_SRC t)
     let comes := src ≤ 1 ∨ (2 ≤ src ∧ src ≤ 4 ∧ 0 < (s.tm t).due)
     (s.tmRunning t = true → comes → c < s.get (F.TMR_TOP_TOP t) → ∃ u, exec (.timerCountEvent t) s = .next u ∧
       u.get (F.TMR_COUNT_COUNT t) = c + 1 ∧ (2 ≤ src → (u.tm t).due = (s.tm t).due - 1) ∧
       (s.get (F.TMR_CMP_CMP t) = c + 1 → u.get (F.TMR_TSTAT_MATCHF t) = 1) ∧
       (s.get (F.TMR_CMP_CMP t) ≠ c + 1 → ∀ k, k ≠ R.TMR_COUNT t → u.reg k = s.reg k)) ∧
     (s.tmRunning t = true → comes → c = s.get (F.TMR_TOP_TOP t) → ∃ u, exec (.timerCountEvent t) s = .next u ∧
       u.get (F.TMR_COUNT_COUNT t) = 0 ∧ u.get (F.TMR_TSTAT_OVFF t) = 1 ∧
       (s.on (F.TMR_CFG_ONESHOT t) = true → u.get (F.TMR_CFG_EN t) = 0) ∧
       (t.val < 255 → s.get (F.TMR_CFG_SRC (t + 1)) = 3 → s.tmRunning (t + 1) = true → (u.tm (t + 1)).due = (s.tm (t + 1)).due + 1)) ∧
     (s.tmRunning t = true → 2 ≤ src → src ≤ 4 → (s.tm t).due = 0 → exec (.timerCountEvent t) s = .next s) ∧
     (s.tmRunning t = false → ∃ u, exec (.timerCountEvent t) s = .next u ∧ u.regs = s.regs ∧ (u.tm t).due = 0)) ∧
  -- TimerRegisterWrites
  (∀ (s : State) (t : Fin 256) (value : BitVec 32), s.pageUp domTimer = true →
     (4 ≤ t.val → (s.tm t).due = 0 → (s.tm t).mev = 0 →
       exec (.timerCountWrite t value) s = .next ((s.put (F.TMR_COUNT_COUNT t) value.toNat).okResponse 0)) ∧
     (4 ≤ t.val → 0 < (s.tm t).due → (s.tm t).mev = 0 → (s.tm t).caps = [] → ∃ u, exec (.timerCountWrite t value) s = .next u ∧
       u.get (F.TMR_COUNT_COUNT t) = value.toNat ∧ (u.tm t).due = (s.tm t).due - 1 ∧ ∀ k, k ≠ R.TMR_COUNT t → u.reg k = s.reg k) ∧
     (t.val ≤ 1 → exec (.timerCountWrite t value) s = .next ((s.rej (tmrPage t)).okResponse 0)) ∧
     (t.val = 2 → s.beamRun = false → ∃ u, exec (.timerCountWrite t value) s = .next u ∧ u.beam.frame % 2 ^ 32 = value.toNat ∧
       u.beam.frame / 2 ^ 32 = s.beam.frame / 2 ^ 32 ∧ u.regs = s.regs) ∧
     (t.val = 3 → s.beamRun = false → ∃ u, exec (.timerCountWrite t value) s = .next u ∧ u.beam.frame / 2 ^ 32 = value.toNat ∧
       u.beam.frame % 2 ^ 32 = s.beam.frame % 2 ^ 32 ∧ u.regs = s.regs) ∧
     (t.val = 2 ∨ t.val = 3 → s.beamRun = true → exec (.timerCountWrite t value) s = .next ((s.rej (tmrPage t)).okResponse 0)) ∧
     (s.tmEn t = false → ∃ u, exec (.cmppreWrite t value) s = .next u ∧ u.get (F.TMR_CMP_CMP t) = value.toNat ∧
       u.get (F.TMR_CMPPRE_CMPPRE t) = value.toNat) ∧
     (s.tmEn t = true → s.on (F.TMR_CFG_CMPIMM t) = false → ∃ u, exec (.cmppreWrite t value) s = .next u ∧
       u.get (F.TMR_CMP_CMP t) = s.get (F.TMR_CMP_CMP t) ∧ u.get (F.TMR_CMPPRE_CMPPRE t) = value.toNat ∧ u.get (F.TMR_TSTAT_PREPEND t) = 1) ∧
     (s.tmEn t = true → s.on (F.TMR_CFG_CMPIMM t) = true → s.on (F.TMR_CFG_AUTOADD t) = false → ∃ u, exec (.cmppreWrite t value) s = .next u ∧
       u.get (F.TMR_CMP_CMP t) = value.toNat ∧ (value.toNat ≤ s.tmCount t → value.toNat ≤ s.tmTop t → u.get (F.TMR_TSTAT_MATCHF t) = 1))) ∧
  -- TimerDirectActions
  (∀ (s : State) (t a : Fin 256) (rest : List (Nat × Nat)), s.unitOn domTimer = true → a ≠ t → 4 ≤ a.val →
     ((s.tm t).acts = (1, a.val) :: rest → s.on (F.TMR_CFG_EN a) = false → ∃ u, exec (.actionStartTimer t) s = .next u ∧
       u.get (F.TMR_CFG_EN a) = 1 ∧ (u.tm a).phase0 = s.fclk ∧ (u.tm t).acts = rest) ∧
     ((s.tm t).acts = (2, a.val) :: rest → ∃ u, exec (.actionStopTimer t) s = .next u ∧ u.get (F.TMR_CFG_EN a) = 0 ∧ (u.tm t).acts = rest) ∧
     ((s.tm t).acts = (4, a.val) :: rest → ∃ u, exec (.actionConverterTrigger t) s = .next u ∧ u.regs = s.regs ∧ (u.tm t).acts = rest ∧
       tget (fun _ => 0) u.cvtrig a.val = s.fclk + 1)) ∧
  -- GlobalStart
  (∀ (s : State) (groups : BitVec 8) (t : Fin 256), s.pwr.running = true → s.domState 0 = 0 → s.unitOn domTimer = true → 4 ≤ t.val →
     s.on F.BEAM_CTRL_GSARM = false →
     ∃ u, exec (.gstart groups) s = .next u ∧
       (s.on (F.TMR_CFG_GSARM t) = true → bit groups (s.get (F.TMR_CFG_GSGRP t)) = true →
         u.get (F.TMR_CFG_EN t) = 1 ∧ u.get (F.TMR_CFG_GSARM t) = 0) ∧
       (bit groups (s.get (F.TMR_CFG_GSGRP t)) = false → u.reg (R.TMR_CFG t) = s.reg (R.TMR_CFG t) ∧ u.tm t = s.tm t)) ∧
  -- KeeperTimerSteps
  (∀ (s : State) (k : Fin 8), s.pwr.krstLow = false → s.pwr.rstLow = false → s.on (F.PWR_KCTRL_KSRC k) = false →
     (s.kt k = Keeper.reset → s.on (F.PWR_KCTRL_KEN k) = true → ∃ u, exec (.keeperTimerStep k) s = .next u ∧
       u.get (F.PWR_KCOUNT_KCOUNT k) = (s.get (F.PWR_KCOUNT_KCOUNT k) + 1) % 2 ^ 32 ∧
       (s.get (F.PWR_KCMP_KCMP k) = (s.get (F.PWR_KCOUNT_KCOUNT k) + 1) % 2 ^ 32 → u.get (F.PWR_KCTRL_MATCHF k) = 1)) ∧
     (s.kt k = Keeper.reset → s.on (F.PWR_KCTRL_KEN k) = false → exec (.keeperTimerStep k) s = .next s) ∧
     (∀ v, v < 2 ^ 32 → s.kt k = ⟨some v, none⟩ → ∃ u, exec (.keeperTimerStep k) s = .next u ∧ u.get (F.PWR_KCOUNT_KCOUNT k) = v ∧
       u.kt k = Keeper.reset)) ∧
  -- TimerSlavesAndCaptures
  ((∀ (s : State) (t : Fin 256), 4 ≤ t.val → s.unitOn domTimer = true → 0 < (s.tm t).mev → s.on (F.TMR_CFG_EN t) = true →
     s.get (F.TMR_CFG_SRC t) ∈ [2, 3, 4] → (s.tm t).due = 0 →
     let slv := s.get (F.TMR_CFG_SLV t)
     let does := fun (p : State → Prop) => ∃ u, exec (.timerCountEvent t) s = .next u ∧ (slv = 1 ∨ slv = 3 → (u.tm t).mev = (s.tm t).mev - 1) ∧ p u
     (slv = 1 → s.on (F.TMR_TSTAT_WAITING t) = true →
       does (fun u => u.get (F.TMR_TSTAT_WAITING t) = 0 ∧ (u.tm t).phase0 = s.fclk ∧ u.get (F.TMR_COUNT_COUNT t) = s.get (F.TMR_COUNT_COUNT t))) ∧
     (slv = 2 → does (fun u => u.get (F.TMR_COUNT_COUNT t) = 0)) ∧
     (slv = 3 → does (fun u => u.get (F.TMR_TSTAT_GATE t) = 1 - s.get (F.TMR_TSTAT_GATE t) ∧
       u.get (F.TMR_COUNT_COUNT t) = s.get (F.TMR_COUNT_COUNT t))) ∧
     (slv = 4 → s.on (F.TMR_TSTAT_WAITING t) = true → does (fun u => u.get (F.TMR_TSTAT_WAITING t) = 0 ∧ u.get (F.TMR_COUNT_COUNT t) = 0))) ∧
   ∀ (s : State) (line t : Nat), t < 256 →
     let u := s.tmAssert line
     let counts := 4 ≤ t ∧ s.get (F.TMR_CFG_SRC t) = 4 ∧ s.get (F.TMR_CFG_EVSRC t) = line ∧ s.tmRunning t = true
     let captures := s.on (F.TMR_CFG_CAPEN t) = true ∧ s.get (F.TMR_AUX_CAPEV t) = line
     (counts → (u.tm t).due = (s.tm t).due + 1) ∧ (¬ counts → (u.tm t).due = (s.tm t).due) ∧
     (captures → ¬ counts → u.get (F.TMR_CAPTURE_CAPTURE t) = s.tmCount t % 2 ^ 32 ∧ u.get (F.TMR_TSTAT_CAPF t) = 1 ∧
       (s.on (F.TMR_TSTAT_CAPF t) = true → u.get (F.TMR_TSTAT_OVR t) = 1)) ∧
     (captures → counts → (u.tm t).caps = (s.tm t).caps ++ [(s.tm t).due + 1]) ∧
     (¬ captures → u.reg (R.TMR_CAPTURE t) = s.reg (R.TMR_CAPTURE t) ∧ u.reg (R.TMR_TSTAT t) = s.reg (R.TMR_TSTAT t) ∧
       (u.tm t).caps = (s.tm t).caps) ∧
     ∀ c : Fin 256, c.val = t → 4 ≤ t → s.unitOn domTimer = true → s.get (F.TMR_CFG_SRC t) = 4 → s.tmRunning t = true → (s.tm t).mev = 0 →
       (s.tm t).due = 1 → (s.tm t).caps = [1] → s.get (F.TMR_COUNT_COUNT t) < s.get (F.TMR_TOP_TOP t) →
       ∃ v, exec (.timerCountEvent c) s = .next v ∧ v.get (F.TMR_CAPTURE_CAPTURE t) = s.get (F.TMR_COUNT_COUNT t) + 1 ∧
         v.get (F.TMR_TSTAT_CAPF t) = 1)

/-- The block-local addresses of a channel (R242): host memory, bank space, the queues, the engines' queues, and nothing else. Burst lengths
(R250, R254): at most 64 bytes, within the step and the set; a burst to an advancing destination lies within one 64-byte line of it, at the
bottom of what is left in ascending order and at the top of it in descending order. Cursors (R242, R255, R256): a fixed endpoint stays, a
circular one wraps in its aligned block, a linear one wraps within bits 62:0 and keeps bit 63. DMA_SET_START (R241, R244-R247): a checked
start of a channel that is idle, or waits in CHAINWAIT for this set, loads the working registers and goes to ACTIVE where a request is
present and to WAITREQ otherwise; a set that does not pass, or is the busy channel's current one, is rejected and counted; a checked set of
a busy channel is armed; a write that starts nothing is stored. DMA_SET_COMPLETE (R245): the six steps of a completion, for a channel with
nothing left to copy and no write of its own on its way. The commands of CTRL (R260, R248): STOP, ABORT, RESUME and CLRREQ, each where it is
legal; RESUME elsewhere is rejected and counted. Log entries 22 and 23 say how the model reads LEVEL and the commands. -/
def Obligations.DmaSets : Prop :=
  -- DmaEndpoints
  (∀ (a : Word) (q e : Nat), (bit a 63 = true → endPt a = .host) ∧ (a.toNat < 2 ^ 25 → endPt a = .bank) ∧
     (q < 16384 → a.toNat = 2 ^ 32 + 8 * q → endPt a = .queue q) ∧ (e < 32 → a.toNat = 2 ^ 33 + 16 * e → endPt a = .tx e) ∧
     (e < 32 → a.toNat = 2 ^ 33 + 16 * e + 8 → endPt a = .rx e) ∧
     (bit a 63 = false → 2 ^ 25 ≤ a.toNat → (∀ q, q < 16384 → a.toNat ≠ 2 ^ 32 + 8 * q) → (∀ e, e < 64 → a.toNat ≠ 2 ^ 33 + 8 * e) →
       endPt a = .bad)) ∧
  -- DmaBurstLengths
  (∀ (c : DCfg) (left : Nat), let len := c.burstLen left
     len ≤ 64 ∧ len ≤ left ∧ len ≤ c.remain ∧ (0 < left → 0 < c.remain → 0 < len) ∧
     (c.pd.fixed = false → c.down = false → c.dst.toNat % 64 + len ≤ 64) ∧
     (c.pd.fixed = false → c.down = true → 0 < len → (c.dst.toNat + c.remain - len) / 64 = (c.dst.toNat + c.remain - 1) / 64)) ∧
  -- DmaCursors
  (∀ (p : EndPt) (circ : Bool) (clog : Nat) (a : Word) (k : Nat), clog ≤ 24 →
     (p.fixed = true → cursorAt p circ clog a k = a) ∧
     (p.fixed = false → circ = true → (cursorAt p circ clog a k).toNat / 2 ^ clog = a.toNat / 2 ^ clog ∧
       (cursorAt p circ clog a k).toNat % 2 ^ clog = (a.toNat + k) % 2 ^ clog) ∧
     (p.fixed = false → circ = false → bit (cursorAt p circ clog a k) 63 = bit a 63 ∧
       (cursorAt p circ clog a k).toNat % 2 ^ 63 = (a.toNat + k) % 2 ^ 63)) ∧
  -- DmaSetsStart
  (∀ (s : State) (n : Fin 64) (setB : Bool) (ctl : BitVec 64), s.pageUp (domDma n) = true →
     let k := b2n setB
     let u := s.holdLow (R.DMA_CTL n k) none
     let go := bit ctl 0 = true ∧ s.on (F.DMA_CTL_RUN n k) = false ∧ s.setOk n k ctl = true
     let count := s.get (F.DMA_COUNT_COUNT n k)
     let step := Nat.min (2 ^ fld ctl 30 5) count
     let level := s.endReady (endPt (s.reg (R.DMA_SRC n k))) true step = true ∧ s.endReady (endPt (s.reg (R.DMA_DST n k))) false step = true
     let request := (fld ctl 16 2 = 1 ∧ s.get (F.DMA_STATUS_PREQ n) ≠ 0) ∨ (fld ctl 16 2 = 2 ∧ level)
     let frame := fun t : State => t = { s with regs := t.regs, dma := t.dma, resp := t.resp, held := u.held } ∧
       (∀ m, m ≠ n.val → t.dm m = s.dm m) ∧
       ∀ r, r ∉ [R.DMA_CTL n k, R.DMA_STATUS n, R.DMA_CURSRC n, R.DMA_CURDST n, R.DMA_REMAIN n] → t.reg r = s.reg r
     (go → s.dmaState n = 0 ∨ (s.dmaState n = 3 ∧ k ≠ s.curSet n) → ∃ t, exec (.dmaSetStart n setB ctl) s = .next t ∧
       t.get (F.DMA_CTL_RUN n k) = 1 ∧ t.curSet n = k ∧ t.reg (R.DMA_CURSRC n) = s.reg (R.DMA_SRC n k) ∧
       t.reg (R.DMA_CURDST n) = s.reg (R.DMA_DST n k) ∧ t.dRemain n = count ∧
       (fld ctl 16 2 = 0 ∨ (request ∧ count ≠ 0) → t.dmaState n = 2 ∧ (t.dm n).stepLeft = step) ∧
       (¬ (fld ctl 16 2 = 0 ∨ (request ∧ count ≠ 0)) → t.dmaState n = 1) ∧
       t.get (F.DMA_STATUS_PREQ n) = s.get (F.DMA_STATUS_PREQ n) - b2n (decide (fld ctl 16 2 = 1 ∧ count ≠ 0)) ∧ frame t) ∧
     (go → s.dmaState n ≠ 0 → s.dmaState n ≠ 3 → s.setBusy n k = false → ∃ t, exec (.dmaSetStart n setB ctl) s = .next t ∧
       t.get (F.DMA_CTL_RUN n k) = 1 ∧ t.reg (R.DMA_STATUS n) = s.reg (R.DMA_STATUS n) ∧ frame t) ∧
     (s.setBusy n k = true ∨ (bit ctl 0 = true ∧ s.on (F.DMA_CTL_RUN n k) = false ∧ s.setOk n k ctl = false) →
       exec (.dmaSetStart n setB ctl) s = .next ((u.rej (dmaPage n)).okResponse 0)) ∧
     (bit ctl 0 = false → s.on (F.DMA_CTL_RUN n k) = false → s.setBusy n k = false → fld ctl 16 2 ≠ 3 → fld ctl 18 12 < 0xC80 →
       3 ≤ fld ctl 30 5 → fld ctl 30 5 ≤ 24 → 6 ≤ fld ctl 8 5 → fld ctl 8 5 ≤ 24 →
       exec (.dmaSetStart n setB ctl) s = .next ((u.setReg (R.DMA_CTL n k) (setFld (setFld (setFld ctl 7 1 0) 13 3 0) 41 23 0)).okResponse 0))) ∧
  -- DmaSetCompletes
  (∀ (s : State) (n : Fin 64), s.unitOn (domDma n) = true → (s.dmaState n = 1 ∨ s.dmaState n = 2) → s.dRemain n = 0 →
     (s.dm n).burst = none →
     (∀ b ∈ s.bnk, ∀ p ∈ b.2.wsteps, p.chan ≠ some n.val) →
     let x := s.curSet n
     let y := 1 - x
     let ctl := s.dCtl n
     ∃ t, exec (.dmaSetComplete n) s = .next t ∧ t.posted = (s.postIf (bit ctl 4) (0x240 + n)).posted ∧
       (s.on (F.DMA_STATUS_STOPPING n) = true → t.dmaState n = 0 ∧ t.get (F.DMA_CTL_RUN n 0) = 0 ∧ t.get (F.DMA_CTL_RUN n 1) = 0) ∧
       (s.on (F.DMA_STATUS_STOPPING n) = false →
         (bit ctl 2 = true → t.get (F.DMA_CTL_RUN n x) = s.get (F.DMA_CTL_RUN n x)) ∧
         (bit ctl 2 = false → t.get (F.DMA_CTL_RUN n x) = 0) ∧
         (bit ctl 1 = true → s.on (F.DMA_CTL_RUN n y) = true → t.curSet n = y ∧ t.dRemain n = s.get (F.DMA_COUNT_COUNT n y)) ∧
         (bit ctl 1 = true → s.on (F.DMA_CTL_RUN n y) = false → t.dmaState n = 3) ∧
         (bit ctl 1 = false → bit ctl 2 = true → t.curSet n = x ∧ t.dRemain n = s.dCount n) ∧
         (bit ctl 1 = false → bit ctl 2 = false → s.on (F.DMA_CTL_RUN n y) = false → t.dmaState n = 0) ∧
         (bit ctl 1 = false → bit ctl 2 = false → s.on (F.DMA_CTL_RUN n y) = true → t.curSet n = y ∧
           t.dRemain n = s.get (F.DMA_COUNT_COUNT n y)))) ∧
  -- DmaCommands
  (∀ (s : State) (n : Fin 64), s.pageUp (domDma n) = true →
     let rest := fun t : State => t.dmaState n = 0 ∧ t.get (F.DMA_CTL_RUN n 0) = 0 ∧ t.get (F.DMA_CTL_RUN n 1) = 0 ∧
       t.reg (R.DMA_CURSRC n) = s.reg (R.DMA_CURSRC n) ∧ t.reg (R.DMA_CURDST n) = s.reg (R.DMA_CURDST n) ∧ t.dRemain n = s.dRemain n
     let halts := s.dmaState n = 0 ∨ s.dmaState n = 3 ∨ s.dmaState n = 5
     (halts → ∃ t, exec (.dmaStop n) s = .next t ∧ rest t) ∧
     (¬ halts → exec (.dmaStop n) s = .next ((s.put (F.DMA_STATUS_STOPPING n) 1).okResponse 0)) ∧
     ((s.dm n).burst = none → ∃ t, exec (.dmaAbort n) s = .next t ∧ rest t ∧ t.get (F.DMA_STATUS_ABORTED n) = 1) ∧
     ((s.dm n).burst ≠ none → ∃ t, exec (.dmaAbort n) s = .next t ∧ (t.dm n).abort = true ∧ t.regs = s.regs) ∧
     (s.dmaState n = 5 → ∃ t, exec (.dmaResume n) s = .next t ∧ t.dmaState n = 2 ∧ t.get (F.DMA_STATUS_RETRIES n) = 0 ∧
       ∀ r, r ≠ R.DMA_STATUS n → t.reg r = s.reg r) ∧
     (s.dmaState n ≠ 5 → exec (.dmaResume n) s = .next ((s.rej (dmaPage n)).okResponse 0)) ∧
     exec (.clrreq n) s = .next ((s.put (F.DMA_STATUS_PREQ n) 0).okResponse 0))

/-- A pacing action (R236, R247, R248): a request is added, and a channel that waits for it goes on and consumes it; at 15 the request is lost
with OVERRUN and the count; a channel not paced by events ignores it. DMA_BURST between two engines' queues, and between two banks at Port B
(R170, R242, R243, R250): the channel the engine chooses moves the last element or word of its set; one the engine does not choose, or one
whose unit does not run, moves nothing. A burst of host memory (R250-R252, R255, R333, R257): with its group in turn, the read goes out with
a tag and a credit, no further than its circular block; its last beat brings the data, which go out as the write burst of a host
destination; the write's response ends the burst; an error response or the host's silence ends it with RETRYWAIT, the address and the cause.
The end of a retry delay (R257, R258): with no retry left the channel halts, with the halt event and the record's count; outside RETRYWAIT
nothing happens; with one left the channel is ACTIVE, and the burst is repeated from its start when the engine's choice falls on it and
fewer than four of the group are in flight (R240). A queue operation presented again after 16 FCLK (R243) completes when the queue has room.
Log entry 23 says how the model reads a burst's retry. -/
def Obligations.DmaBursts : Prop :=
  -- DmaPacing
  (∀ (s : State) (t : Fin 256) (n : Fin 64) (rest : List (Nat × Nat)), (s.tm t).acts = (3, n.val) :: rest →
     let p := s.get (F.DMA_STATUS_PREQ n)
     (s.dPace n = 1 → s.dmaState n ≠ 1 → p < 15 → ∃ u, exec (.actionDmaPacingStep t) s = .next u ∧
       u.get (F.DMA_STATUS_PREQ n) = p + 1 ∧ (u.tm t).acts = rest ∧ ∀ r, r ≠ R.DMA_STATUS n → u.reg r = s.reg r) ∧
     (s.dPace n = 1 → s.dmaState n = 1 → s.dRemain n ≠ 0 → s.unitOn (domDma n) = true → p < 15 →
       ∃ u, exec (.actionDmaPacingStep t) s = .next u ∧ u.get (F.DMA_STATUS_PREQ n) = p ∧ u.dmaState n = 2 ∧
         (u.dm n).stepLeft = s.stepBytes n ∧ (u.tm t).acts = rest ∧ ∀ r, r ≠ R.DMA_STATUS n → u.reg r = s.reg r) ∧
     (s.dPace n = 1 → p = 15 → ∃ u, exec (.actionDmaPacingStep t) s = .next u ∧
       u.get (F.DMA_STATUS_PREQ n) = 15 ∧ u.get (F.DMA_STATUS_OVERRUN n) = 1 ∧ (u.tm t).acts = rest ∧
       u.get (errcnt (dmaPage n)) = Nat.min (s.get (errcnt (dmaPage n)) + 1) (2 ^ 32 - 1)) ∧
     (s.dPace n ≠ 1 → ∃ u, exec (.actionDmaPacingStep t) s = .next u ∧ u.regs = s.regs ∧ u.dma = s.dma ∧ (u.tm t).acts = rest)) ∧
  -- DmaBurstMovesAnElement
  (∀ (s : State) (n : Fin 64) (e f : Fin 32) (v : BitVec 32) (rest : List (BitVec 32)),
     (s.unitOn (domDma n) = false → exec (.dmaBurst n) s = .next s) ∧
     ((s.dm n).burst = none → s.dmaChoice (n / 8) ≠ some n.val → exec (.dmaBurst n) s = .next s) ∧
     (s.dm n = { Dma.reset with stepLeft := 4 } → s.dmaChoice (n / 8) = some n.val → s.inFlight (n / 8) < 4 → s.dmaState n = 2 →
       s.dPace n = 0 → s.dRemain n = 4 → s.dDown n = false →
       s.reg (R.DMA_CURSRC n) = BitVec.ofNat 64 (2 ^ 33 + 16 * e + 8) → s.reg (R.DMA_CURDST n) = BitVec.ofNat 64 (2 ^ 33 + 16 * f) →
       s.unitOn (domPio e) = true → s.unitOn (domPio f) = true → s.get (F.PIO_SHIFTCFG_JOIN e) ≠ 1 →
       (s.en e).rxq = v :: rest → (s.en f).txq.length < s.txCap f →
       ∃ t, exec (.dmaBurst n) s = .next t ∧ (t.en e).rxq = rest ∧ (t.en f).txq = (s.en f).txq ++ [v] ∧ t.dRemain n = 0 ∧
         t.get (F.DMA_STATUS_RETRIES n) = 0 ∧ (t.dm n).burst = none ∧
         (∀ r, r ≠ R.DMA_REMAIN n → r ≠ R.DMA_STATUS n → r ≠ R.DMA_CURSRC n → r ≠ R.DMA_CURDST n → t.reg r = s.reg r) ∧ t.mem = s.mem) ∧
     ∀ a b : Nat, a < 2 ^ 22 → b < 2 ^ 22 → a / 32768 ≠ b / 32768 →
       s.dm n = { Dma.reset with stepLeft := 8 } → s.dmaChoice (n / 8) = some n.val → s.inFlight (n / 8) < 4 → s.dmaState n = 2 →
       s.dPace n = 0 → s.dRemain n = 8 → s.dDown n = false →
       s.reg (R.DMA_CURSRC n) = BitVec.ofNat 64 (8 * a) → s.reg (R.DMA_CURDST n) = BitVec.ofNat 64 (8 * b) →
       (∀ w ∈ [a, b], s.get (F.BNK_OWN_OWNER (w / 32768)) ≠ 0x20 ∧ (s.bk (w / 32768)).march = none ∧ s.dmaBankReady w = true) →
       secSyndrome (s.arrWord a) = 0 → s.on (F.BNK_INJ_ARM (b / 32768)) = false →
       ∃ t, exec (.dmaBurst n) s = .next t ∧ t.arrWord b = secEncode ((s.arrWord a).setWidth 64) ∧
         (∀ w, w ≠ b → t.arrWord w = s.arrWord w) ∧ t.dRemain n = 0 ∧ (t.dm n).burst = none) ∧
  -- DmaHostBursts
  (∀ (s : State) (n : Fin 64) (tag : Fin 32),
     let alone := ∀ m, m < 64 → m / 8 ≠ n.val / 8 → s.hmPresents m = false
     let src := s.reg (R.DMA_CURSRC n)
     let dst := s.reg (R.DMA_CURDST n)
     let block := if bit (s.dCtl n) 5 = true then 2 ^ fld (s.dCtl n) 8 5 else 2 ^ 63
     (s.dm n = { Dma.reset with stepLeft := 8 } → s.dmaChoice (n / 8) = some n.val → s.inFlight (n / 8) < 4 → s.dmaState n = 2 →
       s.dPace n = 0 → s.dRemain n = 8 → s.dDown n = false → bit src 63 = true → endPt dst = .host → dst.toNat % 64 ≤ 56 →
       s.unitOn domBnd = true → s.hm.credits ≠ 0 → s.freeTag n = some tag.val → alone →
       ∃ t, exec (.dmaBurst n) s = .next t ∧ (t.dm n).burst = some ⟨8, [], [], 0, some tag.val⟩ ∧
         t.hm = ⟨s.hm.credits - 1, s.hm.out ++ [⟨tag, n, false, src.setWidth 63, Nat.min 8 (block - src.toNat % block), [], false⟩], n / 8⟩ ∧
         t.regs = s.regs) ∧
     (∀ (h : HmBurst) (b : Burst) (data : BitVec 256), s.unitOn domBnd = true →
       s.hm.out = [h] → h.tag = tag → h.chan = n → (s.dm n).burst = some b → (s.dm n).abort = false →
       (h.write = false → ∃ t, exec (.hmResponseBeat tag false data true true) s = .next t ∧ t.dmaState n = 4 ∧ (t.dm n).burst = none ∧
         t.reg (R.DMA_ERRADDR n) = BitVec.ofNat 64 (2 ^ 63 + h.addr.toNat) ∧ t.get (F.DMA_ERRINFO_CAUSE n) = 1 ∧
         t.get (F.DMA_ERRINFO_WR n) = 0 ∧ t.hm.out = [] ∧ t.dRemain n = s.dRemain n) ∧
       (h.write = false → h.data = [] → h.len = 8 → h.failed = false → b = ⟨8, [], [], 0, some tag.val⟩ → s.dDown n = false →
         endPt dst = .host → 0 < s.hm.credits → alone → ∃ t, exec (.hmResponseBeat tag false data true false) s = .next t ∧
           t.hm = ⟨s.hm.credits - 1, [⟨n / 8 * 4, n, true, dst.setWidth 63, 8, (bytesOf 32 data.toNat).take 8, false⟩], n / 8⟩ ∧
           (t.dm n).burst = some ⟨8, [], (bytesOf 32 data.toNat).take 8, 0, some (n / 8 * 4)⟩ ∧ t.regs = s.regs) ∧
       (s.on F.BND_HMTO_HMTO = true → ∃ t, exec (.hostMasterTimeout tag) s = .next t ∧ t.dmaState n = 4 ∧ (t.dm n).burst = none ∧
         t.get (F.DMA_ERRINFO_CAUSE n) = 1 ∧ t.get (F.DMA_ERRINFO_WR n) = b2n h.write ∧ t.hm.out = []) ∧
       (h.write = true → b.len < s.dRemain n → b.len < (s.dm n).stepLeft → s.dDown n = false →
         ∃ t, exec (.hmResponseBeat tag true data true false) s = .next t ∧ t.dRemain n = s.dRemain n - b.len ∧ (t.dm n).burst = none ∧
           (t.dm n).stepLeft = (s.dm n).stepLeft - b.len ∧ t.dmaState n = s.dmaState n ∧ t.hm.out = [])) ∧
     (s.unitOn domBnd = true → s.hm.out = [] → ∀ (w : Bool) (data : BitVec 256) (last fail : Bool),
       exec (.hmResponseBeat tag w data last fail) s = .next (s.inc F.BND_HMLATE_HMLATE)) ∧
     (s.unitOn domBnd = true → exec .hmGrant s =
       .next (if s.hm.credits < 64 then { s with hm := { s.hm with credits := s.hm.credits + 1 } } else s.err 0x1F0)) ∧
     (s.on F.BND_HMTO_HMTO = false → exec (.hostMasterTimeout tag) s = .next s)) ∧
  -- DmaRetries
  (∀ (s : State) (n : Fin 64), s.unitOn (domDma n) = true →
     (s.dmaState n ≠ 4 → exec (.retryDelayEnd n) s = .next s) ∧
     (s.dmaState n = 4 → fld (s.dCtl n) 35 4 ≤ s.get (F.DMA_STATUS_RETRIES n) → ∃ t, exec (.retryDelayEnd n) s = .next t ∧
       t.dmaState n = 5 ∧ t.get (F.DMA_STATUS_HALTED n) = 1 ∧ t.get (F.DMA_CTL_RUN n (s.curSet n)) = s.get (F.DMA_CTL_RUN n (s.curSet n)) ∧
       t.dRemain n = s.dRemain n ∧ t.posted = (s.postIf (s.on (F.DMA_EVEN_HALTEV n)) (0x280 + n)).posted) ∧
     (∀ left : Nat, s.dmaState n = 4 → s.get (F.DMA_STATUS_RETRIES n) < fld (s.dCtl n) 35 4 → s.dm n = { Dma.reset with stepLeft := left } →
       0 < left → 0 < s.dRemain n → s.dDown n = false → s.dPace n ≠ 2 → bit (s.reg (R.DMA_CURSRC n)) 63 = true → s.hm.credits = 0 →
       (∀ m, m < 64 → m / 8 = n.val / 8 → m ≠ n.val → s.burstWanted m = false) → s.inFlight (n / 8) < 4 →
       ∃ t, exec (.retryDelayEnd n) s = .next t ∧ t.dmaState n = 2 ∧ t.get (F.DMA_STATUS_RETRIES n) = s.get (F.DMA_STATUS_RETRIES n) + 1 ∧
         (t.dm n).burst = some ⟨(s.dcfg n).burstLen left, [], [], 0, none⟩ ∧ ∀ r, r ≠ R.DMA_STATUS n → t.reg r = s.reg r) ∧
     (s.dmaState n = 4 → s.get (F.DMA_STATUS_RETRIES n) < fld (s.dCtl n) 35 4 → (s.dm n).burst = none → 4 ≤ s.inFlight (n / 8) →
       ∃ t, exec (.retryDelayEnd n) s = .next t ∧ t.dmaState n = 2 ∧ t.get (F.DMA_STATUS_RETRIES n) = s.get (F.DMA_STATUS_RETRIES n) + 1 ∧
         t.dm n = s.dm n ∧ ∀ r, r ≠ R.DMA_STATUS n → t.reg r = s.reg r) ∧
     ((s.dm n).qwait = false → exec (.dmaQueueRetry n) s = .next s) ∧
     (∀ (b : Burst) (q : Nat) (v : Word) (p : Bool) (u : State), (s.dm n).qwait = true → (s.dm n).burst = some b → b.tag = none →
       b.len = 8 → b.got.length = 8 → b.put = 0 → (s.dcfg n).pd = .queue q →
       (s.setDm n { s.dm n with qwait := false }).portOp 32 4 q (BitVec.ofNat 64 (ofBytes b.got)) = (.ok v p, u) →
       (u.dm n).abort = false → u.dRemain n = 16 → (u.dm n).stepLeft = 16 → u.dDown n = false →
       ∃ t, exec (.dmaQueueRetry n) s = .next t ∧ t.dRemain n = 8 ∧ (t.dm n).stepLeft = 8 ∧ (t.dm n).burst = none ∧ (t.dm n).qwait = false))

/-- ENGINE_EDGE (R264-R266, R277): a stopped engine takes no edge; the divider keeps its remainder; a delay counts one clock; a stalled word is
retried; otherwise IMEM[PC] starts: an IDLE word holds its DELAY and performs its SIDE actions, each on the engine's own pin. A word of an
engine moves no pin that is not the engine's, and no other engine (R262, R280): MARK alone reaches its siblings' waits. WAITP, WAITE and
MARK (R271, R273): a wait goes on at the level or the event it names, one that reached the engine in the same FCLK among them, and stalls
otherwise; the latched form clears the latch; MARK posts its line where EVEN says so and reaches its siblings' waits. ENGINE_EDGE takes the
word as it stands; the rows of one operation run one word with no SIDE and no DELAY (log entry 3). -/
def Obligations.EngineSteps : Prop :=
  -- EngineEdges
  (∀ (s : State) (e : Fin 32),
     (s.pioRuns e = false → exec (.engineEdge e) s = .next s) ∧
     (∀ d, d = s.get (F.PIO_CLKDIV_INT e) * 256 + s.get (F.PIO_CLKDIV_FRAC e) → (s.en e).acc < d →
       ∃ k, 1 ≤ k ∧ ((s.pioDivide e).en e).acc + d = (s.en e).acc + 256 * k ∧ (s.en e).acc + 256 * (k - 1) < d) ∧
     (s.pioRuns e = true → (s.en e).delay ≠ 0 → ∃ t, exec (.engineEdge e) s = .next t ∧
       s.onlyEn t e { (s.pioDivide e).en e with delay := (s.en e).delay - 1 }) ∧
     (s.pioFree e → fld (s.reg (R.PIO_IMEM e (s.en e).pc)) 28 4 = 11 →
       let word := s.reg (R.PIO_IMEM e (s.en e).pc)
       ∃ t, exec (.engineEdge e) s = .next t ∧ t = { s with pio := t.pio, pin := t.pin } ∧ (∀ k, k ≠ e.val → t.en k = s.en k) ∧
         t.en e = { s.edgeOf e with pc := s.pcNext e, delay := fld word 22 6 } ∧
         ∀ n : Fin 128, let j := (n + 128 - s.get (F.PIO_PINMAP_SIDEBASE e)) % 128
           t.pn n = if s.pinFsel n = 1 ∧ s.pinSub n = e ∧ j < 4 then
               (match fld word (14 + 2 * j) 2 with
                 | 0 => s.pn n | 1 => { s.pn n with val := true } | 2 => { s.pn n with val := false }
                 | _ => { s.pn n with val := !(s.pn n).val })
             else s.pn n) ∧
     (∀ w : Stalled, s.pioRuns e = true → (s.en e).delay = 0 → (s.en e).stalled = some w → fld w.word 28 4 = 5 → fld w.word 0 2 = 0 →
       ((s.en e).txq = [] → ∃ t, exec (.engineEdge e) s = .next t ∧ t.en e = { (s.pioDivide e).en e with stalled := some ⟨w.word, w.addr, 1⟩ }) ∧
       (∀ v rest, (s.en e).txq = v :: rest → ∃ t, exec (.engineEdge e) s = .next t ∧ (t.en e).stalled = none ∧ (t.en e).txq = rest ∧
         (t.en e).txs.toNat = v.toNat % 2 ^ s.txFrame e ∧ (t.en e).txbits = s.txFrame e ∧ (t.en e).pc = s.pioNext e w.addr none)) ∧
     (∀ w : Stalled, s.pioRuns e = true → (s.en e).delay = 0 → (s.en e).stalled = some w → fld w.word 28 4 = 3 → fld w.word 12 2 = 1 →
       (s.en e).seen = true → ∃ t, exec (.engineEdge e) s = .next t ∧
         s.onlyEn t e { s.edgeOf e with pc := s.pioNext e w.addr none, delay := fld w.word 22 6 })) ∧
  -- EnginesShareNothing
  (∀ (s : State) (e k : Fin 32) (n : Fin 128) (dst src : BitVec 3) (d opn : BitVec 2) (count : BitVec 5) (pin : BitVec 7) (event : BitVec 12)
     (value : BitVec 10) (target : BitVec 6) (cond : BitVec 4) (f g : Bool),
     ∀ c ∈ [Instr.pioOut e dst count, .pioIn e src count, .waitp e f g pin, .waite e f g event, .setp e d value, .pull e f g, .pioPush e f g,
         .mov e dst src opn, .jcnt e f target, .jcond e cond target, .idle e],
       ∃ t, exec c s = .next t ∧ (k ≠ e → t.en k = s.en k) ∧ ((s.pinFsel n ≠ 1 ∨ s.pinSub n ≠ e) → t.pn n = s.pn n)) ∧
  -- EngineWaits
  (∀ (s : State) (e : Fin 32) (pol rel : Bool) (pin : BitVec 7) (event : BitVec 12) (m : Bool), s.pioFree e →
     let after := { s.edgeOf e with pc := s.pcNext e }
     let p := if rel then (s.get (F.PIO_PINMAP_INBASE e) + pin.toNat) % 128 else pin.toNat
     let stalls := fun (t : State) (word cause : Nat) => s.onlyEn t e { s.edgeOf e with stalled := some ⟨BitVec.ofNat 32 word, (s.en e).pc, cause⟩ }
     (s.padLevel p = pol → ∃ t, exec (.waitp e pol rel pin) s = .next t ∧ s.onlyEn t e after) ∧
     (s.padLevel p ≠ pol → ∃ t, exec (.waitp e pol rel pin) s = .next t ∧
       stalls t (2 * 2 ^ 28 + (b2n pol * 2 ^ 13 + b2n rel * 2 ^ 12 + pin.toNat)) 3) ∧
     (s.get (F.PIO_EVLATCH_LATCHED e) = 1 → ∃ t, exec (.waite e true rel event) s = .next t ∧ t.get (F.PIO_EVLATCH_LATCHED e) = 0 ∧
       t.en e = after ∧ ∀ r, r ≠ R.PIO_EVLATCH e → t.reg r = s.reg r) ∧
     (s.get (F.PIO_EVLATCH_LATCHED e) = 0 → ∃ t, exec (.waite e true rel event) s = .next t ∧
       stalls t (3 * 2 ^ 28 + (2 ^ 13 + b2n rel * 2 ^ 12 + event.toNat)) 4) ∧
     (event.toNat < 0xC80 → event.toNat ∉ s.heardNow.lines →
       ∃ t, exec (.waite e false false event) s = .next t ∧ stalls t (3 * 2 ^ 28 + event.toNat) 4) ∧
     (event.toNat < 0xC80 → event.toNat ∈ s.heardNow.lines → ∃ t, exec (.waite e false false event) s = .next t ∧ s.onlyEn t e after) ∧
     (∃ t, exec (.waite e false true event) s = .next t ∧ s.onlyEn t e { s.edgeOf e with
       stalled := some ⟨BitVec.ofNat 32 (3 * 2 ^ 28 + (2 ^ 12 + event.toNat)), (s.en e).pc, 4⟩,
       seen := s.heardNow.marks.contains (e.val / 8 * 8 + event.toNat % 8, event.toNat / 8 % 2) }) ∧
     (∃ t, exec (.mark e m) s = .next t ∧ t.en e = after ∧ t.regs = s.regs ∧
       t.heardNow.marks = s.heardNow.marks ++ [(e.val, b2n m)] ∧ t.heardNow.lines = s.heardNow.lines ∧
       t.posted = (s.postIf ((s.get (F.PIO_EVEN_MARKS e)).testBit (b2n m)) (0x2C0 + 2 * e + b2n m)).posted) ∧
     (∀ (k : Fin 32) (w : Stalled), k ≠ e → k.val / 8 = e.val / 8 → (s.en k).stalled = some w →
       fld w.word 28 4 = 3 → fld w.word 12 2 = 1 → fld w.word 0 4 = e.val % 8 + 8 * b2n m →
       ∃ t, exec (.mark e m) s = .next t ∧ t.en k = { s.en k with seen := true }))

/-- JCNT, JCOND and IDLE (R272, R267): a nonzero register is decremented and the engine jumps; a zero one falls through; JCOND jumps on its
condition. The conditions of JCOND (R272, R275). SETP and MOV (R270): the value, its four transformations, and each destination; a write to
pins or directions reaches the engine's own pins from the base on. Reserved words (R267): each executes as IDLE, and is counted with its
address. The engine rows of one operation run one word with no SIDE and no DELAY at an edge (log entry 3). -/
def Obligations.EngineJumpsAndMoves : Prop :=
  -- EngineJumps
  (∀ (s : State) (e : Fin 32) (target : BitVec 6) (cond : BitVec 4), s.pioFree e →
     let x := s.en e
     ((x.x ≠ 0 → ∃ t, exec (.jcnt e false target) s = .next t ∧ s.onlyEn t e { s.edgeOf e with x := x.x - 1, pc := target.toNat }) ∧
       (x.x = 0 → ∃ t, exec (.jcnt e false target) s = .next t ∧ s.onlyEn t e { s.edgeOf e with pc := s.pcNext e })) ∧
     ((x.y ≠ 0 → ∃ t, exec (.jcnt e true target) s = .next t ∧ s.onlyEn t e { s.edgeOf e with y := x.y - 1, pc := target.toNat }) ∧
       (x.y = 0 → ∃ t, exec (.jcnt e true target) s = .next t ∧ s.onlyEn t e { s.edgeOf e with pc := s.pcNext e })) ∧
     (cond.toNat < 13 → ∃ t, exec (.jcond e cond target) s = .next t ∧
       s.onlyEn t e { s.edgeOf e with pc := if s.pioCond e cond.toNat then target.toNat else s.pcNext e }) ∧
     ∃ t, exec (.idle e) s = .next t ∧ s.onlyEn t e { s.edgeOf e with pc := s.pcNext e }) ∧
  -- EngineConditions
  (∀ (s : State) (e : Fin 32), let x := s.en e
     s.pioCond e 0 = true ∧ (s.pioCond e 1 = true ↔ x.x = 0) ∧ (s.pioCond e 2 = true ↔ x.x ≠ 0) ∧ (s.pioCond e 3 = true ↔ x.y = 0) ∧
     (s.pioCond e 4 = true ↔ x.y ≠ 0) ∧ (s.pioCond e 5 = true ↔ x.x ≠ x.y) ∧
     s.pioCond e 6 = s.padLevel (s.get (F.PIO_PINMAP_JPIN e)) ∧ (s.pioCond e 7 = true ↔ x.txbits = 0) ∧
     (s.pioCond e 8 = true ↔ x.txq = []) ∧
     (s.get (F.PIO_SHIFTCFG_JOIN e) = 0 → (s.pioCond e 9 = true ↔ 8 ≤ x.rxq.length)) ∧
     (s.get (F.PIO_SHIFTCFG_JOIN e) = 1 → s.pioCond e 9 = false) ∧
     (s.get (F.PIO_SHIFTCFG_JOIN e) = 2 → (s.pioCond e 9 = true ↔ 16 ≤ x.rxq.length)) ∧
     (s.pioCond e 10 = true ↔ s.get (F.PIO_EVLATCH_LATCHED e) ≠ 0) ∧ s.pioCond e 11 = x.nodata ∧ s.pioCond e 12 = x.noroom) ∧
  -- EngineMoves
  (∀ (s : State) (e : Fin 32) (value : BitVec 10) (src : BitVec 3) (opn : BitVec 2), s.pioFree e →
     let x := s.en e
     let after := { s.edgeOf e with pc := s.pcNext e }
     let v0 : BitVec 32 := match src.toNat with
       | 0 => BitVec.ofNat 32 (s.padBits (s.get (F.PIO_PINMAP_INBASE e)) 32)
       | 1 => x.x | 2 => x.y | 3 => x.txs | 4 => x.rxs | 5 => s.pioStat e | _ => 0
     let v : BitVec 32 := match opn.toNat with
       | 0 => v0 | 1 => ~~~ v0 | 2 => v0.extractLsb' 0 8 ++ v0.extractLsb' 8 8 ++ v0.extractLsb' 16 8 ++ v0.extractLsb' 24 8 | _ => v0 + 1
     let pins := fun (t : State) (base width w : Nat) (dirs : Bool) => ∀ n : Fin 128,
       t.pn n = if s.pinFsel n = 1 ∧ s.pinSub n = e ∧ (n + 128 - base) % 128 < width then
         (if dirs then { s.pn n with dir := w.testBit ((n + 128 - base) % 128) } else { s.pn n with val := w.testBit ((n + 128 - base) % 128) })
         else s.pn n
     (∀ dirs : Bool, ∃ t, exec (.setp e (if dirs then 1 else 0) value) s = .next t ∧ t.en e = after ∧
       pins t (s.get (F.PIO_PINMAP_SETBASE e)) (s.get (F.PIO_PINMAP_SETW e)) value.toNat dirs ∧ t.regs = s.regs) ∧
     (∃ t, exec (.setp e 2 value) s = .next t ∧ s.onlyEn t e { after with x := value.setWidth 32 }) ∧
     (∃ t, exec (.setp e 3 value) s = .next t ∧ s.onlyEn t e { after with y := value.setWidth 32 }) ∧
     (src.toNat < 7 →
       (∀ dirs : Bool, ∃ t, exec (.mov e (if dirs then 6 else 0) src opn) s = .next t ∧ t.en e = after ∧
         pins t (s.get (F.PIO_PINMAP_OUTBASE e)) (s.get (F.PIO_PINMAP_OUTW e)) v.toNat dirs ∧ t.regs = s.regs) ∧
       (∃ t, exec (.mov e 1 src opn) s = .next t ∧ s.onlyEn t e { after with x := v }) ∧
       (∃ t, exec (.mov e 2 src opn) s = .next t ∧ s.onlyEn t e { after with y := v }) ∧
       (∃ t, exec (.mov e 3 src opn) s = .next t ∧ s.onlyEn t e { after with txs := v, txbits := s.txFrame e }) ∧
       (∃ t, exec (.mov e 4 src opn) s = .next t ∧ s.onlyEn t e { after with rxs := v, rxbits := s.rxFrame e }) ∧
       (∃ t, exec (.mov e 5 src opn) s = .next t ∧ s.onlyEn t e { s.edgeOf e with pc := v.toNat % 64 }))) ∧
  -- EngineReservedWords
  (∀ (s : State) (e : Fin 32) (n : BitVec 5) (dst src : BitVec 3) (opn : BitVec 2) (cond : BitVec 4) (target : BitVec 6) (event : BitVec 12),
     s.pioFree e →
     let reserved := fun c : Instr => ∃ t, exec c s = .next t ∧ t.en e = { s.edgeOf e with pc := s.pcNext e } ∧
       t.get (F.PIO_RSVCNT_COUNT e) = Nat.min (s.get (F.PIO_RSVCNT_COUNT e) + 1) (2 ^ 32 - 1) ∧
       t.get (F.PIO_RSVCNT_LAST e) = (s.en e).pc % 64 ∧
       t.get (errcnt (pioPage e)) = Nat.min (s.get (errcnt (pioPage e)) + 1) (2 ^ 32 - 1) ∧ t.pin = s.pin ∧
       ∀ r, r ≠ R.PIO_RSVCNT e → r ≠ (errcnt (pioPage e)).key → t.reg r = s.reg r
     reserved (.pioOut e 7 n) ∧ (6 ≤ src.toNat → reserved (.pioIn e src n)) ∧ (dst = 7 ∨ src = 7 → reserved (.mov e dst src opn)) ∧
     (13 ≤ cond.toNat → reserved (.jcond e cond target)) ∧ (0xC80 ≤ event.toNat → reserved (.waite e false false event)))

/-- OUT (R268, R269): least or most significant bit first; without TXSTREAM the missing bits are zeros; with it the OUT stalls while the TX
queue is empty. Each destination takes the value. IN (R268, R269): the source's bits are gathered least or most significant bit first, and
without RXSTREAM the bits beyond the frame are dropped; with it a completed frame enters the RX queue, and the IN stalls while the queue is
full. PULL and PUSH (R269, R275): a TX entry becomes the frame; an empty queue stalls, or sets NODATA; RXS enters the RX queue; a full queue
stalls, or sets NOROOM and is counted; the guards WHENDRAINED and WHENFULL; under JOIN 1 a pushed word is discarded and counted. The engine
rows of one operation run one word with no SIDE and no DELAY at an edge (log entry 3); log entry 21 gives the stream readings. -/
def Obligations.EngineShifters : Prop :=
  -- EngineSends
  (∀ (s : State) (e : Fin 32) (n : BitVec 5), s.pioFree e →
     let x := s.en e
     let k := if n = 0 then 32 else n.toNat
     let msb := s.on (F.PIO_SHIFTCFG_TXMSB e)
     let b := Nat.min k x.txbits
     let v := if msb then x.txs.toNat / 2 ^ (x.txbits - b) % 2 ^ b * 2 ^ (k - b) else x.txs.toNat % 2 ^ b
     let after := { s.edgeOf e with pc := s.pcNext e, txs := if msb then x.txs else x.txs >>> k, txbits := x.txbits - b }
     (s.on (F.PIO_SHIFTCFG_TXSTREAM e) = false →
       (∃ t, exec (.pioOut e 2 n) s = .next t ∧ s.onlyEn t e { after with x := BitVec.ofNat 32 v }) ∧
       (∃ t, exec (.pioOut e 3 n) s = .next t ∧ s.onlyEn t e { after with y := BitVec.ofNat 32 v }) ∧
       (∃ t, exec (.pioOut e 4 n) s = .next t ∧ s.onlyEn t e after) ∧
       (x.rxbits ≤ s.rxFrame e → s.on (F.PIO_SHIFTCFG_RXSTREAM e) = false →
         let q := Nat.min k (s.rxFrame e - x.rxbits)
         ∃ t, exec (.pioOut e 6 n) s = .next t ∧ s.onlyEn t e { after with
           rxs := if s.on (F.PIO_SHIFTCFG_RXMSB e) then BitVec.ofNat 32 (x.rxs.toNat * 2 ^ q + v / 2 ^ (k - q))
             else x.rxs ||| BitVec.ofNat 32 (v % 2 ^ q * 2 ^ x.rxbits),
           rxbits := Nat.min (x.rxbits + k) (s.rxFrame e) }) ∧
       (∃ t, exec (.pioOut e 5 n) s = .next t ∧ s.onlyEn t e { after with pc := (s.get (F.PIO_EXECCFG_WRAPBOT e) + v) % 64 }) ∧
       (∀ dirs : Bool, ∃ t, exec (.pioOut e (if dirs then 1 else 0) n) s = .next t ∧ t.en e = after ∧ t.regs = s.regs ∧
         ∀ m : Fin 128, t.pn m =
           let j := (m + 128 - s.get (F.PIO_PINMAP_OUTBASE e)) % 128
           if s.pinFsel m = 1 ∧ s.pinSub m = e ∧ j < k then
             (if dirs then { s.pn m with dir := v.testBit j } else { s.pn m with val := v.testBit j }) else s.pn m)) ∧
     (s.on (F.PIO_SHIFTCFG_TXSTREAM e) = true → x.txbits = 0 → x.txq = [] → ∃ t, exec (.pioOut e 4 n) s = .next t ∧
       s.onlyEn t e { s.edgeOf e with stalled := some ⟨BitVec.ofNat 32 (4 * 2 ^ 11 + n.toNat), x.pc, 1⟩ }) ∧
     (s.on (F.PIO_SHIFTCFG_TXSTREAM e) = true → k ≤ x.txbits → ∃ t, exec (.pioOut e 4 n) s = .next t ∧ s.onlyEn t e after)) ∧
  -- EngineGathers
  (∀ (s : State) (e : Fin 32) (src : BitVec 3) (n : BitVec 5), s.pioFree e → src.toNat < 6 →
     let x := s.en e
     let k := if n = 0 then 32 else n.toNat
     let frame := s.rxFrame e
     let msb := s.on (F.PIO_SHIFTCFG_RXMSB e)
     let v := match src.toNat with
       | 0 => s.padBits (s.get (F.PIO_PINMAP_INBASE e)) k | 1 => x.x.toNat % 2 ^ k | 2 => x.y.toNat % 2 ^ k | 3 => 0 | 4 => 2 ^ k - 1
       | _ => let q := Nat.min k x.txbits
         if s.on (F.PIO_SHIFTCFG_TXMSB e) then x.txs.toNat / 2 ^ (x.txbits - q) % 2 ^ q * 2 ^ (k - q) else x.txs.toNat % 2 ^ q
     let b := Nat.min k (frame - x.rxbits)
     let rxs := if msb then BitVec.ofNat 32 (x.rxs.toNat * 2 ^ b + v / 2 ^ (k - b))
       else x.rxs ||| BitVec.ofNat 32 (v % 2 ^ b * 2 ^ x.rxbits)
     x.rxbits ≤ frame →
       (s.on (F.PIO_SHIFTCFG_RXSTREAM e) = false → ∃ t, exec (.pioIn e src n) s = .next t ∧
         s.onlyEn t e { s.edgeOf e with pc := s.pcNext e, rxs := rxs, rxbits := Nat.min (x.rxbits + k) frame }) ∧
       (s.on (F.PIO_SHIFTCFG_RXSTREAM e) = true → x.rxbits + k = frame → x.rxq.length < s.rxCap e →
         ∃ t, exec (.pioIn e src n) s = .next t ∧
           s.onlyEn t e { s.edgeOf e with pc := s.pcNext e, rxs := 0, rxbits := 0, rxq := x.rxq ++ [rxs], noroom := false }) ∧
       (s.on (F.PIO_SHIFTCFG_RXSTREAM e) = true → x.rxbits + k = frame → s.get (F.PIO_SHIFTCFG_JOIN e) ≠ 1 → s.rxCap e ≤ x.rxq.length →
         ∃ t, exec (.pioIn e src n) s = .next t ∧
           s.onlyEn t e { s.edgeOf e with stalled := some ⟨BitVec.ofNat 32 (2 ^ 28 + src.toNat * 2 ^ 11 + n.toNat), x.pc, 2⟩ })) ∧
  -- EnginePullsAndPushes
  (∀ (s : State) (e : Fin 32) (guarded noWait : Bool), s.pioFree e →
     let x := s.en e
     let after := { s.edgeOf e with pc := s.pcNext e }
     let errs := fun t : State => t.get (errcnt (pioPage e)) = Nat.min (s.get (errcnt (pioPage e)) + 1) (2 ^ 32 - 1)
     let pulls := guarded = false ∨ x.txbits = 0
     let pushes := guarded = false ∨ x.rxbits = s.rxFrame e
     (¬ pulls → ∃ t, exec (.pull e guarded noWait) s = .next t ∧ s.onlyEn t e after) ∧
     (∀ v rest, pulls → x.txq = v :: rest → ∃ t, exec (.pull e guarded noWait) s = .next t ∧
       s.onlyEn t e { after with txs := BitVec.ofNat 32 (v.toNat % 2 ^ s.txFrame e), txbits := s.txFrame e, txq := rest, nodata := false }) ∧
     (pulls → x.txq = [] → noWait = true → ∃ t, exec (.pull e guarded noWait) s = .next t ∧ s.onlyEn t e { after with nodata := true }) ∧
     (pulls → x.txq = [] → noWait = false → ∃ t, exec (.pull e guarded noWait) s = .next t ∧
       s.onlyEn t e { s.edgeOf e with stalled := some ⟨BitVec.ofNat 32 (5 * 2 ^ 28 + b2n guarded * 2), x.pc, 1⟩ }) ∧
     (¬ pushes → ∃ t, exec (.pioPush e guarded noWait) s = .next t ∧ s.onlyEn t e after) ∧
     (pushes → s.get (F.PIO_SHIFTCFG_JOIN e) ≠ 1 → x.rxq.length < s.rxCap e → ∃ t, exec (.pioPush e guarded noWait) s = .next t ∧
       s.onlyEn t e { after with rxs := 0, rxbits := 0, rxq := x.rxq ++ [x.rxs], noroom := false }) ∧
     (pushes → s.get (F.PIO_SHIFTCFG_JOIN e) ≠ 1 → s.rxCap e ≤ x.rxq.length → noWait = true →
       ∃ t, exec (.pioPush e guarded noWait) s = .next t ∧ t.en e = { after with noroom := true } ∧ errs t) ∧
     (pushes → s.get (F.PIO_SHIFTCFG_JOIN e) ≠ 1 → s.rxCap e ≤ x.rxq.length → noWait = false →
       ∃ t, exec (.pioPush e guarded noWait) s = .next t ∧
         s.onlyEn t e { s.edgeOf e with stalled := some ⟨BitVec.ofNat 32 (6 * 2 ^ 28 + b2n guarded * 2), x.pc, 2⟩ }) ∧
     (pushes → s.get (F.PIO_SHIFTCFG_JOIN e) = 1 → ∃ t, exec (.pioPush e guarded noWait) s = .next t ∧
       t.en e = { after with rxs := 0, rxbits := 0 } ∧ errs t))

/-- The queues as the host reaches them (R274, R275, R290). The feeds (R276, R182): a word goes from the ring to the TX queue, or from the RX
queue to the ring, and the offset moves on; where the complex does not own the bank, a read brings zero and a write is dropped, and both are
violations. Starting and stopping (R277-R279): EN set restarts the divider; EN cleared abandons a stalled word and a delay and keeps the
rest; RELOAD abandons them too; group commands act on the named engines alone; IMEM takes a new word and disturbs nothing else. -/
def Obligations.EngineQueuesAndControl : Prop :=
  -- EngineQueues
  (∀ (s : State) (e : Fin 32) (value : BitVec 32) (cfg : BitVec 64), s.pageUp (domPio e) = true →
     let x := s.en e
     let join := s.get (F.PIO_SHIFTCFG_JOIN e)
     (x.txq.length < s.txCap e → ∃ t, exec (.txqWrite e value) s = .next t ∧ t.en e = { x with txq := x.txq ++ [value] } ∧ t.regs = s.regs) ∧
     (s.txCap e ≤ x.txq.length → exec (.txqWrite e value) s = .next ((s.err (pioPage e)).okResponse 0)) ∧
     (∀ v rest, x.rxq = v :: rest → ∃ t, exec (.rxqRead e) s = .next t ∧ t.resp.rgData = v ∧ t.resp.rgErr = false ∧
       t.en e = { x with rxq := rest } ∧ t.regs = s.regs) ∧
     (x.rxq = [] → exec (.rxqRead e) s = .next ((s.err (pioPage e)).okResponse 0)) ∧
     (s.on (F.PIO_CTRL_EN e) = false → ∃ t, exec (.clrq e) s = .next t ∧ t.en e = { x with txq := [], rxq := [] } ∧ t.regs = s.regs) ∧
     (s.on (F.PIO_CTRL_EN e) = true → exec (.clrq e) s = .next ((s.rej (pioPage e)).okResponse 0)) ∧
     (s.on (F.PIO_CTRL_EN e) = true → fld cfg 14 2 ≠ join → fld cfg 14 2 ≠ 3 →
       exec (.shiftcfgWrite e cfg) s = .next ((s.rej (pioPage e)).okResponse 0)) ∧
     (s.on (F.PIO_CTRL_EN e) = false → fld cfg 14 2 ≠ join → fld cfg 14 2 ≠ 3 → ∃ t, exec (.shiftcfgWrite e cfg) s = .next t ∧
       (t.reg (R.PIO_SHIFTCFG e)).toNat = cfg.toNat % 2 ^ 16 ∧ t.en e = { x with txq := [], rxq := [] }) ∧
     (fld cfg 14 2 = join → join ≠ 3 → ∃ t, exec (.shiftcfgWrite e cfg) s = .next t ∧
       (t.reg (R.PIO_SHIFTCFG e)).toNat = cfg.toNat % 2 ^ 16 ∧ t.pio = s.pio)) ∧
  -- EngineFeeds
  (∀ (s : State) (e : Fin 32), s.unitOn (domPio e) = true →
     let size := s.get (F.PIO_TXFEED_LOG2SZ e)
     let addr := s.get (F.PIO_TXFEED_BASE e) * 8 + s.get (F.PIO_TXFEED_OFFSET e) % 2 ^ size
     let raddr := s.get (F.PIO_RXFEED_BASE e) * 8 + s.get (F.PIO_RXFEED_OFFSET e) % 2 ^ s.get (F.PIO_RXFEED_LOG2SZ e)
     ((s.on (F.PIO_TXFEED_EN e) = false ∨ s.txCap e ≤ (s.en e).txq.length) → exec (.txFeedAccess e) s = .next s) ∧
     (s.on (F.PIO_TXFEED_EN e) = true → (s.en e).txq.length < s.txCap e → s.portAGate (bankOf addr) 0x21 = .accepted →
       ∃ t, exec (.txFeedAccess e) s = .next t ∧
         (t.en e).txq = (s.en e).txq ++ [BitVec.ofNat 32 (fld (s.portARead (addr / 8) 0x21).1 (8 * (addr % 8)) 32)] ∧
         t.get (F.PIO_TXFEED_OFFSET e) = (s.get (F.PIO_TXFEED_OFFSET e) + 4) % 2 ^ size % 2 ^ 18 ∧ t.mem = s.mem) ∧
     (s.on (F.PIO_TXFEED_EN e) = true → (s.en e).txq.length < s.txCap e → s.portAGate (bankOf addr) 0x21 = .refused →
       ∃ t, exec (.txFeedAccess e) s = .next t ∧ (t.en e).txq = (s.en e).txq ++ [0] ∧
         t.get (F.PIO_TXFEED_OFFSET e) = (s.get (F.PIO_TXFEED_OFFSET e) + 4) % 2 ^ size % 2 ^ 18 ∧ t.mem = s.mem) ∧
     ((s.on (F.PIO_RXFEED_EN e) = false ∨ (s.en e).rxq = []) → exec (.rxFeedAccess e) s = .next s) ∧
     (∀ v rest, s.on (F.PIO_RXFEED_EN e) = true → (s.en e).rxq = v :: rest → s.portAGate (bankOf raddr) 0x21 = .accepted →
       ∃ t, exec (.rxFeedAccess e) s = .next t ∧ (t.en e).rxq = rest ∧
         (t.bk (bankOf raddr)).wsteps.length = (s.bk (bankOf raddr)).wsteps.length + 1 ∧
         t.get (F.PIO_RXFEED_OFFSET e) = (s.get (F.PIO_RXFEED_OFFSET e) + 4) % 2 ^ s.get (F.PIO_RXFEED_LOG2SZ e) % 2 ^ 18) ∧
     (∀ v rest, s.on (F.PIO_RXFEED_EN e) = true → (s.en e).rxq = v :: rest → s.portAGate (bankOf raddr) 0x21 = .refused →
       ∃ t, exec (.rxFeedAccess e) s = .next t ∧ (t.en e).rxq = rest ∧ t.mem = s.mem ∧ t.bnk = s.bnk)) ∧
  -- EngineControl
  (∀ (s : State) (e : Fin 32) (g : Fin 4) (j : Fin 8) (names : BitVec 8) (i : Fin 64) (value : BitVec 32), s.pageUp (domPio e) = true →
     let x := s.en e
     let idle := { x with stalled := none, delay := 0, seen := false }
     (s.on (F.PIO_CTRL_EN e) = false → ∃ t, exec (.engineEnable e) s = .next t ∧ t.get (F.PIO_CTRL_EN e) = 1 ∧ t.en e = { x with acc := 0 }) ∧
     (s.on (F.PIO_CTRL_EN e) = true → exec (.engineEnable e) s = .next (s.okResponse 0)) ∧
     (∃ t, exec (.engineDisable e) s = .next t ∧ t.get (F.PIO_CTRL_EN e) = 0 ∧ t.en e = idle ∧ ∀ r, r ≠ R.PIO_CTRL e → t.reg r = s.reg r) ∧
     (∃ t, exec (.reload e) s = .next t ∧ t.en e = idle ∧ t.regs = s.regs) ∧
     (∃ t, exec (.clrlat e) s = .next t ∧ t.get (F.PIO_EVLATCH_LATCHED e) = 0 ∧ t.get (F.PIO_EVLATCH_EN e) = s.get (F.PIO_EVLATCH_EN e) ∧
       t.pio = s.pio) ∧
     (∃ t, exec (.imemWrite e i value) s = .next t ∧ t.get (F.PIO_IMEM_IMEM e i) = value.toNat ∧
       (∀ r, r ≠ R.PIO_IMEM e i → t.reg r = s.reg r) ∧ t.pio = s.pio) ∧
     (g.val = e.val / 8 →
       let k := 8 * g.val + j.val
       ∃ t, exec (.groupStart g names) s = .next t ∧ ∃ u, exec (.groupStop g names) s = .next u ∧ ∃ v, exec (.divsync g names) s = .next v ∧
         (bit names j = true → t.get (F.PIO_CTRL_EN k) = 1 ∧ t.en k = { s.en k with acc := 0 } ∧ u.get (F.PIO_CTRL_EN k) = 0 ∧
           u.en k = { s.en k with stalled := none, delay := 0, seen := false } ∧ v.en k = { s.en k with acc := 0 } ∧ v.regs = s.regs) ∧
         (bit names j = false → t.en k = s.en k ∧ u.en k = s.en k ∧ v.en k = s.en k ∧ t.reg (R.PIO_CTRL k) = s.reg (R.PIO_CTRL k) ∧
           u.reg (R.PIO_CTRL k) = s.reg (R.PIO_CTRL k))))

/-- What a pad carries (R280, R282-R284): nothing with ANA set, the GPIO word's bit under its enable, an engine's latch under its direction, a
beam output, a converter trigger or an event-out level; a pad that nothing drives shows the level from outside, and ANA reads as 0.
PIN_EVENT (R286): a sample of the pad reaches the pin's filter. Without a filter F takes it; the glitch filter takes a level that FLEN
samples in a row have held; the debounce takes the first sample that differs and then ignores FLEN of them. A change that EDGE selects sets
EVSTAT and posts line 0x300 + n; one it does not select, or a sample with ANA set or a switch settling, posts nothing. While FCLK is stopped
a keeper wake pin alone is sampled, and posts nothing; its edge fires the wake entries that name it (R367). Function switches (R288, R292):
a change of FSEL, SUB or ANA sets SWPEND and leaves the pad undriven for two FCLK unless both functions drive it; settling clears SWPEND and
takes the pad's level without an event; a reserved field keeps its value and is counted. The private GPIO ports and the host's GPIO
registers (R287, R292, R348): a write operation changes the bits of the mask that name pins the core owns, the others are counted; a read
returns the pads of its word; the reserved code does nothing and is counted. The level of a driven pad is the driven value, and a pad's
input enters by PIN_EVENT (log entry 20). -/
def Obligations.Pins : Prop :=
  -- PadDrive
  (∀ (s : State) (n : Fin 128),
     (s.get (pinCfg n 13 1) ≠ 0 → s.pinDrive n = none ∧ s.padLevel n = false) ∧
     (s.get (pinCfg n 13 1) = 0 → (s.pinDrive n = none → s.padLevel n = (s.pn n).ext) ∧ ∀ v, s.pinDrive n = some v → s.padLevel n = v) ∧
     (s.get (pinCfg n 13 1) = 0 → (s.pn n).gap = none → (s.pn n).hold = none →
       (s.pinFsel n = 0 → s.pinDrive n = if (s.get (F.PIN_GPIOOE_GPIOOE (n / 32))).testBit (n % 32) then
         some ((s.get (F.PIN_GPIOOUT_GPIOOUT (n / 32))).testBit (n % 32)) else none) ∧
       (s.pinFsel n = 1 → s.pinDrive n = if (s.pn n).dir then some (s.pn n).val else none) ∧
       (s.pinFsel n = 2 → s.pinDrive n = some (match s.pinSub n with
         | 0 => s.hsync | 1 => s.vsync | 2 => s.activeTicks | 3 => s.activeLines | 4 => s.activeTicks && s.activeLines
         | 5 => s.beamRun && s.beam.tick == 0 | 6 => s.beamRun && s.beam.tick == 0 && s.beam.line == 0 | _ => false)) ∧
       (s.pinFsel n = 5 → s.pinDrive n = some (decide (tget (fun _ => 0) s.cvtrig (s.pinSub n) = s.fclk + 1))) ∧
       (s.pinFsel n = 4 → s.pinDrive n = none ∧ s.padLevel n = (s.pn n).ext) ∧
       (s.pinFsel n = 6 → s.pinDrive n = some (s.pn n).evOut ∧ s.padLevel n = (s.pn n).evOut)) ∧
     (∀ w d, s.get (pinCfg n 13 1) = 0 → (s.pn n).gap = some (w, d) → s.fclk ≤ w + 2 → s.pinDrive n = d)) ∧
  -- PinEvents
  (∀ (s : State) (n : Fin 128) (level : Bool), s.pinDrive n = none →
     let x := s.pn n
     let quiet := s.get (pinCfg n 13 1) ≠ 0 ∨ s.get (pinCfg n 63 1) ≠ 0
     let edge := (s.get (pinCfg n 24 2)).testBit (if level then 0 else 1)
     let mode := s.get (pinCfg n 14 2)
     let len := s.get (pinCfg n 16 8)
     let keeps := fun (count : Nat) => ∃ t, exec (.pinEvent n level) s = .next t ∧ t.pn n = { x with ext := level, count := count } ∧
       t.posted = s.posted ∧ t.regs = s.regs
     let takes := fun (count : Nat) => ∃ t, exec (.pinEvent n level) s = .next t ∧
       t.pn n = { x with ext := level, filt := level, count := count } ∧
       (edge = true → t.posted = (s.post (0x300 + n)).posted ∧ t.get ⟨R.PIN_EVSTAT (n / 32), n % 32, 1⟩ = 1) ∧
       (edge = false → t.posted = s.posted ∧ t.regs = s.regs)
     (quiet ∨ (s.pwr.running = false ∧ s.pinFsel n ≠ 4) → keeps x.count) ∧
     (¬ quiet → s.pwr.running = true → s.pinFsel n ≠ 4 →
       (mode = 0 ∨ len = 0 → (x.filt = level → keeps 0) ∧ (x.filt ≠ level → takes 0)) ∧
       (mode = 1 → len ≠ 0 → (x.filt = level → keeps 0) ∧ (x.filt ≠ level → x.count + 1 < len → keeps (x.count + 1)) ∧
         (x.filt ≠ level → len ≤ x.count + 1 → takes 0)) ∧
       (mode = 2 → len ≠ 0 → (x.count ≠ 0 → keeps (x.count - 1)) ∧ (x.count = 0 → x.filt = level → keeps 0) ∧
         (x.count = 0 → x.filt ≠ level → takes len))) ∧
     (¬ quiet → s.pwr.running = false → s.pinFsel n = 4 → mode = 0 → x.filt ≠ level →
       let names := fun i : Nat => fld (s.reg (R.PWR_WAKE i)) 0 3 = 4 ∧ fld (s.reg (R.PWR_WAKE i)) 36 7 = n
       (edge = false ∨ (∀ i, i < 64 → ¬ names i) → ∃ t, exec (.pinEvent n level) s = .next t ∧ (t.pn n).filt = level ∧ t.posted = s.posted ∧
         t.regs = s.regs) ∧
       ∀ i, i < 64 → edge = true → names i → (∀ j, j < 64 → j ≠ i → ¬ names j) →
         ∃ u : State, exec (.pinEvent n level) s = .next (u.wakeFire i) ∧ u = { s with pin := u.pin } ∧ (u.pn n).filt = level)) ∧
  -- PinSwitches
  (∀ (s : State) (n : Fin 128) (cfg : BitVec 64), s.pageUp 0 = true →
     let key := R.PIN_CFG (n / 32) (n % 32)
     let plain := fld cfg 0 3 < 7 ∧ subReserved (fld cfg 0 3) (fld cfg 4 5) = false ∧ fld cfg 11 2 ≠ 3 ∧ fld cfg 14 2 ≠ 3 ∧ fld cfg 28 12 < 0xC80
     (plain → ∃ t, exec (.pinFunctionSwitch n cfg) s = .next t ∧ t.pinFsel n = fld cfg 0 3 ∧ t.pinSub n = fld cfg 4 5 ∧
       fld (t.reg key) 9 7 = fld cfg 9 7 ∧ fld (t.reg key) 16 10 = fld cfg 16 10 ∧ fld (t.reg key) 28 12 = fld cfg 28 12 ∧
       (∀ r, r ≠ key → t.reg r = s.reg r) ∧ t.posted = s.posted ∧
       ((fld cfg 0 3 ≠ s.pinFsel n ∨ fld cfg 4 5 ≠ s.pinSub n ∨ fld cfg 13 1 ≠ s.get (pinCfg n 13 1)) → t.get (pinCfg n 63 1) = 1 ∧
         (s.pinDrive n = none → t.pinDrive n = none) ∧ (t.pinFn n = none → t.pinDrive n = none) ∧
         (∀ v w, s.pinDrive n = some v → t.pinFn n = some w → fld cfg 13 1 = 0 → t.pinDrive n = some v)) ∧
       (fld (s.reg key) 3 1 = 0 → fld cfg 0 3 = s.pinFsel n → fld cfg 4 5 = s.pinSub n → fld cfg 13 1 = s.get (pinCfg n 13 1) →
         t.pin = s.pin ∧ t.get (pinCfg n 63 1) = s.get (pinCfg n 63 1))) ∧
     (fld cfg 0 3 = 7 → ∃ t, exec (.pinFunctionSwitch n cfg) s = .next t ∧ t.pinFsel n = s.pinFsel n ∧
       t.get (rejcnt (pinPage n)) = Nat.min (s.get (rejcnt (pinPage n)) + 1) (2 ^ 32 - 1)) ∧
     (s.get (pinCfg n 63 1) = 1 → ∃ t, exec (.pinSwitchSettled n) s = .next t ∧ t.get (pinCfg n 63 1) = 0 ∧ (t.pn n).gap = none ∧
       (t.pn n).filt = t.padLevel n ∧ t.posted = s.posted) ∧
     (s.get (pinCfg n 63 1) = 0 → exec (.pinSwitchSettled n) s = .next s)) ∧
  -- GpioOperations
  (∀ (s : State) (k : Fin 8) (b : Fin 4) (mask : BitVec 32), s.pwr.running = true →
     let out := F.PIN_GPIOOUT_GPIOOUT b
     let oe := F.PIN_GPIOOE_GPIOOE b
     let owned := fun i : Fin 32 => bit mask i && (s.pinFsel (32 * b + i) == 0 && s.pinSub (32 * b + i) == k)
     let strays := ((List.finRange 32).filter (fun i : Fin 32 => bit mask i && !owned i)).length
     let does := fun (c : Instr) (field : RF) (f : Bool → Bool → Bool) => ∃ t, exec c s = .next t ∧
       (∀ i : Fin 32, (t.get field).testBit i = f ((s.get field).testBit i) (owned i)) ∧
       (∀ r, r ≠ field.key → r ≠ (errcnt (0x1D0 + b)).key → t.reg r = s.reg r) ∧
       t.get (errcnt (0x1D0 + b)) = Nat.min (s.get (errcnt (0x1D0 + b)) + strays) (2 ^ 32 - 1) ∧ t.pin = s.pin
     does (.gpioSet k b mask) out (fun x m => x || m) ∧ does (.gpioClr k b mask) out (fun x m => x && !m) ∧
     does (.gpioTog k b mask) out (fun x m => x != m) ∧ does (.gpioOeset k b mask) oe (fun x m => x || m) ∧
     does (.gpioOeclr k b mask) oe (fun x m => x && !m) ∧
     (∃ t, exec (.gpioRead k ⟨b, false⟩) s = .next t ∧ t.regs = s.regs ∧
       ∀ i : Fin 32, (tget (fun _ => 0) t.resp.gpio k).getLsbD i = s.padLevel (32 * b + i)) ∧
     exec (.gpioRead k ⟨b, true⟩) s = .next (s.err (0x1D0 + b)) ∧
     (s.domState 0 = 0 →
       (∃ t, exec (.gpiosetWrite b mask) s = .next t ∧ t.get out = s.get out ||| mask.toNat ∧ ∀ r, r ≠ out.key → t.reg r = s.reg r) ∧
       (∃ t, exec (.gpioclrWrite b mask) s = .next t ∧ (∀ i : Fin 32, (t.get out).testBit i = ((s.get out).testBit i && !bit mask i)) ∧
         ∀ r, r ≠ out.key → t.reg r = s.reg r) ∧
       (∃ t, exec (.gpiotogWrite b mask) s = .next t ∧ t.get out = s.get out ^^^ mask.toNat ∧ ∀ r, r ≠ out.key → t.reg r = s.reg r)) ∧
     ∀ n : Fin 128, ∃ t, exec (.eventOutFall n) s = .next t ∧ t.pn n = { s.pn n with evOut := false } ∧ t.regs = s.regs ∧
       ∀ m : Fin 128, m ≠ n → t.pn m = s.pn m)

/-- Raises (R350): a raise sets PEND; a raise of a pending source merges and is counted; nothing else changes. Offers (R351, R353): which cores
a source is eligible for; a pending source alone goes to the eligible core with the lowest RUNPRI, ties to the first at or after crot, and
stays at the core it is offered to; of two for one core the higher level goes first, at equal levels the first from srot; with none pending
every offer is withdrawn; an offer whose source became ineligible is withdrawn and counted; a controller that does not run keeps its offers.
Acknowledgement and end (R352, R356): IV_ACK clears PEND, adds the level to ACTIVE, counts and takes the offer down; IV_EOI removes the
highest level; either without cause is counted; CLRACT empties ACTIVE. An offer changes at INTERRUPT_OFFER, and a spine line raises its
source at its assertion (log entry 27). -/
def Obligations.Interrupts : Prop :=
  -- InterruptRaises
  (∀ (s : State) (source : BitVec 11), s.pageUp domInt = true →
     let pend := F.INTSRC_SRC_PEND source.toNat
     (s.get pend = 0 → ∃ t, exec (.raise source) s = .next t ∧ t.get pend = 1 ∧ (∀ r, r ≠ pend.key → t.reg r = s.reg r) ∧
       t = { s with regs := t.regs, resp := t.resp }) ∧
     (s.get pend = 1 → ∃ t, exec (.raise source) s = .next t ∧
       t.get F.INT_MERGECNT_MERGECNT = Nat.min (s.get F.INT_MERGECNT_MERGECNT + 1) (2 ^ 32 - 1) ∧
       ∀ r, r ≠ F.INT_MERGECNT_MERGECNT.key → t.reg r = s.reg r)) ∧
  -- InterruptOffers
  (∀ (s : State),
     let offer := fun i : Nat => some (⟨i, s.srcLevel i, BitVec.ofNat 32 (s.get (F.INTSRC_SRC_VEC i))⟩ : Offer)
     let only := fun (t : State) (k i : Nat) => t.offerOf k = offer i ∧ ∀ j : Fin 8, j.val ≠ k → t.offerOf j = none
     (∀ (i : Fin 2048) (k : Fin 8), s.eligible i k = true ↔ s.on F.INT_CTRL_EN = true ∧ s.on (F.INTK_CTRL_EN k) = true ∧
       (s.get (F.INTSRC_SRC_TARGET i)).testBit k = true ∧ s.get (F.INTK_CTRL_THRESH k) < s.get (F.INTSRC_SRC_LEVEL i) ∧
       ∀ l, l < 16 → (s.get (F.INTK_STATUS_ACTIVE k)).testBit l = true → l < s.get (F.INTSRC_SRC_LEVEL i)) ∧
     (s.unitOn domInt = false → exec .interruptOffer s = .next s) ∧
     (s.unitOn domInt = true → s.pendingSources = [] → ∃ t, exec .interruptOffer s = .next t ∧ ∀ k : Fin 8, t.offerOf k = none) ∧
     (∀ (i : Fin 2048) (k : Fin 8), s.unitOn domInt = true → s.pendingSources = [i.val] → s.eligible i k = true →
       (s.offeredTo i = none → s.int.crot < 8 →
         (∀ j : Fin 8, s.eligible i j = true → s.runPri k < s.runPri j ∨
           (s.runPri k = s.runPri j ∧ (k.val + 8 - s.int.crot) % 8 ≤ (j.val + 8 - s.int.crot) % 8)) →
         ∃ t, exec .interruptOffer s = .next t ∧ only t k i) ∧
       (s.offeredTo i = some k.val → ∃ t, exec .interruptOffer s = .next t ∧ only t k i)) ∧
     (∀ (i j : Fin 2048) (k : Fin 8), s.unitOn domInt = true → s.pendingSources = [i.val, j.val] → i < j →
       (∀ m : Fin 8, s.eligible i m = true ↔ m = k) → (∀ m : Fin 8, s.eligible j m = true ↔ m = k) →
       (s.srcLevel j < s.srcLevel i → ∃ t, exec .interruptOffer s = .next t ∧ only t k i) ∧
       (s.srcLevel i < s.srcLevel j → ∃ t, exec .interruptOffer s = .next t ∧ only t k j) ∧
       (s.srcLevel i = s.srcLevel j → s.offeredTo i = none → s.offeredTo j = none →
         let r := s.srot (s.srcLevel i)
         ∃ t, exec .interruptOffer s = .next t ∧ only t k (if i < r ∧ r ≤ j then j else i))) ∧
     ∀ (k : Fin 8) (o : Offer), s.unitOn domInt = true → s.offerOf k = some o →
       s.on (F.INTSRC_SRC_PEND o.src) = false ∨ s.eligible o.src k = false → ∃ t, exec .interruptOffer s = .next t ∧
         t.get (F.INTK_WDRCNT_WDRCNT k) = Nat.min (s.get (F.INTK_WDRCNT_WDRCNT k) + 1) (2 ^ 32 - 1)) ∧
  -- InterruptAcknowledgement
  (∀ (s : State) (k : Fin 8) (o : Offer), s.unitOn domInt = true →
     let active := F.INTK_STATUS_ACTIVE k
     let stray := fun (c : Instr) => ∃ t, exec c s = .next t ∧
       t.get (errcnt intPage) = Nat.min (s.get (errcnt intPage) + 1) (2 ^ 32 - 1) ∧ (∀ r, r ≠ (errcnt intPage).key → t.reg r = s.reg r) ∧
       t.int = s.int
     (s.offerOf k = none → stray (.ivAck k)) ∧
     (s.offerOf k = some o → o.src < 2048 → o.lvl < 16 → ∃ t, exec (.ivAck k) s = .next t ∧ t.get (F.INTSRC_SRC_PEND o.src) = 0 ∧
       t.get active = s.get active ||| 2 ^ o.lvl ∧ t.get (F.INTK_ACKCNT_ACKCNT k) = Nat.min (s.get (F.INTK_ACKCNT_ACKCNT k) + 1) (2 ^ 32 - 1) ∧
       t.offerOf k = none ∧ (∀ j : Fin 8, j ≠ k → t.offerOf j = s.offerOf j) ∧ t.srot o.lvl = (o.src + 1) % 2048 ∧
       t.int.crot = (k + 1) % 8) ∧
     (s.get active = 0 → stray (.ivEoi k)) ∧
     (∀ l : Fin 16, l ≠ 0 → (s.get active).testBit l = true → (∀ m : Fin 16, l < m → (s.get active).testBit m = false) →
       ∃ t, exec (.ivEoi k) s = .next t ∧ (t.get active).testBit l = false ∧
         (∀ m : Fin 16, m ≠ l → (t.get active).testBit m = (s.get active).testBit m) ∧ ∀ r, r ≠ active.key → t.reg r = s.reg r) ∧
     (∃ t, exec (.clract k) s = .next t ∧ t.get active = 0 ∧ ∀ r, r ≠ active.key → t.reg r = s.reg r))

/-- Bring-up and loss (R295): EN takes a port from DOWN to ALIGN, alignment to HELLO with a HELLO frame queued; a loss or RETRAIN takes it to
DOWN, and to ALIGN while EN is 1, dropping the frame being received. HELLO (R295, R309, R312, R324): its fields reach LINKINFO; KNOWN says
that the far end is the one of the epoch's walk; the HELLO that completes the exchange brings the link UP, or to STANDBY between two heads,
as one that finds two heads on a link already UP does; a STANDBY link becomes UP when its far end, an acting head before, has handed its
role back over it, and otherwise stays. -/
def Obligations.LinkBringUp : Prop :=
  -- LinkStates
  (∀ (s : State) (p : Fin 4), s.unitOn (domStitch p) = true →
     let lost := fun t : State => t.lstate p = s.get (F.STI_CTRL_EN p) ∧ t.get (F.STI_STATUS_DOWNSEEN p) = 1 ∧
       t.get (F.STI_STATUS_ALIGNED p) = 0 ∧ (t.sp p).rx = none ∧ t.mem = s.mem
     (s.on (F.STI_CTRL_EN p) = false → ∃ t, exec (.linkEnable p) s = .next t ∧ t.get (F.STI_CTRL_EN p) = 1 ∧ t.lstate p = 1 ∧
       (∀ r, r ≠ R.STI_CTRL p → r ≠ R.STI_STATUS p → t.reg r = s.reg r)) ∧
     (s.on (F.STI_CTRL_EN p) = true → exec (.linkEnable p) s = .next (s.okResponse 0)) ∧
     (s.lstate p = 1 → ∃ t, exec (.alignmentComplete p) s = .next t ∧ t.lstate p = 2 ∧ t.get (F.STI_STATUS_ALIGNED p) = 1 ∧
       (t.sp p).linkOut.length = (s.sp p).linkOut.length + 1 ∧ ∀ r, r ≠ R.STI_STATUS p → t.reg r = s.reg r) ∧
     (s.lstate p ≠ 1 → exec (.alignmentComplete p) s = .next s) ∧
     (s.lstate p ≠ 0 → (∃ t, exec (.linkLoss p) s = .next t ∧ lost t) ∧ ∃ t, exec (.retrain p) s = .next t ∧ lost t) ∧
     (s.lstate p = 0 → exec (.linkLoss p) s = .next s) ∧
     exec (.align p) s = .next s) ∧
  -- HelloExchange
  (∀ (s : State) (p : Fin 4) (w : BitVec 64), s.unitOn (domStitch p) = true → (s.lstate p = 2 ∨ s.lstate p = 3 ∨ s.lstate p = 4) →
     (s.sp p).rx = none → (s.sp p).buf = [] →
     let here := (fld w 0 16, fld w 19 2)
     let upOrStandby := if s.rhoOn = true ∧ s.role = 1 ∧ fld w 16 2 = 1 then 4 else 3
     let back := s.get (F.STI_LINKINFO_FROLE p) = 3 ∧ fld w 16 2 = 2 ∧ fld w 18 1 = 0 ∧ fld w 21 1 = 0
     ∃ t, exec (.hello p w) s = .next t ∧ t.get (F.STI_LINKINFO_FSIG p) = fld w 0 16 ∧ t.get (F.STI_LINKINFO_FROLE p) = fld w 16 2 ∧
       t.get (F.STI_LINKINFO_FHOLD p) = fld w 18 1 ∧ t.get (F.STI_LINKINFO_FPORT p) = fld w 19 2 ∧
       t.get (F.STI_LINKINFO_FREFOK p) = fld w 21 1 ∧ t.get (F.STI_LINKINFO_FEPOCH p) = fld w 32 16 ∧ (t.sp p).helloIn = true ∧
       (t.get (F.STI_LINKINFO_KNOWN p) = 1 ↔ s.epoch ≠ 0 ∧ fld w 32 16 = s.epoch ∧
         ((s.sp p).walked = some here ∨ ((s.sp p).walked = none ∧ (s.sp p).inWalk = true))) ∧
       (s.lstate p = 3 → t.lstate p = upOrStandby) ∧ (s.lstate p = 2 → (s.sp p).helloOut = false → t.lstate p = 2) ∧
       (s.lstate p = 2 → (s.sp p).helloOut = true → t.lstate p = upOrStandby) ∧
       (s.lstate p = 4 → (back → t.lstate p = 3) ∧ (¬ back → t.lstate p = 4)))

/-- Frames begin and end (R294, R297, R299, R305): START routes the new frame by its header; IDLE and STOMP end the frame before; STOMP drops it
and is counted; a wrong CRC, a wrong length, a HMODE of 3 or a reserved type drops it and is counted in the field of the first check that
fails; every port that had begun to send a dropped frame ends it. A control block with a wrong CRC-8 or an unknown type is counted and
ignored. Routing (R304): by HMODE, type, destination and route, on a link that is UP; a STANDBY link takes link-mode frames alone. -/
def Obligations.FramesReceived : Prop :=
  -- FrameChecks
  (∀ (s : State) (p : Fin 4) (f : Frame) (x : RxEntry) (b : BitVec 64), s.unitOn (domStitch p) = true → s.lstate p = 3 →
     let idle := ctlBlock 0x1E 0
     let counted := fun (t : State) (field : RF) => t.get field = Nat.min (s.get field + 1) (2 ^ 16 - 1) ∧ (t.sp p).rx = none ∧
       (t.sp p).buf = (s.sp p).buf ∧ t.get (F.STI_FRMCNT_RXFRM p) = s.get (F.STI_FRMCNT_RXFRM p) ∧ t.mem = s.mem ∧
       ∀ q, q ∈ x.live → (t.sp q).busy = false ∧ t.get (F.STI_STATUS_STOMPSEEN q) = 1
     (crc8 (bytesOf 7 (fld b 0 56)) ≠ fld b 56 8 ∨ fld b 0 8 ∉ [0x1E, 0x2D, 0x33, 0x4B, 0x4D, 0x55, 0x66, 0x78] →
       exec (.idleBlock ⟨p, b⟩) s = .next ((s.inc (F.STI_CTLERR_CTLERR p)).err (stiPage p))) ∧
     ((s.sp p).rx = none → (∃ t, exec (.startBlock p f) s = .next t ∧ (t.sp p).buf = (s.sp p).buf ∧ t.regs = s.regs ∧
         (t.sp p).rx = some ⟨f, s.rho.seq + 1, (s.routing p f).2.1, [], none, (s.routing p f).2.2, false, false⟩) ∧
       exec (.idleBlock ⟨p, idle⟩) s = .next s ∧ exec (.stomp p) s = .next s) ∧
     ((s.sp p).rx = some x → x.live.all (fun q => decide (q < 4)) = true →
       (∃ t, exec (.stomp p) s = .next t ∧ counted t (F.STI_DROPS_STOMPED p) ∧ t.get (F.STI_STATUS_STOMPSEEN p) = 1) ∧
       (x.frame.crc ≠ crc32 x.frame.covered → ∃ t, exec (.idleBlock ⟨p, idle⟩) s = .next t ∧ counted t (F.STI_RXERR_CRCERR p) ∧
         t.get (F.STI_STATUS_FERRSEEN p) = 1) ∧
       (x.frame.crcOk = true → (512 < x.frame.len ∨ x.frame.blocks ≠ (27 + x.frame.len) / 8) →
         ∃ t, exec (.idleBlock ⟨p, idle⟩) s = .next t ∧ counted t (F.STI_RXERR_LENERR p)) ∧
       (x.frame.crcOk = true → x.frame.len ≤ 512 → x.frame.blocks = (27 + x.frame.len) / 8 → x.frame.hmode = 3 ∨
           ((x.frame.type = 0 ∨ 13 ≤ x.frame.type) ∧ (x.frame.hmode ≠ 0 ∨ (x.frame.dest = s.sig ∧ s.sig ≠ 0xFFFF))) →
         ∃ t, exec (.idleBlock ⟨p, idle⟩) s = .next t ∧ counted t (F.STI_RXERR_TYPEERR p)) ∧
       (frameSound x.frame → x.misroute = true → x.live = [] → ∃ t, exec (.idleBlock ⟨p, idle⟩) s = .next t ∧
         t.get (F.STI_RXERR_MISROUTE p) = Nat.min (s.get (F.STI_RXERR_MISROUTE p) + 1) (2 ^ 16 - 1) ∧ (t.sp p).rx = none ∧
         (t.sp p).buf = (s.sp p).buf ∧ t.mem = s.mem))) ∧
  -- FrameRouting
  (∀ (s : State) (p : Fin 4) (f : Frame),
     let r := s.routing p f
     let away := f.dest ≠ s.sig ∨ s.sig = 0xFFFF
     (f.hmode = 2 → r = (true, [], false)) ∧
     (s.lstate p = 4 → f.hmode = 0 ∨ (f.hmode = 1 ∧ typeReserved f.type = false) → r = (false, [], true)) ∧
     (s.lstate p = 3 →
       (f.hmode = 0 → f.type ≠ 0xB → ¬ away → r = (true, [], false)) ∧
       (∀ q, f.hmode = 0 → f.type ≠ 0xB → away → s.route f.dest = some q → q ≠ p → r = (false, [q], false)) ∧
       (∀ q, f.hmode = 0 → f.type ≠ 0xB → away → s.route f.dest = none → s.upPort = some q → q ≠ p → r = (false, [q], false)) ∧
       (f.hmode = 0 → f.type ≠ 0xB → away → s.route f.dest = some p.val → r = (false, [], true)) ∧
       (f.hmode = 0 → f.type ≠ 0xB → away → s.route f.dest = none → s.upPort = none → r = (false, [], true)) ∧
       (f.hmode = 0 → f.type = 0xB → s.upPort = none → r = (true, [], false)) ∧
       (∀ q, f.hmode = 0 → f.type = 0xB → s.upPort = some q → q ≠ p → r = (false, [q], false)) ∧
       (f.hmode = 1 → typeReserved f.type = false → s.upPort = some p.val → r.1 = true ∧ r.2.2 = false ∧
         ∀ q, q ∈ r.2.1 ↔ q < 4 ∧ s.lstate q = 3 ∧ s.upPort ≠ some q)))

/-- Local delivery (R306, R318): a WRITE's bytes go to the bank as owner code 0x23, and to a bank of another owner as a violation; a QPUSH or
LINEAHEAD element is pushed; an event of 0x400 to 0x7FF is posted and no other; a LINEAHEAD out of its line range is dropped and counted
late; the row of another type changes nothing. DELIVERY_PUSH_RETRY (R306): a waiting element is pushed, and its frame leaves the buffer and
frees its credits. The typed rows deliver a whole frame that has passed the line code, and a row given a frame of another type changes
nothing: the model's operands (log entries 3 and 12). -/
def Obligations.FrameDelivery : Prop :=
  -- FrameDeliveries
  (∀ (s : State) (p : Fin 4) (f : Frame), s.portIdle p →
     let arrived := fun t : State => t.get (F.STI_FRMCNT_RXFRM p) = Nat.min (s.get (F.STI_FRMCNT_RXFRM p) + 1) (2 ^ 32 - 1) ∧
       (t.sp p).rx = none ∧ (t.sp p).buf = []
     let a := fld f.word1 0 25
     let q := fld f.word1 0 14
     let ev := fld f.word1 0 12
     let d := s.lineDistance (fld f.word1 16 14) (fld f.word1 32 32)
     let errs := fun t : State => t.get (F.STI_DROPS_DELIVERR p) = Nat.min (s.get (F.STI_DROPS_DELIVERR p) + 1) (2 ^ 16 - 1)
     (f.type ≠ 1 → exec (.write p f) s = .next s) ∧ (f.type ≠ 2 → exec (.qpush p f) s = .next s) ∧
     (f.type ≠ 3 → exec (.event p f) s = .next s) ∧ (f.type ≠ 4 → exec (.lineahead p f) s = .next s) ∧
     (f.type ≠ 5 → exec (.pressFrame p f) s = .next s) ∧
     (f.type = 1 → s.forHere p f → f.len = 8 → f.payload.length = 8 → a % 8 = 0 →
       (s.portAGate (bankOf a) 0x23 = .accepted → ∃ t, exec (.write p f) s = .next t ∧ arrived t ∧
         (t.bk (bankOf a)).wsteps = (s.bk (bankOf a)).wsteps ++ [⟨a / 8, BitVec.ofNat 64 (ofBytes f.payload), 255, none, 0x23, false, none, none⟩] ∧
         t.mem = s.mem ∧ t.get (F.STI_DROPS_DELIVERR p) = s.get (F.STI_DROPS_DELIVERR p)) ∧
       (s.portAGate (bankOf a) 0x23 = .refused → ∃ t, exec (.write p f) s = .next t ∧ arrived t ∧ t.bnk = s.bnk ∧ t.mem = s.mem ∧ errs t ∧
         t.get (F.BNK_STATUS_VIOLSEEN (bankOf a)) = 1)) ∧
     (f.type = 2 → s.forHere p f → f.len = 8 → s.queueTakes (59 + p) q → ∃ t, exec (.qpush p f) s = .next t ∧ arrived t ∧
       t.get (F.QD_PTR_TAIL q) = (s.get (F.QD_PTR_TAIL q) + 1) % 2 ^ 18) ∧
     (f.type = 4 → s.forHere p f → f.len = 8 → Int.ofNat (s.get F.RHO_CTRL_LAMIN) ≤ d → d ≤ 1024 → s.queueTakes (59 + p) q →
       ∃ t, exec (.lineahead p f) s = .next t ∧ arrived t ∧ t.get (F.QD_PTR_TAIL q) = (s.get (F.QD_PTR_TAIL q) + 1) % 2 ^ 18) ∧
     (f.type = 4 → s.forHere p f → (d < Int.ofNat (s.get F.RHO_CTRL_LAMIN) ∨ 1024 < d) → ∃ t, exec (.lineahead p f) s = .next t ∧ arrived t ∧
       t.rho.lateDrop = s.rho.lateDrop + 1 ∧ t.get F.RHO_STATUS_LATE = 1 ∧ t.mem = s.mem ∧ t.qsl = s.qsl) ∧
     (f.type = 3 → s.forHere p f → 0x400 ≤ ev → ev ≤ 0x7FF → ∃ t, exec (.event p f) s = .next t ∧ arrived t ∧ t.posted = (s.post ev).posted) ∧
     (f.type = 3 → s.forHere p f → (ev < 0x400 ∨ 0x7FF < ev) → ∃ t, exec (.event p f) s = .next t ∧ arrived t ∧ t.posted = s.posted ∧ errs t)) ∧
  -- DeliveryRetry
  (∀ (s : State) (p : Fin 4) (f : Frame) (seq : Nat), s.unitOn (domStitch p) = true → f.type = 2 → f.len = 8 → f.hmode = 0 →
     (s.sp p).buf = [⟨f, seq, [], [], some 0, false, true, false⟩] → s.queueTakes (59 + p) (fld f.word1 0 14) →
     ∃ t, exec (.deliveryPushRetry p) s = .next t ∧ (t.sp p).buf = [] ∧
       t.get (F.QD_PTR_TAIL (fld f.word1 0 14)) = (s.get (F.QD_PTR_TAIL (fld f.word1 0 14)) + 1) % 2 ^ 18 ∧
       tget (fun _ => 0) (t.sp p).freed f.vc = (tget (fun _ => 0) (s.sp p).freed f.vc + 1) % 4096)

/-- Echo and credit blocks (R296, R300): an ECHOREQ makes an answer with its T1 and the time of its arrival due; an ECHORSP with a right CRC-8
gives the round trip to its own arrival to the mean of the last 64 and clears the count of unanswered ones, and one with a wrong CRC-8 is
counted and ignored; each interval makes an ECHOREQ due, and after 8 without an answer the link is lost; CREDIT returns what FREED has
advanced by. Sending (R297, R300-R305): a link-mode frame goes first; then a channel's frame with its credits, a forwarded one before the
port's own; a frame that starves is dropped and counted. What leaves at a block boundary (R293, R294, R296, R300, R313): the answer that is
due with its turnaround, the marker of the present moment, the request with the stitch time, the credit of the two lowest channels whose
FREED advanced, and IDLE with nothing to send; the blocks take the lanes in turn, with the header of a control block. The scrambler adds the
bits sent 39 and 58 before. -/
def Obligations.LinkControlAndSending : Prop :=
  -- ControlBlocks
  (∀ (s : State) (p : Fin 4) (t1 : BitVec 32) (turn : BitVec 16) (crc : BitVec 8) (a b : Fin 16) (fa fb : BitVec 12), s.unitOn (domStitch p) = true →
     2 ≤ s.lstate p →
     let check := crc8 (bytesOf 7 (0x4D + t1.toNat * 2 ^ 8 + turn.toNat * 2 ^ 40))
     let rtt := (s.stitchTime + 2 ^ 33 - t1.toNat - turn.toNat) % 2 ^ 32
     let due := fun (v : Fin 16) (freed : BitVec 12) =>
       Nat.min 4095 (s.get (F.STI_CRED_TXCRED p v) + (freed.toNat + 4096 - tget (fun _ => 0) (s.sp p).seen v) % 4096)
     (∃ t, exec (.echoreq p t1) s = .next t ∧ (t.sp p).tx.dueRsp = some (t1, s.stitchTime) ∧ t.regs = s.regs) ∧
     (check ≠ crc.toNat → exec (.echorsp p t1 turn crc) s = .next ((s.inc (F.STI_CTLERR_CTLERR p)).err (stiPage p))) ∧
     (check = crc.toNat → ∃ t, exec (.echorsp p t1 turn crc) s = .next t ∧ (t.sp p).echoes = (rtt :: (s.sp p).echoes).take 64 ∧ (t.sp p).unanswered = 0 ∧
       t.get (F.STI_HOPDLY_ECHOES p) = (s.get (F.STI_HOPDLY_ECHOES p) + 1) % 2 ^ 16 ∧
       ((s.sp p).echoes = [] → rtt % 2 = 0 → s.get (F.STI_ASYM_ASYM p) = 0 → t.get (F.STI_HOPDLY_DLY p) = rtt / 2) ∧
       ∀ r, r ≠ R.STI_HOPDLY p → t.reg r = s.reg r) ∧
     ((s.sp p).unanswered ≠ 8 → (s.sp p).intervals ≠ 255 → ∃ t, exec (.echoInterval p) s = .next t ∧
       (t.sp p).tx.dueReq = true ∧ (t.sp p).unanswered = (s.sp p).unanswered + 1 ∧ t.regs = s.regs) ∧
     ((s.sp p).unanswered = 8 → exec (.echoInterval p) s = exec (.linkLoss p) s) ∧
     (a ≠ b → ∃ t, exec (.credit p a fa b fb) s = .next t ∧ t.get (F.STI_CRED_TXCRED p a) = due a fa ∧ t.get (F.STI_CRED_TXCRED p b) = due b fb ∧
       ∀ v : Fin 16, v ≠ a → v ≠ b → t.get (F.STI_CRED_TXCRED p v) = s.get (F.STI_CRED_TXCRED p v))) ∧
  -- FrameSending
  (∀ (s : State) (p : Fin 4) (f : Frame) (rest : List Frame), s.unitOn (domStitch p) = true → s.lstate p = 3 →
     let empty := ∀ q, q < 4 → (s.sp q).buf = [] ∧ (s.sp q).rx = none
     let idle := (s.sp p).skip = [] ∧ ∀ v, v < 16 → s.qCount (vcQueue p v) = 0
     ((s.sp p).busy = false → (s.sp p).linkOut = f :: rest → ∃ t, exec (.frameSelect p) s = .next t ∧ (t.sp p).tx.sentFrame = some f ∧
       (t.sp p).linkOut = rest ∧ t.get (F.STI_FRMCNT_TXFRM p) = Nat.min (s.get (F.STI_FRMCNT_TXFRM p) + 1) (2 ^ 32 - 1) ∧
       ∀ v : Fin 16, t.get (F.STI_CRED_TXCRED p v) = s.get (F.STI_CRED_TXCRED p v)) ∧
     ((s.sp p).busy = false → (s.sp p).linkOut = [] → (s.sp p).own = f :: rest → empty → idle → f.cost ≤ s.get (F.STI_CRED_TXCRED p 0) →
       ∃ t, exec (.frameSelect p) s = .next t ∧ (t.sp p).tx.sentFrame = some f ∧ (t.sp p).own = rest ∧
         t.get (F.STI_CRED_TXCRED p 0) = s.get (F.STI_CRED_TXCRED p 0) - f.cost) ∧
     (∀ (q : Fin 4) (x : RxEntry), q ≠ p → (s.sp p).busy = false → (s.sp p).linkOut = [] → idle → (s.sp q).buf = [x] → (s.sp q).rx = none →
       (∀ r, r < 4 → r ≠ q.val → (s.sp r).buf = [] ∧ (s.sp r).rx = none) → x.outs = [p.val] → x.live = [] → x.todo = none → x.ended = true →
       x.frame.hmode ≠ 2 → (s.sp p).own = [] ∨ x.frame.vc = 0 → x.frame.cost ≤ s.get (F.STI_CRED_TXCRED p x.frame.vc) →
       ∃ t, exec (.frameSelect p) s = .next t ∧ (t.sp p).tx.sentFrame = some x.frame ∧ (t.sp p).own = (s.sp p).own ∧ (t.sp q).buf = [] ∧
         t.get (F.STI_CRED_TXCRED p x.frame.vc) = s.get (F.STI_CRED_TXCRED p x.frame.vc) - x.frame.cost ∧
         tget (fun _ => 0) (t.sp q).freed x.frame.vc = (tget (fun _ => 0) (s.sp q).freed x.frame.vc + x.frame.cost) % 4096) ∧
     ((s.sp p).own = f :: rest → empty → idle → s.on (F.STI_CFG_STARVTO p) = true → s.get (F.STI_CRED_TXCRED p 0) < f.cost →
       ∃ t, exec (.creditStarvation p 0 false) s = .next t ∧ (t.sp p).own = rest ∧ t.get (F.STI_STATUS_STARVSEEN p) = 1 ∧
         t.get (F.STI_DROPS_STARVDROP p) = Nat.min (s.get (F.STI_DROPS_STARVDROP p) + 1) (2 ^ 16 - 1)) ∧
     (∀ v forwarded, s.on (F.STI_CFG_STARVTO p) = false → exec (.creditStarvation p v forwarded) s = .next s)) ∧
  -- LinkBlocksSent
  ((∀ (reg : BitVec 58) (w : Word), let out := (scramble reg w).1
     ∀ i, i < 64 → bit out i = ((bit w i != (if 39 ≤ i then bit out (i - 39) else bit reg (38 - i))) !=
       (if 58 ≤ i then bit out (i - 58) else bit reg (57 - i)))) ∧
   ∀ (s : State) (p : Fin 4), s.unitOn (domStitch p) = true → 2 ≤ s.lstate p →
     let x := s.sp p
     let at_ := fun (m : Table Nat) (v : Nat) => tget (fun _ => 0) m v
     let still := ∀ v, v < 16 → at_ x.freed v = at_ x.tx.returned v
     (x.busy = true → ∃ t, exec (.frameSelect p) s = .next t ∧ t = { s with sti := t.sti } ∧
       (t.sp p).linkOut = x.linkOut ∧ (t.sp p).own = x.own ∧ (t.sp p).tx.sentFrame = x.tx.sentFrame ∧ (t.sp p).busy = true ∧
       (t.sp p).tx.dueRsp = none ∧ (t.sp p).tx.dueReq = false ∧ (t.sp p).tx.dueBeam = false ∧
       (∀ t1 arrived, x.tx.dueRsp = some (t1, arrived) →
         (t.sp p).tx.sentRsp = some (t1, BitVec.ofNat 16 (s.stitchTime + 2 ^ 32 - arrived))) ∧
       (x.tx.dueBeam = true → (t.sp p).tx.sentBeam = some s.beamContents) ∧
       (x.tx.dueReq = true → (t.sp p).tx.sentReq = some (BitVec.ofNat 32 s.stitchTime)) ∧
       (∀ a b : Fin 16, a ≤ b → (∀ v : Fin 16, at_ x.freed v ≠ at_ x.tx.returned v ↔ v = a ∨ v = b) →
         (t.sp p).tx.sentCredit = some (BitVec.ofNat 48 (a + at_ x.freed a % 4096 * 2 ^ 4 + b * 2 ^ 16 + at_ x.freed b % 4096 * 2 ^ 20)) ∧
         at_ (t.sp p).tx.returned a = at_ x.freed a ∧ at_ (t.sp p).tx.returned b = at_ x.freed b) ∧
       (∀ i (l : LineBlock), (t.sp p).tx.line[i]? = some l → l.lane = ((x.tx.slot + i) % 2 == 1) ∧ l.header = 2)) ∧
     (x.busy = false → x.linkOut = [] → s.lstate p = 2 → x.tx.dueRsp = none → x.tx.dueReq = false → x.tx.dueBeam = false → still →
       x.tx.slot < x.tx.alignAt → ∃ t, exec (.frameSelect p) s = .next t ∧ t = { s with sti := t.sti } ∧ (t.sp p).tx.slot = x.tx.slot + 1 ∧
         (t.sp p).tx.line = [⟨x.tx.slot % 2 == 1, 2, (scramble x.tx.reg (ctlBlock 0x1E 0)).1⟩] ∧
         (t.sp p).tx.reg = (scramble x.tx.reg (ctlBlock 0x1E 0)).2))

/-- Enumeration (R308, R310): a new ENUM gives the device its number, its epoch, its upstream and the role of a member; a head, or a device that
has the epoch, rejects it and puts the link into STANDBY; the walk's last answer ends it on the head, which keeps the count. Rhoba's host
commands (R308, R310, R320, R322): ENUM asks the head for a walk and is rejected elsewhere; RHOEN makes a head, joins below the lowest UP
port whose far end sends markers, or returns the device to ALONE without a signature; WPRESS arms the head's wall press and broadcasts it,
and is rejected on a device that is no head. Log entry 25 gives the readings of Rhoba. -/
def Obligations.Wall : Prop :=
  -- WallEnumeration
  (∀ (s : State) (p : Fin 4) (next epoch : BitVec 16) (w : Walk), s.portIdle p → s.rhoOn = true →
     let last := s.rho.walk = some w ∧ w.root = true ∧ w.port = p ∧ ∀ q, p.val < q → q < 4 → s.lstate q ≠ 3
     (s.role ≠ 1 → s.epoch ≠ epoch.toNat → ∃ t, exec (.enum p next epoch) s = .next t ∧ t.sig = next.toNat ∧ t.epoch = epoch.toNat ∧
       t.role = 2 ∧ t.upPort = some p.val) ∧
     ((s.role = 1 ∨ s.epoch = epoch.toNat) → ∃ t, exec (.enum p next epoch) s = .next t ∧ t.lstate p = 4 ∧ t.sig = s.sig ∧
       t.epoch = s.epoch ∧ t.role = s.role ∧ (s.linkFrame 0xA 0 0 []) ∈ (t.sp p).linkOut) ∧
     (last → ∃ t, exec (.enumdone p next) s = .next t ∧ t.get F.RHO_SIG_WALLN = next.toNat ∧ t.get F.RHO_STATUS_ENUMBUSY = 0 ∧
       t.rho.walk = none) ∧
     (last → w.next < 2 ^ 16 → ∃ t, exec (.enumrej p) s = .next t ∧ t.get F.RHO_SIG_WALLN = w.next ∧ t.get F.RHO_STATUS_ENUMBUSY = 0 ∧
       t.rho.walk = none ∧ t.lstate p = 4) ∧
     (∀ (src : BitVec 16) (req : Bool), s.role = 1 → s.upPort = none → ∃ t, exec (.routeann p src req) s = .next t ∧
       t.route src.toNat = some p.val ∧ (req = true → t.rho.walkReq = true) ∧ (req = false → t.rho.walkReq = s.rho.walkReq))) ∧
  -- WallCommands
  (∀ (s : State) (value : BitVec 64), s.unitOn domTimer = true →
     let frame := (s.beam.frame + fld value 32 16) % 2 ^ 32
     (s.role = 1 → s.on F.RHO_STATUS_ENUMBUSY = false → ∃ t, exec .enumCommand s = .next t ∧ t.rho.walkReq = true ∧ t.regs = s.regs) ∧
     (s.role ≠ 1 → exec .enumCommand s = .next ((s.rej rhoPage).okResponse 0)) ∧
     (s.on F.RHO_CTRL_RHOEN = false → s.on F.RHO_CTRL_HEADEN = true → ∃ t, exec (.rhoEnableChange true) s = .next t ∧
       t.get F.RHO_CTRL_RHOEN = 1 ∧ t.role = 1 ∧ t.upPort = none) ∧
     (s.on F.RHO_CTRL_RHOEN = true → ∃ t, exec (.rhoEnableChange false) s = .next t ∧ t.get F.RHO_CTRL_RHOEN = 0 ∧ t.role = 0 ∧
       t.get F.RHO_STATUS_HOLD = 0 ∧ t.sig = 0xFFFF ∧ t.upPort = none ∧ ∀ sig, t.route sig = none) ∧
     (∀ b : Bool, s.on F.RHO_CTRL_RHOEN = b → exec (.rhoEnableChange b) s = .next (s.okResponse 0)) ∧
     (∀ p : Fin 4, s.on F.RHO_CTRL_RHOEN = false → s.on F.RHO_CTRL_HEADEN = false → s.role = 0 → s.lstate p = 3 →
       s.on (F.STI_LINKINFO_FREFOK p) = true → (∀ q : Fin 4, q < p → ¬ (s.lstate q = 3 ∧ s.on (F.STI_LINKINFO_FREFOK q) = true)) →
       ∃ t, exec (.rhoEnableChange true) s = .next t ∧ t.role = 2 ∧ t.upPort = some p.val) ∧
     (s.role ≠ 1 → s.role ≠ 3 → exec (.wpress value) s = .next (((s.holdLow R.RHO_WPRESS none).rej rhoPage).okResponse 0)) ∧
     ((s.role = 1 ∨ s.role = 3) → s.on F.RHO_STATUS_WPARMED = false → s.targetPassed (fld value 0 14) (fld value 16 14) frame = false →
       ∃ t, exec (.wpress value) s = .next t ∧ t.get F.RHO_STATUS_WPARMED = 1 ∧ t.get F.RHO_WPTGT_TGTTICK = fld value 0 14 ∧
         t.get F.RHO_WPTGT_TGTLINE = fld value 16 14 ∧ t.get F.RHO_WPTGT_TGTFRAME = frame ∧
         ∀ q : Fin 4, s.lstate q = 3 → s.upPort ≠ some q.val →
           mkFrame 5 0 1 0 s.sig (BitVec.ofNat 64 (fld value 0 14 + fld value 16 14 * 2 ^ 16 + frame * 2 ^ 32)) [] ∈ (t.sp q).own))

/-- Markers, WALLSYNC, PRESS and holdover (R310, R314-R316, R320, R321, R323): a marker of the upstream sets PHASE, and the sixteenth near one
LOCKED; geometry that does not match, on any port, sets GEOMERR; WALLSYNC corrects a locked device's frame count; PRESS arms, or presses at
once; the loss of the markers makes an acting head of a member, which keeps the integrator's trim. REJOIN (R323, R324): an acting head that
is neither slewing nor at the end of a path once reversed gives the role to the device that asks and takes that port as its upstream;
otherwise it refuses. The device that asked becomes the acting head at the go. Once the phase error of the rejoin link's marker is within
LOCKTH, the acting head is a MEMBER below that link, without HOLD, and the link is UP. Log entry 25 gives the readings of Rhoba. -/
def Obligations.WallLockAndRoles : Prop :=
  -- WallLock
  (∀ (s : State) (p : Fin 4) (tick line : BitVec 14) (phase : BitVec 13) (frame : BitVec 6) (hold : Bool) (w0 w1 : BitVec 64) (f : Frame),
     s.portIdle p → s.rhoOn = true → s.upPort = some p.val → s.role = 2 →
     let e := s.markerErr p tick.toNat line.toNat phase.toNat
     let inside := line.toNat < s.vTotal ∧ tick.toNat < s.hTotal
     let late := s.targetPassed (fld f.word1 0 14) (fld f.word1 16 14) (fld f.word1 32 32)
     let geom := fld w1 0 14 = s.get F.BEAM_GEOM_HTOT ∧ fld w1 16 14 = s.get F.BEAM_GEOM_VTOT
     (inside → ∃ t, exec (.beamMarker p tick line phase frame hold) s = .next t ∧ t.get F.RHO_PHASE_PHASE = (BitVec.ofInt 32 e).toNat ∧
       t.get F.RHO_STATUS_HOLD = b2n hold ∧
       (s.rho.near = 15 → e.natAbs ≤ s.get F.RHO_LOOP_LOCKTH → t.get F.RHO_STATUS_LOCKED = 1)) ∧
     (¬ inside → ∃ t, exec (.beamMarker p tick line phase frame hold) s = .next t ∧ t.get F.RHO_STATUS_GEOMERR = 1 ∧
       t.get F.RHO_PHASE_PHASE = s.get F.RHO_PHASE_PHASE ∧ t.rho = s.rho) ∧
     (∀ q : Fin 4, s.unitOn (domStitch q) = true → s.lstate q = 3 → ¬ inside → ∃ t, exec (.beamMarker q tick line phase frame hold) s = .next t ∧
       t.get F.RHO_STATUS_GEOMERR = 1 ∧ t.rho = s.rho) ∧
     (geom → s.rho.coarseFrame = true → ∃ t, exec (.wallsync p w0 w1) s = .next t ∧ t.beam.frame = w0.toNat ∧ t.rho.coarseFrame = false) ∧
     (geom → s.rho.coarseFrame = false → s.on F.RHO_STATUS_LOCKED = true → s.beam.frame ≠ w0.toNat →
       ∃ t, exec (.wallsync p w0 w1) s = .next t ∧ t.rho.frameFix = some w0.toNat ∧ t.beam = s.beam) ∧
     (¬ geom → ∃ t, exec (.wallsync p w0 w1) s = .next t ∧ t.get F.RHO_STATUS_GEOMERR = 1 ∧ t.beam = s.beam) ∧
     (f.type = 5 → frameSound f → f.hmode = 1 → ∃ t, exec (.pressFrame p f) s = .next t ∧
       t.get F.RHO_WPTGT_TGTTICK = fld f.word1 0 14 ∧ t.get F.RHO_WPTGT_TGTLINE = fld f.word1 16 14 ∧
       t.get F.RHO_WPTGT_TGTFRAME = fld f.word1 32 32 ∧ (late = false → t.get F.RHO_STATUS_WPARMED = 1 ∧ t.prs = s.prs) ∧
       (late = true → t.get F.RHO_STATUS_WPARMED = 0 ∧ t.get F.RHO_STATUS_LATE = 1)) ∧
     (∃ t, exec .markerTimeout s = .next t ∧ t.role = 3 ∧ t.get F.RHO_STATUS_HOLD = 1 ∧ t.get F.RHO_STATUS_LOCKED = 0 ∧ t.upPort = none ∧
       t.get F.RHO_HOLDCNT_HOLDCNT = 0 ∧
       (s.on F.BEAM_CTRL_REF = true → -(2 ^ 23) ≤ s.rho.integ → s.rho.integ < 2 ^ 23 →
         t.get F.BEAM_DIVTRIM_TRIM = (BitVec.ofInt 24 s.rho.integ).toNat))) ∧
  -- RoleHandover
  (∀ (s : State) (p : Fin 4), s.rhoOn = true →
     (s.portIdle p → s.role = 3 → s.on F.RHO_STATUS_SLEWING = false → s.rho.reversed = false → ∃ t, exec (.rejoin p 0) s = .next t ∧
       t.role = 2 ∧ t.upPort = some p.val ∧ t.rho.reversed = true ∧ (s.linkFrame 0xC 0 1 []) ∈ (t.sp p).linkOut) ∧
     (s.portIdle p → s.role = 3 → s.on F.RHO_STATUS_SLEWING = true ∨ s.rho.reversed = true → ∃ t, exec (.rejoin p 0) s = .next t ∧
       t.role = 3 ∧ (s.linkFrame 0xC 0 2 []) ∈ (t.sp p).linkOut) ∧
     (s.portIdle p → s.upPort = some p.val → s.rho.recorded = none → s.rho.requested = true → ∃ t, exec (.rejoin p 1) s = .next t ∧
       t.role = 3 ∧ t.upPort = none ∧ t.rho.reversed = true ∧ t.rho.requested = false) ∧
     ∀ (tick line : BitVec 14) (phase : BitVec 13) (frame : BitVec 6) (hold : Bool), s.unitOn (domStitch p) = true →
       s.lstate p = 3 ∨ s.lstate p = 4 → s.role = 3 → s.upPort ≠ some p.val → s.on F.RHO_STATUS_SLEWING = true → s.rho.slewPort = some p.val →
       line.toNat < s.vTotal → tick.toNat < s.hTotal →
       (s.markerErr p tick.toNat line.toNat phase.toNat).natAbs ≤ s.get F.RHO_LOOP_LOCKTH →
       ∃ t, exec (.beamMarker p tick line phase frame hold) s = .next t ∧ t.role = 2 ∧ t.upPort = some p.val ∧ t.lstate p = 3 ∧
         t.get F.RHO_STATUS_HOLD = 0 ∧ t.get F.RHO_STATUS_SLEWING = 0 ∧ t.rho.slewPort = none)

/-- Error responses (R330, R332): an access that is not answered in time is counted and noted, and returns an error with zero data; a page in
RET or OFF, and byte enables other than all or none, give the same response to a write and to a read; an access while FCLK stands still
begins its restart. A window access that its bank has not performed is cancelled and fails in its turn; with none waiting nothing happens.
Fields under a write (R410, R411): RW takes the value unless it is reserved, W1C clears and W1S sets the bits written as 1, RO and WO keep
their value. The window's accesses (R7, R329, R408, R413): a register's low half is written, the low half of a paired one is held and
commits with its high half; a register without effects of a read returns the half read; an unlisted page answers any access, is counted and
is noted. An unlisted page is answered before its byte enables are judged (R408). -/
def Obligations.HostWindow : Prop :=
  -- HostErrorResponses
  (∀ (s : State) (addr : BitVec 22) (waddr : BitVec 23) (isWrite : Bool) (be : BitVec 4) (data : BitVec 32) (b : BwAccess),
     let key := addr.toNat / 2 * 8
     let counted := fun t : State => s.unitKept domBnd = true →
       t.get F.BND_ACCERR_ACCERR = Nat.min (s.get F.BND_ACCERR_ACCERR + 1) (2 ^ (F.BND_ACCERR_ACCERR).width - 1) ∧
       t.get F.BND_STATUS_ACCERRSEEN = 1
     let failed := fun c : Instr => ∃ t, exec c s = .next t ∧ t.resp.rgErr = true ∧ t.resp.rgData = 0 ∧ t.mem = s.mem ∧ counted t
     let waits : BwAccess := ⟨waddr.toNat, isWrite, be.toNat, data, none⟩
     failed (.accessTimeout addr isWrite) ∧
     (s.bw = [] → exec (.bankWindowTimeout waddr isWrite) s = .next s) ∧
     (s.bw = [waits] → ∃ t, exec (.bankWindowTimeout waddr isWrite) s = .next t ∧ t.resp.bwErr = true ∧ t.resp.bwData = 0 ∧ t.bw = [] ∧
       t.mem = s.mem ∧ t.chk = s.chk ∧ counted t) ∧
     (s.bw = [b, waits] → b.answer = none → b.addr ≠ waddr.toNat → exec (.bankWindowTimeout waddr isWrite) s =
       .next { s with bw := [b, { waits with answer := some (.failed 1) }] }) ∧
     (∀ d, s.pwr.running = true → domOfKey key = some d → ((be ≠ 0 ∧ be ≠ 15) ∨ 2 ≤ s.domState d) →
       failed (.registerWrite addr be data) ∧ failed (.unlistedPageAccess ⟨addr, be⟩ false)) ∧
     (∀ d, s.pwr.running = true → be = 0 → domOfKey key = some d → s.domState d ≤ 1 →
       exec (.registerWrite addr be data) s = .next (s.okResponse 0)) ∧
     (s.pwr.running = false → exec (.registerWrite addr be data) s = .next s.askFclk ∧
       exec (.unlistedPageAccess ⟨addr, be⟩ false) s = .next s.askFclk)) ∧
  -- FieldWrites
  (∀ (f : FieldSpec) (h : HostWr), f.lo + f.width ≤ 64 → h.low = true → h.high = true → h.wr = h.v →
     let old := fld h.cur f.lo f.width
     let new := fld h.v f.lo f.width
     let good := f.ok = [] ∨ ∃ r, r ∈ f.ok ∧ r.1 ≤ new ∧ new ≤ r.2
     (f.acc = .rw → good → f.write h = (new, false)) ∧ (f.acc = .rw → ¬ good → f.write h = (old, true)) ∧
     (f.acc = .w1c → ∀ i, i < f.width → (f.write h).1.testBit i = (old.testBit i && !new.testBit i)) ∧
     (f.acc = .w1s → ∀ i, i < f.width → (f.write h).1.testBit i = (old.testBit i || new.testBit i)) ∧
     ((f.acc = .ro ∨ f.acc = .wo) → f.write h = (old, false))) ∧
  -- WindowWrites
  (∀ (s : State) (n : Fin 64) (data low : BitVec 32) (addr : BitVec 22) (be : BitVec 4) (isWrite : Bool), s.pwr.running = true →
     let src := R.DMA_SRC n 0
     let page := addr.toNat / 1024
     (s.domState 0 = 0 → ∃ t, exec (.registerWrite (BitVec.ofNat 22 (R.PRS_EVEN / 4)) 15 data) s = .next t ∧
       t.get F.PRS_EVEN_ONPRESS = fld data F.PRS_EVEN_ONPRESS.lo 1 ∧ (∀ r, r ≠ R.PRS_EVEN → r ≠ (rejcnt 2).key → t.reg r = s.reg r) ∧
       t.mem = s.mem) ∧
     (s.domState (domDma n) ≤ 1 → ∃ t, exec (.pairedLowHalfWrite (BitVec.ofNat 21 (src / 8)) data) s = .next t ∧ t.regs = s.regs ∧
       tget (fun _ => none) t.held src = some data ∧ t.resp.rgErr = false) ∧
     (s.domState (domDma n) ≤ 1 → s.dmaState n = 0 → tget (fun _ => none) s.held src = some low →
       ∃ t, exec (.registerWrite (BitVec.ofNat 22 (src / 4 + 1)) 15 data) s = .next t ∧ t.reg src = data ++ low ∧
         tget (fun _ => none) t.held src = none ∧ ∀ r, r ≠ src → t.reg r = s.reg r) ∧
     (pageListed page = false → ∃ t, exec (.unlistedPageAccess ⟨addr, be⟩ isWrite) s = .next t ∧
       t.get (rejcnt blkPage) = Nat.min (s.get (rejcnt blkPage) + 1) (2 ^ 32 - 1) ∧ t.get F.BLK_UNLIST_PAGE = page ∧
       t.get F.BLK_UNLIST_WR = b2n isWrite ∧ t.resp.rgErr = false ∧ t.resp.rgData = 0) ∧
     (pageListed page = true → exec (.unlistedPageAccess ⟨addr, be⟩ true) s = .next s) ∧
     (∀ d kind u, domOfKey (addr.toNat / 2 * 8) = some d → s.domState d ≤ 1 → pageKind page = some (kind, u) → kind ∉ [.qd, .pio, .cst] →
       exec (.unlistedPageAccess ⟨addr, 15⟩ false) s = .next (s.okResponse (halfOf (s.readWord (addr.toNat / 2 * 8)) (addr.toNat % 2 == 1)))) ∧
     (s.domState domBnd = 0 → ∀ value : BitVec 6, exec (.hostDoorbell value) s = .next ((s.post (0xC00 + value.toNat)).okResponse 0)))

/-- The bank window (R332, R170, R174, R187), no earlier access waiting: a write with no bytes enabled answers and writes nothing; an access to
a bank that is not ON is held; a bank of owner 0x22 is reached on Port A, another on Port B, where a write of half a word is a partial
write; a destructive march refuses the access with an error response. The test data registers (R349): SCANTDR, and the capture of the scan
chains, act only under TEST_MODE, where they destroy the block's state: its waiting commands, its clock, its fuses and the levels of its
inputs alone stay, and what the rest becomes is a free value (the model's own choice, log entry 65). MARCHTDR commands one bank; captures
take the failing bank and the repair sums. Log entry 26 gives the readings of the window, log entries 30 and 65 those of the captures and of
the scan. -/
def Obligations.BankWindowAndTestRegisters : Prop :=
  -- BankWindow
  (∀ (s : State) (addr : BitVec 23) (data : BitVec 32) (isWrite : Bool), s.pwr.running = true → s.bw = [] →
     let n := addr.toNat / 65536
     let w := addr.toNat / 2
     let high := addr.toNat % 2 == 1
     (∃ t, exec (.bankWindowAccess addr true 0 data) s = .next t ∧ t.resp.bwErr = false ∧ t.mem = s.mem ∧ t.bnk = s.bnk ∧ t.regs = s.regs ∧
       t.bw = []) ∧
     (s.unitOn (domBank n) = false → exec (.bankWindowAccess addr isWrite 15 data) s =
       .next { s with bw := [⟨addr.toNat, isWrite, 15, data, none⟩] }) ∧
     (s.get (F.BNK_OWN_OWNER n) = 0x22 → s.portAGate n 0x22 = .accepted →
       (∃ t, exec (.bankWindowAccess addr false 15 data) s = .next t ∧ t.resp.bwErr = false ∧
         t.resp.bwData = halfOf (s.portARead w 0x22).1 high ∧ t.mem = s.mem ∧ t.bw = []) ∧
       ∃ t, exec (.bankWindowAccess addr true 15 data) s = .next t ∧ t.resp.bwErr = false ∧ t.mem = s.mem ∧ t.bw = [] ∧
         (t.bk n).wsteps.length = (s.bk n).wsteps.length + 1) ∧
     (s.unitOn (domBank n) = true → s.get (F.BNK_OWN_OWNER n) ≠ 0x22 → (s.bk n).march = none → s.portBWaits n .hostWindow [w] = false →
       (∃ t, exec (.bankWindowAccess addr false 15 data) s = .next t ∧ t.resp.bwErr = false ∧
         t.resp.bwData = halfOf (s.eccRead w 1 0x22).1 high ∧ t.mem = s.mem) ∧
       (secSyndrome (s.arrWord w) = 0 → s.on (F.BNK_INJ_ARM n) = false →
         ∃ t, exec (.bankWindowAccess addr true 15 data) s = .next t ∧ t.resp.bwErr = false ∧
           t.arrWord w = secEncode (setFld ((s.arrWord w).setWidth 64) (32 * (addr.toNat % 2)) 32 data.toNat) ∧
           ∀ u, u ≠ w → t.arrWord u = s.arrWord u)) ∧
     ∀ m, s.unitOn (domBank n) = true → s.get (F.BNK_OWN_OWNER n) ≠ 0x22 → (s.bk n).march = some m → m.preserving = false →
       ∃ t, exec (.bankWindowAccess addr isWrite 15 data) s = .next t ∧ t.resp.bwErr = true ∧ t.resp.bwData = 0 ∧ t.mem = s.mem ∧
         t.chk = s.chk ∧ t.get (errcnt (bankPage n)) = Nat.min (s.get (errcnt (bankPage n)) + 1) (2 ^ 32 - 1)) ∧
  -- TestDataRegisters
  (∀ (s : State) (n : Fin 128) (value : BitVec 32),
     (s.pwr.testMode = true → ∃ t, exec .scantdrUpdate s = .next t ∧ exec (.tdrCapture 2) s = .next t ∧ t.pending = s.pending ∧
       t.fclk = s.fclk ∧ t.fuse = s.fuse ∧ t.pwr.testMode = true ∧ t.pwr.rstLow = s.pwr.rstLow ∧ t.pwr.krstLow = s.pwr.krstLow ∧
       ∀ m : Fin 128, (t.pn m).ext = (s.pn m).ext) ∧
     (s.pwr.testMode = false → exec .scantdrUpdate s = .next s ∧ exec (.tdrCapture 2) s = .next s) ∧
     (bit value 17 = false → fld value 0 7 = n → s.unitOn (domBank n) = false →
       exec (.marchtdrUpdate value) s = .next { s with tdr := { s.tdr with bank := n } }) ∧
     (bit value 17 = false → fld value 0 7 = n → fld value 7 2 = 2 → s.unitOn (domBank n) = true → (s.bk n).march = none →
       s.on (F.BNK_LOCK_MARCH n) = false → ∃ t, exec (.marchtdrUpdate value) s = .next t ∧
         (t.bk n).march = some ⟨true, 0, 0, [], false⟩ ∧ t.get (F.BNK_STATUS_MBUSY n) = 1 ∧ t.tdr.bank = n ∧ t.mem = s.mem) ∧
     (exec (.tdrCapture 1) s = .next { s with tdr := { s.tdr with cap := s.repairSum s.tdr.bank } }) ∧
     (s.get (F.BNK_STATUS_MFAIL n) = 1 → (∀ m : Fin 128, m < n → s.get (F.BNK_STATUS_MFAIL m) = 0) →
       ∃ t, exec (.tdrCapture 0) s = .next t ∧ fld t.tdr.cap 1 1 = 1 ∧ fld t.tdr.cap 2 7 = n ∧
         fld t.tdr.cap 9 23 = fld (s.reg (R.BNK_MFAIL n)) 0 23 ∧ (fld t.tdr.cap 0 1 = 1 ↔ ∃ m : Fin 128, s.get (F.BNK_STATUS_MBUSY m) ≠ 0)))

/-- Line-parameter ports (R338, R339): a deadline's service that finds no whole record, or has dropped 16, is a miss, shown as the last record
again; one whose header names the target is taken; the next record decided is presented, and one still held is replaced and counted late;
LP_READY takes it; with LPEN clear a waiting service ends uncounted. Sound ports (R340, R341): a sample tick counts; a record presented is
held until SNDs_READY; a due record's parameter, channel and value are presented, late where its stamp has passed; an underrun is counted
and posted. The blit port (R342-R344): the oldest request is accepted once each queue holds a word; four words form the command, low word
first; BL_DONE frees the port and counts; a request that waits too long is abandoned and counted, and faults its context unless it was
stopped since. Log entry 26 gives the readings of the ports. -/
def Obligations.BoundaryPorts : Prop :=
  -- LineParameterPorts
  (∀ (s : State) (p : Fin 16) (r : LpRecord) (rest : List LpRecord), s.unitOn domBnd = true →
     let x := s.lpp p
     ((x.serve = none → x.next = r :: rest → ∃ t, exec (.lpRecordPresent p) s = .next t ∧ (t.lpp p).held = some r ∧
       (t.lpp p).next = rest ∧ (x.held = none → t.regs = s.regs) ∧
       (x.held ≠ none → t.get (F.BND_LPCNT_LATE p) = Nat.min (s.get (F.BND_LPCNT_LATE p) + 1) (2 ^ (F.BND_LPCNT_LATE p).width - 1)))) ∧
     (x.serve = none → x.next = [] → exec (.lpRecordPresent p) s = .next s) ∧
     (∀ v, x.serve = some v → x.next = [] → (s.get F.BND_CTRL_LPEN).testBit p = false → ∃ t, exec (.lpRecordPresent p) s = .next t ∧
       (t.lpp p).serve = none ∧ (t.lpp p).held = x.held ∧ t.regs = s.regs) ∧
     (∀ v, x.serve = some v → x.next = [] → x.held = none → v.got = [] → (s.get F.BND_CTRL_LPEN).testBit p = true →
       (s.qCount (lpQueue p) < s.recw p ∨ 16 ≤ v.drops) → ∃ t, exec (.lpRecordPresent p) s = .next t ∧ (t.lpp p).serve = none ∧
         (t.lpp p).held = some ⟨x.last, v.line, true⟩ ∧
         t.get (F.BND_LPCNT_MISS p) = Nat.min (s.get (F.BND_LPCNT_MISS p) + 1) (2 ^ (F.BND_LPCNT_MISS p).width - 1) ∧
         (s.bndEven p = true → (s.fclk, 0xC40 + p.val) ∈ t.posted)) ∧
     (∀ (v : LpServe) (h e : Word) (b c : Bool) (u w : State), x.serve = some v → v.got = [] → v.drops < 16 →
       (s.get F.BND_CTRL_LPEN).testBit p = true → s.recw p = 1 → 1 ≤ s.qCount (lpQueue p) →
       s.portOp (33 + p) 3 (lpQueue p) 0 = (.ok h b, u) → u.portOp (33 + p) 2 (lpQueue p) 0 = (.ok e c, w) →
       fld h 0 14 < u.vTotal → fld h 0 14 = v.line → fld h 16 16 = v.frame → w.recw p = 1 → w.lpp p = { x with next := [], held := none } →
       ∃ t, exec (.lpRecordPresent p) s = .next t ∧ (t.lpp p).serve = none ∧ (t.lpp p).last = lpData [e] ∧
         (t.lpp p).held = some ⟨lpData [e], v.line, false⟩ ∧ t.regs = w.regs) ∧
     ∃ t, exec (.lpReady p) s = .next t ∧ (t.lpp p).held = none ∧ (t.lpp p).next = x.next ∧ t.regs = s.regs) ∧
  -- SoundPorts
  (∀ (s : State) (k ch : Fin 8) (e v : Word) (poisoned : Bool) (u : State) (ready : Bool), s.unitOn domBnd = true →
     let late := decide (sval 32 (fld e 0 32 + 2 ^ 32 - u.get (F.BND_SCNT_SCNT k)) < 0)
     let freed := s.setSnd k { s.sp8 k with out := none }
     let open_ := (s.sp8 k).out = none ∨ ready = true
     (∃ t, exec (.sampleTick k) s = .next t ∧ t.get (F.BND_SCNT_SCNT k) = (s.get (F.BND_SCNT_SCNT k) + 1) % 2 ^ 32 ∧
       (∀ r, r ≠ R.BND_SCNT k → t.reg r = s.reg r) ∧ t.posted = (s.postIf (s.bndEven (24 + k)) (0xC58 + k)).posted) ∧
     (∃ t, exec (.soundUnderrun k ch) s = .next t ∧
       t.get (F.BND_SNDCNT_UNDERRUN k) = Nat.min (s.get (F.BND_SNDCNT_UNDERRUN k) + 1) (2 ^ (F.BND_SNDCNT_UNDERRUN k).width - 1) ∧
       t.posted = (s.postIf (s.bndEven (16 + k)) (0xC50 + k)).posted) ∧
     (¬ open_ → exec (.soundRecordPresent ⟨k, ready⟩) s = .next s) ∧
     (open_ → (s.get F.BND_CTRL_SNDEN).testBit k = false ∨ ((s.sp8 k).first = none ∧ s.qCount (soundQueue k) < 2) →
       exec (.soundRecordPresent ⟨k, ready⟩) s = .next freed) ∧
     (open_ → (s.get F.BND_CTRL_SNDEN).testBit k = true → (s.sp8 k).first = some e →
       freed.portOp (49 + k) 2 (soundQueue k) 0 = (.ok v poisoned, u) →
       ∃ t, exec (.soundRecordPresent ⟨k, ready⟩) s = .next t ∧ t.sp8 k = ⟨none, some ⟨8 * k + fld e 32 3, fld e 36 8, v, late⟩⟩ ∧
         (late = true → t.get (F.BND_SNDCNT_LATE k) = Nat.min (u.get (F.BND_SNDCNT_LATE k) + 1) (2 ^ (F.BND_SNDCNT_LATE k).width - 1)) ∧
         (late = false → t.regs = u.regs))) ∧
  -- BlitPort
  (∀ (s : State) (r : BlitReq) (rest : List BlitReq) (a b c d : Word) (ctx : Fin 1024), s.unitOn domBnd = true →
     let held := ∀ i, i < 4 → s.qCount (16280 + i) ≠ 0
     let step := s.get F.BND_BLTWM_STEP
     let done := Nat.min (s.get F.BND_BLTDONE_BLTDONE + 1) (2 ^ (F.BND_BLTDONE_BLTDONE).width - 1)
     (s.on F.BND_CTRL_BLTEN = true → s.blit.out = false → s.blit.words = none → held → s.blit.waiting = r :: rest →
       ∃ t, exec .blitAcceptance s = .next t ∧ t.blit.waiting = rest ∧ t.blit.words ≠ none ∧ t.blit.out = false) ∧
     ((s.on F.BND_CTRL_BLTEN = false ∨ s.blit.out = true ∨ s.blit.words ≠ none ∨ ¬ held ∨ s.blit.waiting = []) →
       exec .blitAcceptance s = .next s) ∧
     (s.blit.words = some [a, b, c, d] → ∃ t, exec .blitCommandPresent s = .next t ∧ t.blit.cmd = d ++ c ++ b ++ a ∧ t.blit.out = true ∧
       t.blit.words = none ∧ t.blit.waiting = s.blit.waiting ∧ t.regs = s.regs) ∧
     (∃ t, exec .blDone s = .next t ∧ t.blit.out = false ∧ t.get F.BND_BLTDONE_BLTDONE = done ∧
       t.posted = (s.postIf (s.bndEven 32 && step != 0 && done % step == 0) 0xC60).posted) ∧
     (s.blit.waiting = [] → exec (.blitgoTimeout ctx) s = .next s) ∧
     (s.blit.waiting = r :: rest → r.ctx = ctx → r.limit ≠ 0 → ∃ t, exec (.blitgoTimeout ctx) s = .next t ∧ t.blit.waiting = rest ∧
       t.get F.BND_BLTAB_BLTAB = Nat.min (s.get F.BND_BLTAB_BLTAB + 1) (2 ^ (F.BND_BLTAB_BLTAB).width - 1) ∧
       (r.stopped = true → t.ctx = s.ctx) ∧
       (r.stopped = false → (s.cx ctx).st = .wait → (t.cx ctx).st = .faulted ∧ (t.cx ctx).fclass = 9 ∧ (t.cx ctx).maddr = (s.cx ctx).ownAddr)))

/-- RECORD_WRITE (R386-R389, R395, R397): the oldest entry of the intake takes the next sequence number and its slot, with the fields of R387;
nothing is written before the base, and a record of SEQ[31:0] zero is preceded by one of code 0x001. The watermark and a fault class start a
flush; the record of PWRFAIL carries PF and bounds the power-fail flush. The rate limit and the intake (R389, R392, R393): with a token, or
for a code without a limit, an occurrence is admitted and the token spent; without one it is suppressed and counted. An admitted one enters
the intake behind the earlier ones, those of one FCLK in order of SOURCE and then of code (two shown); a full intake loses it. A freeze only
counts it; a refill adds a token up to DEPTH. Log entries 11 and 28 give the order of acceptance. -/
def Obligations.ColophonRecords : Prop :=
  -- RecordsWritten
  (∀ (s : State) (o : Occ) (rest : List Occ), s.pwr.running = true →
     let n := s.colSeq
     let p := s.get F.COL_PUSHSEQ_PUSHSEQ
     (s.on F.COL_STATUS_BASED = false → exec .recordWrite s = .next s) ∧
     (s.col.intake = [] → exec .recordWrite s = .next s) ∧
     (s.on F.COL_STATUS_BASED = true → s.col.intake = o :: rest → o.own = false → n % 2 ^ 32 ≠ 0 →
       ∃ t, exec .recordWrite s = .next t ∧ t.colSeq = (n + 1) % 2 ^ 48 ∧ t.ringAt n = recordBits n s.col.pf o ∧ t.col.intake = rest ∧
         (∀ m, m % 4096 ≠ n % 4096 → t.ringAt m = s.ringAt m) ∧
         (seqGap p n = 4096 → t.get F.COL_STATUS_OVWRSEEN = 1 ∧ t.get F.COL_PUSHSEQ_PUSHSEQ = (p + 1) % 2 ^ 48 ∧
           t.get F.COL_OVWR_OVWRCNT = Nat.min (s.get F.COL_OVWR_OVWRCNT + 1) (2 ^ (F.COL_OVWR_OVWRCNT).width - 1)) ∧
         (seqGap p n ≠ 4096 → t.get F.COL_PUSHSEQ_PUSHSEQ = p ∧
           t.on F.COL_STATUS_FLBUSY = (s.on F.COL_STATUS_FLBUSY ||
             (s.get F.COL_FLWM_FLWM != 0 && decide (s.get F.COL_FLWM_FLWM ≤ seqGap p ((n + 1) % 2 ^ 48))) ||
             (isFaultCode o.code o.sw && (s.get F.COL_FLCLS_FLCLS).testBit (o.code - 0x11))))) ∧
     (s.on F.COL_STATUS_BASED = true → s.col.intake = o :: rest → o.own = false → o.full = false → n % 2 ^ 32 = 0 →
       ∃ t, exec .recordWrite s = .next t ∧ t.colSeq = (n + 2) % 2 ^ 48 ∧ t.ringAt (n + 1) = recordBits ((n + 1) % 2 ^ 48) s.col.pf o ∧
         fld (t.ringAt n) 32 10 = 1) ∧
     (s.on F.COL_STATUS_BASED = true → s.col.intake = o :: rest → o.own = true → o.code = 5 → ∃ t, exec .recordWrite s = .next t ∧
       t.colSeq = (n + 1) % 2 ^ 48 ∧ t.col.pf = true ∧ t.col.pfEnd = some n ∧ t.ringAt n = recordBits n true o) ∧
     ∀ pf, let r := recordBits n pf o
       fld r 0 32 = n % 2 ^ 32 ∧ fld r 32 10 = o.code % 2 ^ 10 ∧ fld r 42 11 = o.source % 2 ^ 11 ∧ fld r 53 8 = o.supp % 2 ^ 8 ∧
       fld r 61 1 = b2n o.sw ∧ fld r 62 1 = b2n pf ∧ fld r 63 1 = b2n o.sat ∧ r.extractLsb' 64 64 = o.a0 ∧ r.extractLsb' 128 64 = o.a1 ∧
       r.extractLsb' 192 64 = (if o.full then BitVec.ofNat 64 n else o.a2)) ∧
  -- OccurrenceAdmission
  (∀ (s : State) (code : BitVec 10) (source : Nat) (sw : Bool) (a0 a1 a2 : Word) (p : Occ) (l : List Occ), let k := code.toNat
     let t := s.occur k source sw a0 a1 a2
     let up := fun (f : RF) => Nat.min (s.get f + 1) (2 ^ f.width - 1)
     let o : Occ := ⟨k, source, sw, a0, a1, a2, s.get (suppRF k), tget (fun _ => false) s.col.sat k⟩
     let waiting := (s.col.intake.filter (fun o => !o.own)).length
     let limit := s.get (rateRF k 12 2)
     let entered := fun ws : List Occ => t.col.intake = ws ∧ t.get (suppRF k) = 0 ∧ t.tokens k = (if limit = 0 then s.tokens k else s.tokens k - 1)
     (s.col.freezing = true → t.col.intake = s.col.intake ∧ t.get F.COL_FRZ_FRZCNT = up F.COL_FRZ_FRZCNT) ∧
     (s.col.freezing = false → s.on F.COL_STATUS_BASED = true → limit ≠ 0 → s.tokens k = 0 → t.col.intake = s.col.intake ∧
       t.get F.COL_SUPTOT_SUPTOT = up F.COL_SUPTOT_SUPTOT ∧ (s.get (suppRF k) < 255 → t.get (suppRF k) = s.get (suppRF k) + 1)) ∧
     (s.col.freezing = false → s.on F.COL_STATUS_BASED = true → (limit = 0 ∨ s.tokens k ≠ 0) →
       (s.acceptedNow = 0 → waiting < 16 → entered (s.col.intake ++ [o])) ∧
       (s.acceptedNow = 1 → waiting < 16 → s.col.intake = l ++ [p] → p.own = false →
         ((source < p.source ∨ (source = p.source ∧ k < p.code)) → entered (l ++ [o, p])) ∧
         (¬ (source < p.source ∨ (source = p.source ∧ k < p.code)) → entered (l ++ [p, o]))) ∧
       (s.acceptedNow = 0 → waiting = 16 → t.col.intake = s.col.intake ∧ t.get F.COL_SUPTOT_LOSTCNT = up F.COL_SUPTOT_LOSTCNT ∧
         t.get F.COL_SUPTOT_SUPTOT = s.get F.COL_SUPTOT_SUPTOT ∧ (s.get (suppRF k) < 255 → t.get (suppRF k) = s.get (suppRF k) + 1))) ∧
     (limit = 2 → s.tokens k < s.get (rateRF k 0 8) → ∃ u, exec (.sclkRefill code) s = .next u ∧ u.tokens k = s.tokens k + 1 ∧
       (∀ j, j ≠ k → u.tokens j = s.tokens j) ∧ u.regs = s.regs) ∧
     ((limit ≠ 2 ∨ s.get (rateRF k 0 8) ≤ s.tokens k) → exec (.sclkRefill code) s = .next s))

/-- The colophon's host commands (R393-R395, R398, R399): FREEZE and THAW, RDSEQ with a standing and a missing record, FLUSH, AUTH once, CLEAR
with the right and the wrong key (whose occurrence reaches the colophon), SEQBASE once. The base (R399): SEQBASE or, failing it, the 64th
edge of SCLK sets the sequence number, PUSHSEQ and FLSEQ, and the record of code 0x002 is the first. Log entry 28 gives the readings of the
colophon. -/
def Obligations.ColophonCommandsAndBase : Prop :=
  -- ColophonCommands
  (∀ (s : State) (seq : BitVec 48) (key : BitVec 32), s.pwr.running = true → s.domState 0 = 0 →
     let right := s.on F.COL_STATUS_AUTHSET = true ∧ key = BitVec.ofNat 32 s.colSeq ^^^ s.col.auth
     (s.col.freezing = false → ∃ t, exec .freeze s = .next t ∧ t.col.freezing = true ∧ t.get F.COL_FRZ_FRZCNT = 0 ∧
       (s.col.intake = [] → t.get F.COL_STATUS_FROZEN = 1)) ∧
     (s.col.freezing = true → exec .freeze s = .next (s.okResponse 0)) ∧
     (s.col.freezing = true → ∃ t, exec .thaw s = .next t ∧ t.col.freezing = false ∧ t.get F.COL_STATUS_FROZEN = 0 ∧
       t.col.intake = s.col.intake ++ [ownRecord 0x004 (BitVec.ofNat 64 (s.get F.COL_FRZ_FRZCNT + s.get F.COL_FRZ_FRZFLT * 2 ^ 32))
         (BitVec.ofNat 64 (s.col.frzLow + s.col.frzHigh * 2 ^ 16))]) ∧
     (s.col.freezing = false → exec .thaw s = .next (s.okResponse 0)) ∧
     (∃ t, exec (.rdseqWrite seq) s = .next t ∧ t.get F.COL_RDSEQ_RDSEQ = seq.toNat ∧
       (s.recordValid seq.toNat = true → t.reg R.COL_RDSTAT = 1 ∧ ∀ i, i < 4 → t.reg (R.COL_RDREC i) = (s.ringAt seq.toNat).extractLsb' (64 * i) 64) ∧
       (s.recordValid seq.toNat = false → t.reg R.COL_RDSTAT = 2 ∧ ∀ i, i < 4 → t.reg (R.COL_RDREC i) = 0)) ∧
     (s.on F.COL_STATUS_BASED = true → exec .colFlush s = .next ((s.put F.COL_STATUS_FLBUSY 1).okResponse 0)) ∧
     (s.on F.COL_STATUS_AUTHSET = false → ∃ t, exec (.authWrite key) s = .next t ∧ t.col.auth = key ∧ t.get F.COL_STATUS_AUTHSET = 1) ∧
     (s.on F.COL_STATUS_AUTHSET = true → exec (.authWrite key) s = .next ((s.rej colPage).okResponse 0)) ∧
     (right → ∃ t, exec (.clearWrite key) s = .next t ∧ t.colSeq = (s.colSeq + 1) % 2 ^ 48 ∧ t.col.live = 1 ∧
       t.get F.COL_PUSHSEQ_PUSHSEQ = s.colSeq ∧ t.get F.COL_FLSEQ_FLSEQ = s.colSeq ∧ fld (t.ringAt s.colSeq) 32 10 = 3 ∧
       ∀ m, m % 4096 ≠ s.colSeq % 4096 → t.ringAt m = 0) ∧
     (¬ right → ∃ t, exec (.clearWrite key) s = .next t ∧ t.get F.COL_STATUS_AUTHFAILSEEN = 1 ∧ t.colSeq = s.colSeq ∧ t.col.ring = s.col.ring ∧
       t.get (rejcnt colPage) = Nat.min (s.get (rejcnt colPage) + 1) (2 ^ 32 - 1) ∧
       t = ((((((s.rej colPage).inc F.COL_OVWR_AUTHFAIL).put F.COL_STATUS_AUTHFAILSEEN 1).postIf (s.on F.COL_EVEN_ONAUTHFAIL)
         (s.get F.COL_EVEN_EV)).occur 6 (sourceOfPage colPage) false (key.setWidth 64) 0 0).okResponse 0)) ∧
     (s.on F.COL_STATUS_BASED = true → exec (.seqbaseWrite seq) s = .next (((s.holdLow R.COL_SEQBASE none).rej colPage).okResponse 0))) ∧
  -- ColophonBase
  (∀ (s : State) (seq : BitVec 48), s.on F.COL_STATUS_BASED = false →
     let based := fun (t : State) (n : Nat) => t.get F.COL_STATUS_BASED = 1 ∧ t.colSeq = (n + 1) % 2 ^ 48 ∧ t.get F.COL_PUSHSEQ_PUSHSEQ = n ∧
       t.get F.COL_FLSEQ_FLSEQ = n ∧ fld (t.ringAt n) 32 10 = 2
     (s.pwr.running = true → s.domState 0 = 0 → ∃ t, exec (.seqbaseWrite seq) s = .next t ∧ based t seq.toNat ∧
       t.get F.COL_SEQBASE_SEQBASE = seq.toNat) ∧
     (∃ t, exec .defaultBase s = .next t ∧ based t 0) ∧
     ∀ u : State, u.on F.COL_STATUS_BASED = true → exec .defaultBase u = .next u)

/-- The flush (R395-R397): a push that succeeds takes the element, and a flush with nothing left ends; the port transfers the records of the
power-fail flush first, and otherwise whole records of the queue until PWRFAIL. PWRFAIL (R346, R393, R397): a level that has stayed high
starts the power-fail flush with its record and stops the queue's transfers, each time it is taken, and ends a freeze, whose record stands
before; a glitch is counted; the fall clears PFACTIVE. Log entry 28 gives the readings of the flush. -/
def Obligations.FlushAndPowerFail : Prop :=
  -- ColophonFlush
  (∀ (s : State), s.pwr.running = true →
     let f := s.get F.COL_FLSEQ_FLSEQ
     (s.on F.COL_STATUS_FLBUSY = false → exec .flushPush s = .next s) ∧
     (s.on F.COL_STATUS_FLBUSY = true → s.col.pushRest = [] → s.get F.COL_PUSHSEQ_PUSHSEQ = s.colSeq →
       exec .flushPush s = .next (s.put F.COL_STATUS_FLBUSY 0)) ∧
     (∀ w v p u, s.on F.COL_STATUS_FLBUSY = true → s.col.pushRest = [w] → s.portOp 58 4 16348 w = (.ok v p, u) →
       ∃ t, exec .flushPush s = .next t ∧ t.col.pushRest = [] ∧ t.mem = u.mem ∧
         (u.get F.COL_PUSHSEQ_PUSHSEQ = u.colSeq → t.get F.COL_STATUS_FLBUSY = 0) ∧
         (u.get F.COL_PUSHSEQ_PUSHSEQ ≠ u.colSeq → t.regs = u.regs)) ∧
     (∀ last, s.col.pfEnd = some last → seqGap f s.colSeq ≤ s.col.live → seqGap f last < 4096 → ∃ t, exec .flushPortTransfer s = .next t ∧
       t.col.flOut = some (s.ringAt f, true) ∧ t.get F.COL_FLSEQ_FLSEQ = (f + 1) % 2 ^ 48 ∧
       (f = last → t.pwr.pfDone = true ∧ t.get F.COL_STATUS_PFFLUSH = 0 ∧ t.col.pfEnd = none) ∧ (f ≠ last → t.col.pfEnd = some last)) ∧
     (s.col.pfEnd = none → s.col.portStop = true → exec .flushPortTransfer s = .next s) ∧
     (∀ a b c d p u, s.col.pfEnd = none → s.col.portStop = false → s.col.portPart = [a, b, c] → s.portOp 58 2 16348 0 = (.ok d p, u) →
       u.col.portPart = [a, b, c] → ∃ t, exec .flushPortTransfer s = .next t ∧ t.col.flOut = some (d ++ c ++ b ++ a, false) ∧
         t.col.portPart = [])) ∧
  -- PowerFailInput
  (∀ (s : State), s.unitOn domBnd = true →
     let fail := ownRecord 0x005 (BitVec.ofNat 64 s.unflushed) s.beamPos
     let thaw := ownRecord 0x004 (BitVec.ofNat 64 (s.get F.COL_FRZ_FRZCNT + s.get F.COL_FRZ_FRZFLT * 2 ^ 32))
       (BitVec.ofNat 64 (s.col.frzLow + s.col.frzHigh * 2 ^ 16))
     (∃ t, exec .pwrfailTaken s = .next t ∧ t.pwr.pwrfail = true ∧ t.get F.BND_STATUS_PFSEEN = 1 ∧
       t.get F.BND_STATUS_PFACTIVE = 1 ∧ t.get F.COL_STATUS_PFFLUSH = 1 ∧ t.col.portStop = true ∧ t.col.freezing = false ∧
       (s.col.freezing = false → t.col.intake = s.col.intake ++ [fail]) ∧
       (s.col.freezing = true → t.get F.COL_STATUS_FROZEN = 0 ∧ t.col.intake = s.col.intake ++ [thaw, fail])) ∧
     exec .pwrfailGlitch s = .next (s.err bndPage) ∧
     (∃ t, exec .pwrfailFall s = .next t ∧ t.pwr.pwrfail = false ∧ t.get F.BND_STATUS_PFACTIVE = 0 ∧
       t.get F.BND_STATUS_PFSEEN = s.get F.BND_STATUS_PFSEEN ∧ t.col = s.col))

/-- The press (R400-R402): ARM arms; the host's trigger presses two FCLK later; the triggers of one press FCLK make one press of the lowest
kind, which counts the others as merged and copies the state; without ARM they are counted as missed. -/
def Obligations.Presses : Prop :=
  ∀ (s : State) (a b : PressTrig), s.pwr.running = true → s.domState 0 = 0 →
    let seq := (s.get F.PRS_PSEQ_PSEQ + 1) % 2 ^ 48
    (∃ t, exec .pressTrig s = .next t ∧ t.prs = s.prs ++ [⟨s.fclk + 2, 0⟩] ∧ t.regs = s.regs) ∧
    exec .pressArm s = .next ((s.put F.PRS_STATUS_ARMED 1).okResponse 0) ∧
    (s.prs = [] → exec .pressLatch s = .next s) ∧
    (s.prs = [a, b] → a.due = b.due → s.on F.PRS_STATUS_ARMED = true → ∃ t, exec .pressLatch s = .next t ∧ t.prs = [] ∧
      t.get F.PRS_PSEQ_PSEQ = seq ∧ t.get F.PRS_PSEQ_LASTKIND = Nat.min a.kind b.kind % 2 ^ (F.PRS_PSEQ_LASTKIND).width ∧
      t.get F.PRS_STATUS_PRESSED = 1 ∧
      t.get F.PRS_MISS_MERGECNT = Nat.min (s.get F.PRS_MISS_MERGECNT + 1) (2 ^ (F.PRS_MISS_MERGECNT).width - 1) ∧
      (s.on F.PRS_CTRL_ONESHOT = true → t.get F.PRS_STATUS_ARMED = 0)) ∧
    (s.prs = [a, b] → a.due = b.due → s.on F.PRS_STATUS_ARMED = false → ∃ t, exec .pressLatch s = .next t ∧ t.prs = [] ∧
      t.get F.PRS_MISS_MISSCNT = Nat.min (s.get F.PRS_MISS_MISSCNT + 2) (2 ^ (F.PRS_MISS_MISSCNT).width - 1) ∧ t.snap = s.snap) ∧
    (∀ c : Fin 1024, s.prs = [a] → s.on F.PRS_STATUS_ARMED = true → s.domState (domQuire (quireOf c)) ≤ 1 →
      ∃ t, exec .pressLatch s = .next t ∧ tget (fun _ => (0 : Word)) t.snap (ctxPage c * 512 + 0xFF8 / 8) = BitVec.ofNat 64 (seq + a.kind * 2 ^ 48) ∧
        tget (fun _ => (0 : Word)) t.snap (ctxPage c * 512 + 0xF38 / 8) = (s.cx c).maddr.setWidth 64)

/-- The FCLK change (R358-R360): GO starts the idle synthesiser, a second GO or one with ABORT is rejected, a multiplier out of range stays as
it was; lock sets FLOCKED; the switch takes the new multiplier, writes STBINC with its period, under BEAMADJ TICKDIV, and clears FSWPEND;
ABORT gives the change up and leaves FCLK as it is. Log entry 29 gives the readings of power. -/
def Obligations.FclkChanges : Prop :=
  ∀ (s : State) (value : BitVec 64) (m : Nat), s.pwr.running = true → s.domState 0 = 0 →
    let pend := s.on F.PWR_STATUS_FSWPEND
    let low := (s.holdLow R.PWR_FSW none).rej pwrPage
    (bit value 24 = true → bit value 25 = false → pend = false → fmulOk s.fuse.refMhz (fld value 0 10) = true → fld value 10 12 < 0xC80 →
      ∃ t, exec (.fswGo value) s = .next t ∧ t.pwr.idle = some (fld value 0 10) ∧ t.pwr.fmul = s.pwr.fmul ∧ t.get F.PWR_STATUS_FSWPEND = 1 ∧
        t.get F.PWR_STATUS_FLOCKED = 0 ∧ t.get F.PWR_FSW_FMUL = fld value 0 10 ∧ t.get F.PWR_FSW_SWEV = fld value 10 12 ∧
        t.get F.PWR_FSW_NOW = fld value 23 1 ∧ t.get F.PWR_FSW_BEAMADJ = fld value 22 1 ∧
        ∀ r, r ≠ R.PWR_FSW → r ≠ R.PWR_STATUS → t.reg r = s.reg r) ∧
    (bit value 24 = true → (bit value 25 = true ∨ pend = true) → exec (.fswGo value) s = .next (low.okResponse 0)) ∧
    (bit value 24 = true → bit value 25 = false → pend = false → fmulOk s.fuse.refMhz (fld value 0 10) = false →
      ∃ t, exec (.fswGo value) s = .next t ∧ t.get F.PWR_FSW_FMUL = s.get F.PWR_FSW_FMUL ∧ t.pwr.fmul = s.pwr.fmul ∧
        t.get (rejcnt pwrPage) = Nat.min (s.get (rejcnt pwrPage) + 1) (2 ^ 32 - 1)) ∧
    (s.pwr.idle = some m → ∃ t, exec .synthesiserLock s = .next t ∧ t.get F.PWR_STATUS_FLOCKED = 1 ∧ t.pwr = s.pwr ∧
      ∀ r, r ≠ R.PWR_STATUS → t.reg r = s.reg r) ∧
    (s.pwr.idle = none → exec .synthesiserLock s = .next s ∧ exec .fclkSwitch s = .next s) ∧
    (s.on F.PWR_STATUS_FLOCKED = false ∨ (s.on F.PWR_FSW_NOW = false ∧ s.pwr.swSeen = false) → exec .fclkSwitch s = .next s) ∧
    (s.pwr.idle = some m → s.on F.PWR_STATUS_FLOCKED = true → (s.on F.PWR_FSW_NOW = true ∨ s.pwr.swSeen = true) →
      s.unitKept domTimer = true → ∃ t, exec .fclkSwitch s = .next t ∧ t.pwr.fmul = m ∧ t.pwr.idle = none ∧
        t.get F.PWR_STATUS_FSWPEND = 0 ∧ t.get F.RHO_STBINC_STBINC = fclkPeriod s.fuse.refMhz m % 2 ^ 32 ∧
        (s.on F.PWR_FSW_BEAMADJ = false → t.reg R.BEAM_TICKDIV = s.reg R.BEAM_TICKDIV ∧
          t.posted = (s.postIf (s.on F.PWR_EVEN_ONFSW) (s.get F.PWR_EVEN_EV)).posted) ∧
        (s.on F.PWR_FSW_BEAMADJ = true → t.get F.BEAM_TICKDIV_FRAC = fld (s.reg R.PWR_FSWTICK) 0 24 ∧
          (4 ≤ fld (s.reg R.PWR_FSWTICK) 24 16 → t.get F.BEAM_TICKDIV_INT = fld (s.reg R.PWR_FSWTICK) 24 16))) ∧
    (pend = true → ∃ t, exec .fswAbort s = .next t ∧ t.pwr.idle = none ∧ t.pwr.fmul = s.pwr.fmul ∧ t.get F.PWR_STATUS_FSWPEND = 0 ∧
      t.get F.PWR_STATUS_FLOCKED = 0 ∧ ∀ r, r ≠ R.PWR_STATUS → t.reg r = s.reg r) ∧
    (pend = false → exec .fswAbort s = .next (low.okResponse 0)) ∧
    (∃ t, exec .sclkLost s = .next t ∧ t.get F.PWR_STATUS_SCLKLOST = 1)

/-- Requests of a domain's state (R364): the byte holds REQ, AUTO and LOWRET as written; a REQ that the table forbids stays and is counted; a
request of a higher state begins the exit, from OFF to ON; LOCK.DOM keeps the byte from a change. Domains lower and rise (R363, R364, R366):
an idle domain that nothing keeps awake lowers to REQ, or under AUTO as LOWRET selects; an entry ends; an exit reaches its state, from OFF
with the unit's reset values but its LOCK (R415); a busy or kept domain stays. Log entry 29 gives the readings of power. -/
def Obligations.DomainStates : Prop :=
  -- DomainRequests
  (∀ (s : State) (d : Fin 196) (req : BitVec 2) (auto lowret : Bool), s.pwr.running = true → s.domState 0 = 0 →
     let forbidden := (d.val = 0 ∧ req ≠ 0) ∨ (req = 3 ∧ s.offAllowed d = false)
     let free := s.on F.PWR_LOCK_DOM = false ∨ s.domChanges d req.toNat auto lowret = false
     let byte := fun (t : State) (r : Nat) => t.domReq d = r ∧ t.domAuto d = auto ∧ t.domLowret d = lowret
     (free → ¬ forbidden → ∃ t, exec (.domainRequestWrite d req auto lowret) s = .next t ∧ byte t req.toNat ∧
       (∀ r, r ≠ R.PWR_DOM (d / 8) → t.reg r = s.reg r) ∧ (∀ e, e ≠ d.val → t.move e = s.move e) ∧ t.pwr.cur = s.pwr.cur ∧
       (s.move d = none → req.toNat ≤ s.domState d → d.val ≠ 0 →
         (req = 0 → s.domReq d = 0 → auto = true → t.move d = none) ∧
         (req = 0 → s.domReq d ≠ 0 → 0 < s.domState d → t.move d = some (.exiting 0)) ∧
         (req ≠ 0 → req.toNat < s.domState d → t.move d = some (.exiting (if s.domState d = 3 then 0 else req.toNat))) ∧
         (req.toNat = s.domState d → t.move d = none))) ∧
     (free → forbidden → ∃ t, exec (.domainRequestWrite d req auto lowret) s = .next t ∧ byte t (s.domReq d) ∧
       t.get (rejcnt pwrPage) = Nat.min (s.get (rejcnt pwrPage) + 1) (2 ^ 32 - 1)) ∧
     (s.on F.PWR_LOCK_DOM = true → s.domChanges d req.toNat auto lowret = true →
       exec (.domainRequestWrite d req auto lowret) s = .next ((s.rej pwrPage).okResponse 0))) ∧
  -- DomainTransitions
  (∀ (s : State) (d : Fin 196), s.pwr.running = true →
     let target := if s.domReq d ≠ 0 then s.domReq d else if s.domAuto d then (if s.domLowret d then 2 else 1) else 0
     (s.move d = none → s.isKept d = false → s.domIdle d = true → s.domState d < target → (target = 3 → s.offAllowed d = true) →
       ∃ t, exec (.domainLower d) s = .next t ∧ t.domState d = target ∧ (∀ e, e ≠ d.val → t.domState e = s.domState e) ∧
         t.move d = (if target = 3 then none else some (.lowering none)) ∧ t.regs = s.regs ∧ t.mem = s.mem) ∧
     (s.domIdle d = false ∨ s.isKept d = true → exec (.domainLower d) s = .next s) ∧
     (s.move d = some (.lowering none) → ∃ t, exec (.domainEntryComplete d) s = .next t ∧ t.move d = none ∧ t.domState d = s.domState d ∧
       t.regs = s.regs) ∧
     (s.move d = some (.lowering (some 0)) → 0 < s.domState d → ∃ t, exec (.domainEntryComplete d) s = .next t ∧
       t.move d = some (.exiting 0) ∧ t.domState d = s.domState d) ∧
     (s.move d = none → exec (.domainEntryComplete d) s = .next s ∧ exec (.domainExitComplete d) s = .next s) ∧
     (s.move d = some (.exiting 1) → s.domState d ≠ 3 → ∃ t, exec (.domainExitComplete d) s = .next t ∧ t.domState d = 1 ∧ t.move d = none ∧
       t.regs = s.regs ∧ t.ctx = s.ctx ∧ t.mem = s.mem) ∧
     (∀ n : Fin 128, d.val = domBank n → s.move d = some (.exiting 0) → s.domState d = 3 → ∃ t, exec (.domainExitComplete d) s = .next t ∧
       t.domState d = 0 ∧ t.move d = none ∧ t.get (F.BNK_OWN_OWNER n) = 0x3F ∧ (∀ a, a / 262144 = n.val → tget (fun _ => (0 : Byte)) t.mem a = 0) ∧
       (∀ a, a / 262144 ≠ n.val → tget (fun _ => (0 : Byte)) t.mem a = tget (fun _ => (0 : Byte)) s.mem a) ∧
       (∀ r, domOfKey r ≠ some d.val → t.reg r = s.reg r)) ∧
     (s.move d = some (.exiting 0) → s.domState d = 3 → ¬ (1 ≤ d.val ∧ d.val ≤ 32) → ¬ (165 ≤ d.val ∧ d.val ≤ 172) →
       ∃ t, exec (.domainExitComplete d) s = .next t ∧ t.domState d = 0 ∧ t.move d = none ∧
         ∀ r, t.reg r = if domOfKey r = some d.val ∧ isLockKey r = false then resetWord r else s.reg r))

/-- Demands and wake entries (R107, R365-R370): a demand raises a domain in DOZE and, as a late wake, one in RET; OFF ignores it and ON serves
it; an event that ends no context's wait, and a sideband wake of a port whose REQ is not ON, raise nothing. A wake entry raises its run to
its target without a late wake, merging with an exit that has begun, and keeps it awake until KEEP ends. Log entry 29 gives the readings of
power. -/
def Obligations.DomainDemands : Prop :=
  ∀ (s : State) (d : Fin 196) (kind : DemandKind), s.pwr.running = true →
    let raise := exec (.demandWake d kind) s
    let fits := demandFits d kind = true ∧ (kind = .wakeSideband → s.domReq d = 0) ∧ (kind = .contextEvent → s.quireDue d = true)
    (¬ fits → raise = .next s) ∧
    (fits → s.move d = none →
      (s.domState d = 0 ∨ s.domState d = 3 → raise = .next s) ∧
      (s.domState d = 1 → ∃ t, raise = .next t ∧ t.move d = some (.exiting 0) ∧ (∀ e, e ≠ d.val → t.move e = s.move e) ∧ t.regs = s.regs) ∧
      (s.domState d = 2 → ∃ t, raise = .next t ∧ t.move d = some (.exiting 0) ∧
        t.get F.PWR_LW_LWCNT = Nat.min (s.get F.PWR_LW_LWCNT + 1) (2 ^ 32 - 1) ∧ t.get F.PWR_LW_LWLAST = d.val ∧
        t.get (domRF d 7 1) = 1 ∧ t.get F.PWR_STATUS_LATESEEN = 1 ∧
        t.posted = (s.postIf (s.on F.PWR_EVEN_ONLATE) (s.get F.PWR_EVEN_EV)).posted)) ∧
    (fits → s.move d = some (.lowering none) → s.domState d = 1 →
      ∃ t, raise = .next t ∧ t.move d = some (.lowering (some 0)) ∧ t.regs = s.regs) ∧
    (fits → s.move d = some (.exiting 1) → ∃ t, raise = .next t ∧ t.move d = some (.exiting 0) ∧ t.regs = s.regs) ∧
    (∃ t, exec (.keepExpiry d) s = .next t ∧ t.isKept d = false ∧ (∀ e, e ≠ d.val → t.isKept e = s.isKept e) ∧ t.regs = s.regs ∧
      t.pwr.cur = s.pwr.cur) ∧
    (∀ (p : Fin 4) (i : Fin 64), s.pwr.krstLow = false → s.pwr.rstLow = false →
      (∀ j, j < 64 → j ≠ i.val → s.get (F.PWR_WAKE_KIND j) ≠ 5) → s.domReq (domStitch p) ≠ 0 →
      s.get (F.PWR_WAKE_KIND i) = 5 → fld (s.reg (R.PWR_WAKE i)) 36 2 = p.val → s.get (F.PWR_WAKE_FIRST i) = d.val →
      s.get (F.PWR_WAKE_COUNT i) = 1 → d.val ≠ 0 → s.domState d = 2 →
      let target := if s.on (F.PWR_WAKE_TGTDOZE i) then 1 else 0
      ∃ t, exec (.stitchWakeSideband p) s = .next t ∧ (s.move d = none → t.move d = some (.exiting target)) ∧
        (∀ u, s.move d = some (.exiting u) → t.move d = some (.exiting (Nat.min target u))) ∧
        (s.on (F.PWR_WAKE_KEEP i) = true → t.isKept d = true) ∧
        t.get F.PWR_LW_LWCNT = s.get F.PWR_LW_LWCNT ∧
        (s.on (F.PWR_WAKE_ONCE i) = true → t.get (F.PWR_WAKE_KIND i) = 0))

/-- Stopping FCLK (R371, R372): it stops with FAUTOSTOP, every other domain in RET or OFF and nothing unflushed; unflushed records are flushed
first; it restarts, and runs once the synthesiser locks; meanwhile an edge of PWRFAIL raises PF_DONE and restarts it, and a glitch lowers
PF_DONE and is counted. Log entry 29 gives the readings of power. -/
def Obligations.FclkStops : Prop :=
  ∀ (s : State), s.pwr.krstLow = false → s.pwr.rstLow = false → 8 ≤ s.fuse.refMhz →
    (s.pwr.running = true → s.on F.PWR_CTRL_FAUTOSTOP = true → (∀ i, i < 195 → 2 ≤ s.domState (i + 1) ∧ s.move (i + 1) = none) →
      s.unflushed = 0 → s.col.intake = [] → ∃ t, exec .fclkStop s = .next t ∧ t.pwr.running = false ∧ t.pwr.starting = false ∧
        t.pwr.cur = s.pwr.cur ∧ t.get F.PWR_STATUS_FLOCKED = 0) ∧
    (s.pwr.running = true → s.on F.PWR_CTRL_FAUTOSTOP = true → (∀ i, i < 195 → 2 ≤ s.domState (i + 1) ∧ s.move (i + 1) = none) →
      (s.unflushed ≠ 0 → s.on F.COL_STATUS_BASED = true → exec .fclkStop s = .next (s.put F.COL_STATUS_FLBUSY 1)) ∧
      (s.unflushed = 0 → s.col.intake ≠ [] → exec .fclkStop s = .next s)) ∧
    (s.on F.PWR_CTRL_FAUTOSTOP = false → exec .fclkStop s = .next s) ∧
    (∀ i, i < 195 → (s.domState (i + 1) < 2 ∨ s.move (i + 1) ≠ none) → exec .fclkStop s = .next s) ∧
    (s.pwr.running = false → ∃ t, exec .fclkRestart s = .next t ∧ t.pwr.starting = true ∧ t.pwr.running = false ∧ t.regs = s.regs) ∧
    (s.pwr.running = false → s.pwr.starting = true → ∃ t, exec .fclkRestartLock s = .next t ∧ t.pwr.running = true ∧ t.pwr.starting = false ∧
      t.pwr.cur = s.pwr.cur ∧ t.regs = s.regs) ∧
    (s.pwr.running = false → ∃ t, exec .pwrfailEdgeLatch s = .next t ∧ t.pwr.pfLatch = true ∧ t.pwr.pfDone = true ∧ t.pwr.starting = true) ∧
    (s.pwr.running = true → s.pwr.pfLatch = true → s.pwr.pwrfail = false → ∃ t, exec .pwrfailEdgeGlitch s = .next t ∧ t.pwr.pfLatch = false ∧
      t.pwr.pfDone = false ∧ t.get (errcnt pwrPage) = Nat.min (s.get (errcnt pwrPage) + 1) (2 ^ 32 - 1)) ∧
    (s.pwr.running = true → s.pwr.pfLatch = true → s.pwr.pwrfail = true → exec .pwrfailEdgeGlitch s = .next s)

/-- Reset and start-up (R358, R373-R375, R418): KRST_N resets everything, RST_N all but the colophon's ring, sequence, FLSEQ, suppressed counts,
AUTH and its lock; FCLK stops and the domains are OFF; once both inputs are high the sequence brings every domain to ON, in STARTUP, at
FMUL0; the IMAGE boot then starts set 0 of channel 0, and context 0 at 0x080. The fuse layout and the start-up as one command are log
entries 6 and 7. -/
def Obligations.ResetsAndStartUp : Prop :=
  ∀ (s : State) (d : Fin 196),
    (∀ cold, ∃ t, exec (.resetAsserted cold) s = .next t ∧ t.pwr.running = false ∧ (d.val ≠ 0 → t.domState d = 3) ∧
      t.get F.BLK_MODE_MODE = 0 ∧ t.ctx = [] ∧ t.mem = [] ∧ t.posted = [] ∧ t.prs = [] ∧ t.dma = [] ∧
      (cold = true → t.pwr.krstLow = true ∧ t.col = Colophon.reset ∧ ∀ r, t.reg r = resetWord r) ∧
      (cold = false → s.pwr.krstLow = false → t.pwr.rstLow = true ∧ t.col.ring = s.col.ring ∧ t.col.live = s.col.live ∧ t.colSeq = s.colSeq ∧
        t.get F.COL_FLSEQ_FLSEQ = s.get F.COL_FLSEQ_FLSEQ ∧ t.col.auth = s.col.auth ∧ t.on F.COL_STATUS_AUTHSET = s.on F.COL_STATUS_AUTHSET ∧
        (∀ k, k < 1024 → t.get (suppRF k) = s.get (suppRF k)) ∧ ∀ r, r / 4096 ≠ 3 → t.reg r = resetWord r)) ∧
    (s.pwr.krstLow = false → exec .krstRelease s = .next s) ∧ (s.pwr.rstLow = false → exec .rstRelease s = .next s) ∧
    (s.pwr.krstLow = true → s.pwr.rstLow = true → ∃ t, exec .krstRelease s = .next t ∧ t.pwr.krstLow = false ∧ t.pwr.running = s.pwr.running ∧
      t.pwr.cur = s.pwr.cur ∧ t.regs = s.regs) ∧
    (∀ (c : Instr), ((c = .krstRelease ∧ s.pwr.krstLow = true ∧ s.pwr.rstLow = false) ∨ (c = .rstRelease ∧ s.pwr.rstLow = true ∧ s.pwr.krstLow = false)) →
      8 ≤ s.fuse.refMhz → s.fuse.bootSel ≠ 1 → ∃ t, exec c s = .next t ∧ t.pwr.running = true ∧ t.domState d = 0 ∧ t.ctx = s.ctx ∧
        t.get F.PWR_STATUS_COLD = b2n s.pwr.cold ∧ t.get F.PWR_STATUS_FUSEBAD = b2n (!fmulOk s.fuse.refMhz s.fuse.fmul0 || decide (2 ≤ s.fuse.bootSel)) ∧
        (fmulOk s.fuse.refMhz s.fuse.fmul0 = true → t.pwr.fmul = s.fuse.fmul0) ∧
        (fmulOk s.fuse.refMhz s.fuse.fmul0 = false → t.pwr.fmul = (8000 + s.fuse.refMhz - 1) / s.fuse.refMhz) ∧
        (s.pwr.testMode = false → t.get F.BLK_MODE_MODE = s.get F.BLK_MODE_MODE) ∧
        (s.pwr.testMode = true → t.get F.BLK_MODE_MODE = 3)) ∧
    (∀ (c : Instr), (c = .krstRelease ∧ s.pwr.krstLow = true ∧ s.pwr.rstLow = false) ∨ (c = .rstRelease ∧ s.pwr.rstLow = true ∧ s.pwr.krstLow = false) →
      8 ≤ s.fuse.refMhz → s.fuse.bootSel = 1 → ∃ u, exec c { s with fuse := { s.fuse with bootSel := 0 } } = .next u ∧
        let b := { u with fuse := s.fuse }.put (F.BNK_OWN_OWNER 0) 0
        let b := (b.setReg (R.DMA_SRC 0 0) (BitVec.ofNat 64 (2 ^ 63 + s.fuse.bootPtr))).setReg (R.DMA_DST 0 0) 0
        let b := (b.put (F.DMA_COUNT_COUNT 0 0) (8 * (s.fuse.blen8 + 1))).put (F.DMA_EVEN_HALTEV 0) 1
        let runEventFull := 1 + 2 ^ 4 + 2 ^ 16
        exec c s = .next (((b.ctlWrite 0 0 (BitVec.ofNat 64 (runEventFull + 6 * 2 ^ 8 + 0x400 * 2 ^ 18 + 24 * 2 ^ 30 + 15 * 2 ^ 35))).put
          (F.CTX_ENTRY_ENTRY 0) 0x80).ctxStart 0)) ∧
    (∀ (c : Instr), (c = .krstRelease ∨ c = .rstRelease) → s.fuse.refMhz < 8 → s.pwr.running = false →
      ∃ t, exec c s = .next t ∧ t.pwr.running = false ∧ t.regs = s.regs)

/-- The mode and the watchdog (R376, R377): a host write makes the changes of the table and no other; TEST_MODE holds TEST and gives the mode
before it back; the watchdog moves SERVICE to RECOVERY, sets WDFIRED, and in any other mode leaves the mode. The watchdog's count is its
event row (log entry 2). -/
def Obligations.ModesAndTheWatchdog : Prop :=
  ∀ (s : State) (mode : BitVec 2), s.pwr.krstLow = false → s.pwr.rstLow = false →
    let cur := s.get F.BLK_MODE_MODE
    let allowed := (mode = 1 ∧ (cur = 0 ∨ cur = 2)) ∨ (mode = 2 ∧ cur = 1)
    (s.pwr.running = true → s.domState 0 = 0 →
      (s.pwr.testMode = false → allowed → ∃ t, exec (.modeWrite mode) s = .next t ∧ t.get F.BLK_MODE_MODE = mode.toNat ∧
        (∀ r, r ≠ R.BLK_MODE → t.reg r = s.reg r) ∧ t.ctx = s.ctx) ∧
      (s.pwr.testMode = false → mode.toNat = cur → exec (.modeWrite mode) s = .next (s.okResponse 0)) ∧
      (s.pwr.testMode = true ∨ (mode.toNat ≠ cur ∧ ¬ allowed) → exec (.modeWrite mode) s = .next ((s.rej blkPage).okResponse 0))) ∧
    (s.pwr.testMode = false → ∃ t, exec (.testModeChange true) s = .next t ∧ t.get F.BLK_MODE_MODE = 3 ∧ t.pwr.testMode = true ∧
      (∀ r, r ≠ R.BLK_MODE → t.reg r = s.reg r) ∧ ∃ u, exec (.testModeChange false) t = .next u ∧ u.get F.BLK_MODE_MODE = cur ∧
      u.pwr.testMode = false) ∧
    (s.on F.PWR_WDOG_WDEN = true → ∃ t, exec .watchdogFire s = .next t ∧ t.get F.PWR_STATUS_WDFIRED = 1 ∧
      t.get F.BLK_MODE_MODE = (if cur = 1 then 2 else cur) ∧
      t.posted = (s.postIf (s.on F.PWR_EVEN_ONWD) (s.get F.PWR_EVEN_EV)).posted) ∧
    (s.on F.PWR_WDOG_WDEN = false → exec .watchdogFire s = .next s)

/-- A step takes the command at the front of the queue and runs it with the queue's rest. With no command waiting one FCLK passes while FCLK
runs (the model's choice, log entry 2): the count of FCLK advances and, in the timer unit, stitch time by STBINC (R296); channels that pace
by a queue's level are examined, and accesses that the bank window holds go on (log entries 22, 26); with neither present nothing else
changes. -/
def Obligations.StepRunsFrontCommand : Prop :=
  -- StepRunsFrontCommand
  (∀ (s : State) (c : Instr) (rest : List Instr), step { s with pending := c :: rest } = exec c { s with pending := rest }) ∧
  -- IdleStep
  (∀ (s : State), s.pending = [] →
     let quiet := fun n => ¬ (s.dPace n = 2 ∧ s.unitOn (domDma n) = true)
     let even := (s.fclk + 1) % 2 == 0
     (s.pwr.running = false → step s = .next s) ∧
     (s.pwr.running = true → (∀ n, n < 64 → quiet n) → s.bw = [] →
       ∃ t, step s = .next t ∧ t.fclk = s.fclk + 1 ∧ t = { s with fclk := t.fclk, rho := t.rho } ∧
       (s.unitOn domTimer = true → t.rho.time = (s.rho.time + s.get F.RHO_STBINC_STBINC) % 2 ^ 48) ∧
       (s.unitOn domTimer = false → t.rho = s.rho)) ∧
     (s.pwr.running = true → (∀ n, n < 64 → quiet n) → step s = .next ({ s.stitchTick with fclk := s.fclk + 1 }.windowRun even)) ∧
     (∀ k : Fin 64, s.pwr.running = true → (∀ n, n < 64 → n ≠ k.val → quiet n) → ¬ quiet k → s.bw = [] →
       (s.stitchTick.dmaPoke k).bw = [] → step s = .next { s.stitchTick.dmaPoke k with fclk := s.fclk + 1 }))

/-- The state after reset (R181, R358, R363, R374, R376): FCLK runs at FMUL0, every domain is ON, every context IDLE, every bank without an
owner, memory and the RAM microwords zero, the mode STARTUP, and the colophon without its base. Every table of the state after reset is in
canonical form. State.reset is the state after a start-up from KRST_N with the model's fuses (log entry 7). -/
def Obligations.StateAfterReset : Prop :=
  -- StateAfterReset
  (let s := State.reset
   s.pending = [] ∧ s.pwr.running = true ∧ s.pwr.fmul = s.fuse.fmul0 ∧ fmulOk s.fuse.refMhz s.fuse.fmul0 = true ∧
   (∀ d, s.domState d = 0 ∧ s.move d = none ∧ s.isKept d = false) ∧ (∀ r, s.reg r = resetWord r) ∧
   (∀ c : Fin 1024, (s.cx c).st = .idle ∧ (s.cx c).mstk = [] ∧ (s.cx c).inflight = none) ∧
   (∀ n : Fin 128, s.get (F.BNK_OWN_OWNER n) = 0x3F) ∧ (∀ a, tget (fun _ => (0 : Byte)) s.mem a = 0) ∧
   (∀ (q : Fin 32) a, 0x1000 ≤ a → s.storeWord q a = 0) ∧ s.get F.BLK_MODE_MODE = 0 ∧ s.get F.PWR_STATUS_COLD = 1 ∧
   s.get F.COL_STATUS_BASED = 0 ∧ s.colSeq = 0 ∧ s.posted = [] ∧ s.prs = []) ∧
  -- ResetIsCanonical
  (State.reset.wf = true)

/-- A step keeps every table of the state in canonical form, memory among them: equal machines are equal data. The tables' form is the model's
own (log entry 10). -/
def Obligations.StepsKeepTablesCanonical : Prop :=
  ∀ (s t : State), s.wf = true → step s = .next t → t.wf = true

/-- Every command of the table runs in every state: none ever stops the block. -/
def Obligations.CommandsComplete : Prop :=  ∀ (i : Instr) (s : State), ∃ t, exec i s = .next t

/-- Dispatch (R125, R130, R137-R139): the index of an instruction, the routine each index ships with, and the routine an entry names. The
shipped routines of the opcodes that compute (R141-R146, R148, R152-R156): what the word with the effect leaves. The moves, loads, stores,
branches, and the field and predicate instructions (R129, R141, R142, R145-R148, R152-R156). The queue, event and boundary instructions, NOP
and PARK, and the guard (R157-R159, R166): each does what the microword operation it names does; under a guard that fails no routine has an
effect or a fault. The string and move instructions (R160-R164), word by word: the read of an element, its comparison or write, the step of
the cursors and LC0 in the POLL word, an early stop with its predicate, and where a repeat begins and ends. A shipped routine's words issue
and commit as microwords do (R58, R138, R139): the routine that stands in the word register is issued, a DISP word of it dispatching the
decoded instruction, and its step is what MICROWORD_COMMIT leaves. Log entries 35 and 63 give the readings of the shipped routines. -/
def Obligations.OlupoInstructions : Prop :=
  -- DispatchIndices
  (∀ (w : Word) (s : State) (q i : Nat), i < 512 →
     dispIndex w = (if dOver w = true then 511 else if dBad w = true then 510 else if dEsc w = true then 256 + dOp w else dOp w) ∧
     (s.dispShipped q i = true → i = 511 → s.dispEntry q i = 0x48) ∧
     (s.dispShipped q i = true → i = 510 ∨ (258 < i ∧ i < 510) ∨ i ∈ [0x1D, 0x1E, 0x1F, 0xA6, 0xA7, 0xBD, 0xBE, 0xBF] ∨
       (0x76 ≤ i ∧ i ≤ 0x7F) ∨ (0x88 ≤ i ∧ i ≤ 0x9F) ∨ (0xB1 ≤ i ∧ i ≤ 0xB7) ∨ (0xC6 ≤ i ∧ i ≤ 0xCF) ∨ (0xDA ≤ i ∧ i ≤ 0xFF) →
       s.dispEntry q i = 0x40 ∧ indexRoutine i = .trap 2) ∧
     (∀ v, (s.setDisp q i v).dispEntry q i = v) ∧
     entryRoutine 0 = some .start ∧ entryRoutine 0x40 = some (.trap 2) ∧ entryRoutine 0x48 = some (.trap 3) ∧ entryRoutine 0x80 = some (.boot 0) ∧
     ∀ a, 0x1000 ≤ a.toNat → entryRoutine a = none) ∧
  -- ComputingInstructions
  (∀ (s : State) (c n : Nat) (d : Decoded) (off : BitVec 14), (s.cx c).cur = some d → s.guardPasses c d.word = true →
     dWidth d.word = n → n ∈ [8, 16, 32, 64] →
     let dw := d.word
     let src := (s.cx c).olatch
     let x : BitVec n := (s.g c (dRd dw)).setWidth n
     let y : BitVec n := src.setWidth n
     let run := fun (op : Nat) => (s.routineStep c (.olupo op 0 0 0) off true).1
     let put := fun (v : Word) => s.setG c (dRd dw) v
     let sets := fun (op : Nat) (v : BitVec n) => run op = put (v.setWidth 64)
     let setsOv := fun (op : Nat) (v : BitVec n) (ov : Prop) => (ov → run op = (put (v.setWidth 64)).put (flagRF c 5) 1) ∧
       (¬ ov → run op = put (v.setWidth 64))
     let wide := fun (i : Int) => i < -2 ^ (n - 1) ∨ 2 ^ (n - 1) ≤ i
     let clamp := fun (i : Int) (r : BitVec n) =>
       if 2 ^ (n - 1) ≤ i then BitVec.intMax n else if i < -2 ^ (n - 1) then BitVec.intMin n else r
     let k := if dSrc dw = 0 then fld src 0 8 else fld src 0 6
     sets 0x00 y ∧ setsOv 0x01 (x + y) (wide (x.toInt + y.toInt)) ∧ setsOv 0x02 (x - y) (wide (x.toInt - y.toInt)) ∧
     setsOv 0x03 (y - x) (wide (y.toInt - x.toInt)) ∧ sets 0x0A (if y.slt x = true then y else x) ∧ sets 0x0B (if x.slt y = true then y else x) ∧
     sets 0x0C (if y.ult x = true then y else x) ∧ sets 0x0D (if x.ult y = true then y else x) ∧
     setsOv 0x0E (clamp (x.toInt + y.toInt) (x + y)) (wide (x.toInt + y.toInt)) ∧
     setsOv 0x0F (clamp (x.toInt - y.toInt) (x - y)) (wide (x.toInt - y.toInt)) ∧
     setsOv 0x10 (if 2 ^ n ≤ x.toNat + y.toNat then BitVec.allOnes n else x + y) (2 ^ n ≤ x.toNat + y.toNat) ∧
     setsOv 0x11 (if x.toNat < y.toNat then 0 else x - y) (x.toNat < y.toNat) ∧
     sets 0x12 (x <<< k) ∧ sets 0x13 (x >>> k) ∧ sets 0x14 (x.sshiftRight k) ∧ sets 0x15 (x.rotateRight (k % n)) ∧
     setsOv 0x16 (-y) (y = BitVec.intMin n) ∧ sets 0x17 (~~~y) ∧ setsOv 0x18 (if y.msb = true then -y else y) (y = BitVec.intMin n) ∧
     sets 0x19 (if y = 0 then BitVec.ofNat n n else BitVec.ofNat n (n - 1 - Nat.log2 y.toNat)) ∧
     sets 0x1A (BitVec.ofNat n ((List.range n).filter (fun i => y.getLsbD i)).length) ∧
     (∀ i, i < 64 → bit ((run 0x1B).g c (dRd dw)) i = (decide (i < n) && y.getLsbD (n - 1 - i))) ∧
     (∀ i, i < 64 → bit ((run 0x1C).g c (dRd dw)) i = (decide (i < n) && y.getLsbD (n - 8 - i / 8 * 8 + i % 8))) ∧
     (∀ op v, (op, v) ∈ [(0x04, x &&& y), (0x05, x ||| y), (0x06, x ^^^ y), (0x07, x &&& ~~~y), (0x08, x ||| ~~~y), (0x09, ~~~(x ^^^ y)),
       (0xD0, x * y), (0xD1, BitVec.ofInt n (x.toInt * y.toInt / 2 ^ n)), (0xD2, BitVec.ofNat n (x.toNat * y.toNat / 2 ^ n))] → sets op v) ∧
     (∀ i, i < 8 →
       let v : BitVec n := (s.g c i).setWidth n
       run (0x20 + i) = (if wide (v.toInt + 1) then (s.setG c i ((v + 1).setWidth 64)).put (flagRF c 5) 1 else s.setG c i ((v + 1).setWidth 64)) ∧
       run (0x28 + i) = (if wide (v.toInt - 1) then (s.setG c i ((v - 1).setWidth 64)).put (flagRF c 5) 1 else s.setG c i ((v - 1).setWidth 64)) ∧
       run (0x30 + i) = s.setG c i 0) ∧
     (∀ op (signed : Bool), (op, signed) ∈ [(0xD3, true), (0xD4, false), (0xD5, true), (0xD6, false)] → y ≠ 0 ∨ s.opt c 5 = false →
       let wider := fun (v : BitVec n) => if signed = true then v.signExtend 64 else v.setWidth 64
       let flagged := if y = 0 then s.put (flagRF c 4) 1
         else if signed = true ∧ x = BitVec.intMin n ∧ y = BitVec.allOnes n then s.put (flagRF c 5) 1 else s
       run op = flagged.divStart c signed (wider x) (wider y)) ∧
     (∀ op, op ∈ [0xD3, 0xD4, 0xD5, 0xD6] → y = 0 → s.opt c 5 = true → ((run op).cx c).st = .faulted ∧ ((run op).cx c).fclass = 5 ∧
       (run op).get (flagRF c 4) = 1) ∧
     ∀ a b : Word,
       let read := fun (op : Nat) => (s.routineStep c (.olupo op 1 a b) off true).1
       let u : BitVec n := a.setWidth n
       let w : BitVec n := b.setWidth n
       read 0xD3 = put ((if w = 0 then (if u.msb = true then BitVec.intMin n else BitVec.intMax n) else u.sdiv w).setWidth 64) ∧
       read 0xD4 = put ((if w = 0 then BitVec.allOnes n else u / w).setWidth 64) ∧
       read 0xD5 = put ((if w = 0 then u else u.srem w).setWidth 64) ∧ read 0xD6 = put ((if w = 0 then u else u % w).setWidth 64)) ∧
  -- MovesAndBranches
  (∀ (s : State) (c : Nat) (d : Decoded) (off : BitVec 14), (s.cx c).cur = some d → s.guardPasses c d.word = true →
     let dw := d.word
     let src := (s.cx c).olatch
     let rd := dRd dw
     let rs := dRs dw
     let low := fld src 0 32
     let opc := s.get (F.CTX_OPC_OPC c)
     let run := fun (op : Nat) => (s.routineStep c (.olupo op 0 0 0) off true).1
     let put := fun (v : Nat) => s.setG c rd (BitVec.ofNat 64 v)
     let reserved := fun (op : Nat) => ((run op).cx c).st = .faulted ∧ ((run op).cx c).fclass = 2
     let far := fun (t : Nat) => s.writeOpc c (t % 2 ^ 32)
     let setP := fun (p : Nat) (v : Bool) => if p = 0 then s else s.put ⟨R.CTX_FLAGPRED c, 8 + p, 1⟩ (b2n v)
     let pos := dT1 dw % 64
     let wid := if dT2 dw % 64 = 0 then 64 else dT2 dw % 64
     (if rs < 4 then run 0x38 = put (s.get (aRF c rs)) ∧ run 0x3D = put (s.get (mRF c rs)) else reserved 0x38 ∧ reserved 0x3D) ∧
     (if rd < 4 then run 0x39 = s.put (aRF c rd) low ∧ run 0x3A = s.put (aRF c rd) (s.get (aRF c rd) + low) ∧
         run 0x3E = s.writeM c rd (fld src 0 6)
       else reserved 0x39 ∧ reserved 0x3A ∧ reserved 0x3E) ∧
     (if rs < 2 then run 0x3B = put (s.get (lcRF c rs)) else reserved 0x3B) ∧
     (if rd < 2 then run 0x3C = s.put (lcRF c rd) low else reserved 0x3C) ∧
     (∀ an mode, an < 4 → mode < 4 →
       let size := dSize dw
       let amod := if mode = 0 then 0 else if mode = 1 then (if dAmo dw = true then 2 else 1) else if mode = 2 then (if dAmo dw = true then 5 else 4) else 6
       let a := s.get (aRF c an)
       let ld := if size = 8 then 1 else (if size = 4 then 2 else if size = 2 then 3 else 4) + if bit dw 27 = true then 3 else 0
       let st := if size = 8 then 8 else if size = 4 then 9 else if size = 2 then 10 else 11
       let moved := fun (t : State) => t.put (aRF c an) (amodAddr amod a size (s.get (mRF c an)) 0)
       run (0x40 + 4 * an + mode) = moved (s.memStart c ld a 0 off (s.opt c 6)) ∧
       (s.routineStep c (.olupo (0x40 + 4 * an + mode) 1 0 0) off true).1 = s.setG c rd (s.cx c).blatch ∧
       run (0x50 + 4 * an + mode) = moved (s.memStart c st a (s.g c rd) off (s.opt c 6))) ∧
     (∀ p, p < 8 → run (0x60 + p) = (if s.pred c p = true then far (opc + low) else s) ∧
       run (0x68 + p) = (if s.pred c p = true then s else far (opc + low))) ∧
     run 0x70 = far (opc + low) ∧ run 0x71 = far low ∧
     (s.get (lcRF c 1) ≤ 1 → run 0x75 = s.put (lcRF c 1) 0) ∧
     (1 < s.get (lcRF c 1) → run 0x75 = (s.put (lcRF c 1) (s.get (lcRF c 1) - 1)).writeOpc c ((opc + low) % 2 ^ 32)) ∧
     run 0xB0 = s.setG c rd s.beamPos ∧ run 0x100 = put (c % 2 ^ 64) ∧ run 0x101 = s.setG c rd ((s.cx c).evlast.setWidth 64) ∧
     run 0x102 = put (s.ostk c).length ∧
     (let v : Word := s.g c rd
      let n := dWidth dw
      ∀ p : Bool, (dT1 dw / 16, p) ∈ [(0, v.setWidth n == src.setWidth n), (1, v.setWidth n != src.setWidth n),
          (2, (v.setWidth n).slt (src.setWidth n)), (3, (src.setWidth n).sle (v.setWidth n)), (4, (v.setWidth n).sle (src.setWidth n)),
          (5, (src.setWidth n).slt (v.setWidth n)), (6, (v.setWidth n).ult (src.setWidth n)), (7, (src.setWidth n).ule (v.setWidth n)),
          (8, (v.setWidth n).ule (src.setWidth n)), (9, (src.setWidth n).ult (v.setWidth n)), (10, (v &&& src).setWidth n == 0),
          (11, (v &&& src).setWidth n != 0)] → run 0xC0 = setP (dT1 dw % 8) p) ∧
     (12 ≤ dT1 dw / 16 → reserved 0xC0) ∧
     run 0xC1 = setP rd ((dT1 dw / 8 % 16).testBit ((if s.pred c rs = true then 2 else 0) + if s.pred c (dT1 dw % 8) = true then 1 else 0)) ∧
     (∀ i, i < 64 → bit ((run 0xC2).g c rd) i = (decide (i < 8) && s.pred c i)) ∧
     (∀ p, p < 8 → (run 0xC3).pred c p = (p == 0 || bit src p)) ∧
     run 0xC4 = (let t := setP rd (s.on (flagRF c (if rs.testBit 0 = true then 5 else 4)))
       if rs.testBit 1 = true then t.put (flagRF c (if rs.testBit 0 = true then 5 else 4)) 0 else t) ∧
     run 0xC5 = setP rd (bit src (dT1 dw % 64) != (dT1 dw).testBit 6) ∧
     (∀ i, i < 64 → bit ((run 0xD7).g c rd) i = (decide (i < wid) && src.getLsbD (pos + i))) ∧
     (∀ i, i < 64 → bit ((run 0xD8).g c rd) i = if i < wid then src.getLsbD (pos + i) else src.getLsbD (pos + wid - 1)) ∧
     ∀ i, i < 64 → bit ((run 0xD9).g c rd) i = if pos ≤ i ∧ i < pos + wid then src.getLsbD (i - pos) else bit (s.g c rd) i) ∧
  -- QueueAndEventInstructions
  (∀ (s : State) (c : Nat) (d : Decoded) (off : BitVec 14), (s.cx c).cur = some d →
     let dw := d.word
     let src := (s.cx c).olatch
     let v := s.g c (dRd dw)
     let x := s.cx c
     let run := fun (op phase : Nat) => s.routineStep c (.olupo op phase 0 0) off true
     let asks := fun (op : Nat) (data : Word) => s.queueStart c op (fld src 0 14) data off (s.opt c 8)
     let ev := src.extractLsb' 0 12
     let event := fun (op : Nat) => if evRefused op ev = true then
         ((s.inc (F.QUI_RSVCNT_COUNT (quireOf c))).put (F.QUI_RSVCNT_LAST (quireOf c)) off.toNat).err (quiPage (quireOf c))
       else s.evApply c op ev off
     (s.guardPasses c dw = false → (∀ idx a b pass, s.routineStep c (.olupo idx 0 a b) off pass = (s, .to .start)) ∧
       ∀ cls pass, s.routineStep c (.trap cls) off pass = (s, .to .start)) ∧
     (s.guardPasses c dw = true →
       (∀ cls, cls = 2 ∨ cls = 3 → (let t := (s.routineStep c (.trap cls) off true).1
         (t.cx c).st = .faulted ∧ (t.cx c).fclass = cls ∧ (s.records (0x010 + cls) →
           t.recorded (0x010 + cls) c (t.cx c).finfo (d.bytes.extractLsb' 0 64) ((d.bytes.extractLsb' 64 48).setWidth 64)))) ∧
       (run 0xA0 0).1 = asks 1 v ∧ (run 0xA1 0).1 = asks 2 0 ∧ (run 0xA2 0).1 = asks 3 0 ∧ (run 0xA3 0).1 = asks 4 v ∧
       (run 0xA4 0).1 = asks 5 0 ∧ (run 0xA5 0).1 = asks 6 0 ∧ (run 0xA8 0).1 = event 1 ∧ (run 0xA9 0).1 = event 2 ∧ (run 0xAB 0).1 = event 2 ∧
       (run 0xAC 0).1 = event 3 ∧ (run 0xAD 0).1 = event 5 ∧ (run 0xAE 0).1 = event 6 ∧ (run 0xAF 0).1 = event 7 ∧
       run 0xAA 0 = (s, .wait .start) ∧ run 0xBC 0 = (s, .park (some .start) off) ∧
       (run 0xBB 0).1 = s.occur (dT1 dw + dT2 dw % 4 * 256) c true v src
         (BitVec.ofNat 64 (off.toNat + s.get (F.CTX_OPC_OPC c) * 2 ^ 32))) ∧
     (run 0xA0 1).1 = s ∧ (run 0xA1 1).1 = s.setG c (dRd dw) x.qlatch ∧ (run 0xA2 1).1 = s.setG c (dRd dw) x.qlatch ∧
     (run 0xA3 1).1 = s.writeP c (dT1 dw % 8) x.qok ∧ (run 0xA4 1).1 = (s.setG c (dRd dw) x.qlatch).writeP c (dT1 dw % 8) x.qok ∧
     run 0xA9 1 = (s, .to (.olupo 0xA9 2 0 0)) ∧ run 0xA9 2 = (s, .wait (.olupo 0xA9 3 0 0)) ∧ (run 0xA9 3).1 = event 7 ∧
     ((s.routineStep c (.act 1) off true).1 = s.raise c ∧ (s.routineStep c (.act 2) off true).1 = s.pressTrigger 1 2 ∧
       (s.routineStep c (.act 3) off true).1 = s.blitgo c off ∧ (∀ k, (s.routineStep c (.act k) off false).1 = s)) ∧
     indexRoutine 0x3F = .start ∧ indexRoutine 0x72 = .start ∧ indexRoutine 0x73 = .start ∧ indexRoutine 0x74 = .start ∧
     indexRoutine 0xB8 = .act 1 ∧ indexRoutine 0xB9 = .act 2 ∧ indexRoutine 0xBA = .act 3) ∧
  -- StringInstructions
  (∀ (s : State) (c : Nat) (d : Decoded) (off : BitVec 14), (s.cx c).cur = some d →
     let dw := d.word
     let run := fun (op phase : Nat) => s.routineStep c (.olupo op phase 0 0) off true
     let src := (s.cx c).olatch
     let lat := (s.cx c).blatch
     let size := dSize dw
     let n := 8 * size
     let rep := dRep dw
     let lc := s.get (lcRF c 0)
     let a0 := s.get (aRF c 0)
     let a1 := s.get (aRF c 1)
     let pd := dT1 dw % 8
     let past := (d.addr.toNat + dLen dw) % 2 ^ 32
     let ended := fun (t : State) => if rep = true then t.writeOpc c past else t
     let load := fun (a : Nat) => s.memStart c (loadOp size false) a 0 off (s.opt c 6)
     let store := fun (a : Nat) (v : Word) => s.memStart c (storeOp size) a v off (s.opt c 6)
     let word64 := fun (op a : Nat) (v : Word) => s.memStart c op a v off (s.opt c 6)
     let queue := fun (op : Nat) (v : Word) => s.queueStart c op (fld src 0 14) v off (s.opt c 8)
     let moved := fun (t : State) (k : Nat) (down : Bool) =>
       t.put (aRF c k) (modStep (s.get (aRF c k)) (if down = true then 2 ^ 32 - size else size) (s.get (mRF c k)))
     let moved64 := fun (t : State) =>
       let k := if dRd dw % 2 = 0 then 1 else 0
       t.put (aRF c k) (modStep (s.get (aRF c k)) 8 (s.get (mRF c k)))
     let counted := fun (t : State) => if rep = true then t.put (lcRF c 0) (lc - 1) else t
     let wid := fld (s.g c (dRd dw)) 0 16
     let hgt := fld (s.g c (dRd dw)) 16 16
     let place := fun (a stride : Nat) =>
       let i := if a0 < a1 then lc - 1 else wid * hgt - lc
       (a + i / wid * stride + i % wid * size) % 2 ^ 32
     (s.guardPasses c dw = true → rep = true → lc = 0 → ∀ op, op ∈ [0x80, 0x81, 0x82, 0x83] → (run op 0).1 = s) ∧
     (s.guardPasses c dw = true → rep = true → lc = 0 → (run 0x84 0).1 = s.writeP c pd false ∧ (run 0x85 0).1 = s.writeP c pd false ∧
       (run 0x87 0).1 = s.writeP c pd true) ∧
     (s.guardPasses c dw = true → rep = true → lc ≠ 0 → ∀ op, op ∈ [0x80, 0x81, 0x82, 0x83, 0x84, 0x85, 0x87] →
       (run op 0).1 = s.writeOpc c d.addr.toNat) ∧
     (s.guardPasses c dw = true → rep = false → ∀ op, op ∈ [0x80, 0x81, 0x82, 0x83, 0x84, 0x85, 0x87] → (run op 0).1 = s) ∧
     (∀ op, op ∈ [0x80, 0x81, 0x84, 0x85] → run op 1 = (load a0, .to (.olupo op 2 0 0))) ∧
     (run 0x80 2).1 = store a1 lat ∧ (run 0x81 2).1 = store a1 lat ∧ (run 0x82 2).1 = store a1 src ∧ (run 0x83 2).1 = store a1 src ∧
     run 0x84 2 = (load a1, .to (.olupo 0x84 3 lat 0)) ∧
     (∀ x, (s.routineStep c (.olupo 0x84 3 x 0) off true).1 = if x ≠ lat then ended (s.writeP c pd true) else s) ∧
     (run 0x85 2).1 = (if lat.toNat % 2 ^ n = src.toNat % 2 ^ n then ended (s.writeP c pd true) else s) ∧
     (dRd dw % 2 = 0 → (run 0x87 1).1 = queue 5 0 ∧
       (run 0x87 2).1 = if (s.cx c).qok = true then word64 8 a1 (s.cx c).qlatch else ended (s.writeP c pd false)) ∧
     (dRd dw % 2 = 1 → run 0x87 1 = (word64 1 a0 0, .to (.olupo 0x87 2 0 0)) ∧ (run 0x87 2).1 = queue 4 lat ∧
       (run 0x87 3).1 = if (s.cx c).qok = true then s else ended (s.writeP c pd false)) ∧
     (let more := rep = true ∧ 1 < lc
      (more → (run 0x80 4).1 = counted (moved (moved s 0 false) 1 false) ∧ (run 0x81 4).1 = counted (moved (moved s 0 true) 1 true) ∧
        (run 0x82 4).1 = counted (moved s 1 false) ∧ (run 0x83 4).1 = counted (moved s 1 true) ∧
        (run 0x84 4).1 = counted (moved (moved s 0 false) 1 false) ∧ (run 0x85 4).1 = counted (moved s 0 false) ∧
        (run 0x87 4).1 = counted (moved64 s)) ∧
      (¬ more → run 0x80 4 = (ended (counted (moved (moved s 0 false) 1 false)), .to .start) ∧
        run 0x81 4 = (ended (counted (moved (moved s 0 true) 1 true)), .to .start) ∧
        run 0x82 4 = (ended (counted (moved s 1 false)), .to .start) ∧ run 0x83 4 = (ended (counted (moved s 1 true)), .to .start) ∧
        run 0x84 4 = (ended ((counted (moved (moved s 0 false) 1 false)).writeP c pd false), .to .start) ∧
        run 0x85 4 = (ended ((counted (moved s 0 false)).writeP c pd false), .to .start) ∧
        run 0x87 4 = (ended ((counted (moved64 s)).writeP c pd true), .to .start))) ∧
     (s.guardPasses c dw = true → wid * hgt = 0 ∨ lc = 0 → (run 0x86 0).1 = s) ∧
     (s.guardPasses c dw = true → wid * hgt ≠ 0 → wid * hgt < lc → (run 0x86 0).1 = (s.put (lcRF c 0) (wid * hgt)).writeOpc c d.addr.toNat) ∧
     run 0x86 1 = (load (place a0 (fld (s.g c (dRd dw)) 32 16)), .to (.olupo 0x86 2 0 0)) ∧
     (run 0x86 2).1 = store (place a1 (fld (s.g c (dRd dw)) 48 16)) lat ∧
     (run 0x86 4).1 = (if 1 < lc then s.put (lcRF c 0) (lc - 1) else (s.put (lcRF c 0) (lc - 1)).writeOpc c past)) ∧
  -- ShippedWordsRun
  ((∀ (s : State) (q : Fin 32) (c : Nat) (r : Routine), s.unitOn (domQuire q) = true → s.chooseCtx q (s.qu q).slotPos = some c → s.ctxFree c →
     (s.cx c).word = .shipped r → s.liveRoutine c r = r → (s.cx c).urgentMet = false →
     (r.disp = false → ∃ t i, exec (.microwordIssue q) s = .next t ∧ (t.cx c).st = .run ∧ (t.cx c).word = .empty ∧
       (t.cx c).inflight = some i ∧ i.word = .shipped r ∧ i.guardOk = true ∧ i.next = (s.cx c).maddr ∧ i.pushes = []) ∧
     ∀ d, r = .start → (s.cx c).nxt = some d → isCall d.word = false → isRet d.word = false →
       ∃ t i, exec (.microwordIssue q) s = .next t ∧ (t.cx c).st = .run ∧ (t.cx c).inflight = some i ∧ i.word = .shipped .start ∧
         i.next = s.dispEntry (quireOf c) (dispIndex d.word) ∧ (t.cx c).cur = some d ∧ (t.cx c).olatch = s.latchFor c d ∧
         t.get (F.CTX_OPC_OPC c) = (d.addr.toNat + dLen d.word) % 2 ^ 32 ∧
         i.cont = if s.dispShipped (quireOf c) (dispIndex d.word) = true then some (indexRoutine (dispIndex d.word))
           else entryRoutine (s.dispEntry (quireOf c) (dispIndex d.word))) ∧
   ∀ (s : State) (c : Fin 1024) (r r' : Routine) (i : Issued), s.unitOn (domQuire (quireOf c)) = true → s.noStrict c →
     (s.cx c).inflight = some i → i.word = .shipped r → i.handover = false → i.divert = none → i.pushes = [] → i.popped = false →
     i.underflow = false → r.disp = false →
     let step := s.routineStep c r i.addr i.guardOk
     let x := step.1.cx c
     step.2 = .to r' → x.st = .run → x.word = .empty → x.pend9 = none → x.stopPend = false →
       ∃ t, exec (.microwordCommit c) s = .next t ∧ t.regs = step.1.regs ∧ (∀ d, d ≠ c.val → t.cx d = step.1.cx d) ∧
         t = { step.1 with ctx := t.ctx } ∧ (t.cx c).st = .stall ∧ (t.cx c).inflight = none ∧ (t.cx c).maddr = i.next ∧
         (t.cx c).routine = some r' ∧ (t.cx c).ops = x.ops ∧ (t.cx c).qops = x.qops ∧ (t.cx c).et = x.et ∧ (t.cx c).mstk = x.mstk)
end

