-- ==== Sys2Proof/Laws/Bits.lean ====
section
/-! SUPPORT. Laws of the bit fields: a field read after it is written, fields beside it, and what a field can hold. -/

namespace Sys2Proof.Machine

theorem testBit_nfld (n lo w i : Nat) : (nfld n lo w).testBit i = (decide (i < w) && n.testBit (lo + i)) := by
  simp [nfld, Nat.testBit_mod_two_pow, Nat.testBit_shiftRight]

theorem testBit_fld {n : Nat} (x : BitVec n) (lo w i : Nat) : (fld x lo w).testBit i = (decide (i < w) && x.getLsbD (lo + i)) := by
  simp [fld, testBit_nfld, BitVec.getLsbD]

/-- A field is smaller than its width allows. -/
theorem fld_lt {n : Nat} (x : BitVec n) (lo w : Nat) : fld x lo w < 2 ^ w := Nat.mod_lt _ (Nat.two_pow_pos w)

theorem getLsbD_fmask (n lo w i : Nat) : (fmask n lo w).getLsbD i = (decide (i < n) && decide (lo ≤ i ∧ i < lo + w)) := by
  simp only [fmask, BitVec.getLsbD_shiftLeft, BitVec.getLsbD_ofNat, Nat.testBit_two_pow_sub_one]
  by_cases h1 : i < n <;> by_cases h2 : lo ≤ i <;> by_cases h3 : i < lo + w <;> simp [h1, h2, h3] <;> omega

/-- The bits of a vector with a field replaced. -/
theorem getLsbD_setFld {n : Nat} (x : BitVec n) (lo w v i : Nat) :
    (setFld x lo w v).getLsbD i =
      if i < n ∧ lo ≤ i ∧ i < lo + w then v.testBit (i - lo) else x.getLsbD i := by
  simp only [setFld, BitVec.getLsbD_or, BitVec.getLsbD_and, BitVec.getLsbD_not, getLsbD_fmask, BitVec.getLsbD_shiftLeft,
    BitVec.getLsbD_ofNat]
  by_cases h1 : i < n
  · by_cases h2 : lo ≤ i
    · by_cases h3 : i < lo + w
      · have : i - lo < n := by omega
        simp [h1, h2, h3, this]
      · simp [h1, h2, h3]
    · simp [h1, h2]
  · simp [h1, BitVec.getLsbD_of_ge x i (by omega)]

/-- A field reads as what was written, up to its width. -/
@[simp] theorem fld_setFld_self {n : Nat} (x : BitVec n) (lo w v : Nat) (h : lo + w ≤ n) : fld (setFld x lo w v) lo w = v % 2 ^ w := by
  apply Nat.eq_of_testBit_eq
  intro i
  rw [testBit_fld, getLsbD_setFld, Nat.testBit_mod_two_pow]
  by_cases hi : i < w
  · have h1 : lo + i < n := by omega
    have h2 : lo + i < lo + w := by omega
    simp [hi, h1]
  · simp [hi]

/-- A field beside the one written keeps its value. -/
@[simp] theorem fld_setFld_other {n : Nat} (x : BitVec n) (lo w v lo' w' : Nat) (h : lo + w ≤ lo' ∨ lo' + w' ≤ lo) :
    fld (setFld x lo w v) lo' w' = fld x lo' w' := by
  apply Nat.eq_of_testBit_eq
  intro i
  rw [testBit_fld, testBit_fld, getLsbD_setFld]
  by_cases hi : i < w'
  · have : ¬ (lo' + i < n ∧ lo ≤ lo' + i ∧ lo' + i < lo + w) := by omega
    simp [hi, this]
  · simp [hi]

/-- A bit outside the field written keeps its value. -/
@[simp] theorem bit_setFld_other {n : Nat} (x : BitVec n) (lo w v i : Nat) (h : i < lo ∨ lo + w ≤ i) : bit (setFld x lo w v) i = bit x i := by
  have : ¬ (i < n ∧ lo ≤ i ∧ i < lo + w) := by omega
  simp [bit, getLsbD_setFld, this]

/-- A bit read as it was written. -/
@[simp] theorem bit_setFld_self {n : Nat} (x : BitVec n) (i v : Nat) (h : i < n) : bit (setFld x i 1 v) i = v.testBit 0 := by
  rw [bit, getLsbD_setFld]
  simp [h]

/-- A field cut out as a vector reads as what was written. -/
@[simp] theorem extractLsb'_setFld_self {n : Nat} (x : BitVec n) (lo w v : Nat) (h : lo + w ≤ n) :
    (setFld x lo w v).extractLsb' lo w = BitVec.ofNat w v := by
  apply BitVec.eq_of_getLsbD_eq
  intro i hi
  have : lo + i < n := by omega
  rw [BitVec.getLsbD_extractLsb', getLsbD_setFld, BitVec.getLsbD_ofNat]
  simp [hi, this]

/-- A field cut out beside the one written keeps its value. -/
@[simp] theorem extractLsb'_setFld_other {n : Nat} (x : BitVec n) (lo w v lo' w' : Nat) (h : lo + w ≤ lo' ∨ lo' + w' ≤ lo) :
    (setFld x lo w v).extractLsb' lo' w' = x.extractLsb' lo' w' := by
  apply BitVec.eq_of_getLsbD_eq
  intro i hi
  have : ¬ (lo' + i < n ∧ lo ≤ lo' + i ∧ lo' + i < lo + w) := by omega
  rw [BitVec.getLsbD_extractLsb', BitVec.getLsbD_extractLsb', getLsbD_setFld]
  simp [this]

@[simp] theorem bit_zero (n i : Nat) : bit (0#n) i = false := by simp [bit]

@[simp] theorem b2n_testBit_zero (b : Bool) : (b2n b).testBit 0 = b := by cases b <;> rfl

@[simp] theorem fld_zero (n lo w : Nat) : fld (0#n) lo w = 0 := by simp [fld, nfld]

/-- The whole of a vector is its own field. -/
theorem fld_all {n : Nat} (x : BitVec n) : fld x 0 n = x.toNat := by
  simp [fld, nfld, Nat.mod_eq_of_lt x.isLt]

@[simp] theorem b2n_true : b2n true = 1 := rfl
@[simp] theorem b2n_false : b2n false = 0 := rfl

@[simp] theorem b2n_eq_one (b : Bool) : b2n b = 1 ↔ b = true := by cases b <;> simp [b2n]
@[simp] theorem b2n_eq_zero (b : Bool) : b2n b = 0 ↔ b = false := by cases b <;> simp [b2n]

theorem b2n_lt (b : Bool) : b2n b < 2 := by cases b <;> decide

@[simp] theorem b2n_ne_zero (b : Bool) : (b2n b != 0) = b := by cases b <;> rfl

@[simp] theorem b2n_mod_two (b : Bool) : b2n b % 2 = b2n b := by cases b <;> rfl

end Sys2Proof.Machine
end

