-- ==== Sys2Proof/Laws/Tables.lean ====
section
/-! SUPPORT. Laws of the sparse tables: a read after a write to the same key gives the value, a write leaves every other key alone
(in every table, canonical or not), and every operation keeps the canonical form. -/

namespace Sys2Proof.Machine

variable {α : Type}

theorem tget_tput_self (d : Nat → α) (k : Nat) (v : α) (t : Table α) : tget d (tput k v t) k = v := by
  induction t with
  | nil => simp [tput, tget]
  | cons e t ih =>
    simp only [tput]
    split
    · simp [tget]
    · split
      · simp [tget]
      · next h => simp [tget, Ne.symm h, ih]

theorem tget_tput_ne (d : Nat → α) {k j : Nat} (v : α) (t : Table α) (h : j ≠ k) : tget d (tput k v t) j = tget d t j := by
  induction t with
  | nil => simp [tput, tget, h.symm]
  | cons e t ih =>
    simp only [tput]
    split
    · simp [tget, h.symm]
    · split
      · next hk => subst hk; simp [tget, h.symm]
      · simp only [tget, ih]

theorem tget_filter_ne (d : Nat → α) (k : Nat) (t : Table α) : tget d (t.filter (fun e => e.1 != k)) k = d k := by
  induction t with
  | nil => rfl
  | cons e t ih =>
    by_cases h : e.1 = k
    · simp [h, ih]
    · simp [h, tget, ih]

theorem tget_filter_other (d : Nat → α) {k j : Nat} (t : Table α) (h : j ≠ k) :
    tget d (t.filter (fun e => e.1 != k)) j = tget d t j := by
  induction t with
  | nil => rfl
  | cons e t ih =>
    by_cases he : e.1 = k
    · have : e.1 ≠ j := fun hh => h (hh.symm.trans he)
      simp [he, tget, ih, h.symm]
    · simp [he, tget, ih]

variable [DecidableEq α] {d : Nat → α}

/-- A read after a write to the same key gives the value written. -/
@[simp] theorem tget_tset_self (k : Nat) (v : α) (t : Table α) : tget d (tset d k v t) k = v := by
  unfold tset
  split
  · next h => rw [tget_filter_ne, h]
  · exact tget_tput_self d k v t

/-- A write leaves every other key alone. -/
@[simp] theorem tget_tset_ne {k j : Nat} (v : α) (t : Table α) (h : j ≠ k) : tget d (tset d k v t) j = tget d t j := by
  unfold tset
  split
  · exact tget_filter_other d t h
  · exact tget_tput_ne d v t h

/-- A read after a write. -/
theorem tget_tset (k j : Nat) (v : α) (t : Table α) : tget d (tset d k v t) j = if j = k then v else tget d t j := by
  by_cases h : j = k
  · simp [h]
  · simp [h]

omit [DecidableEq α] in
theorem tput_tput (k : Nat) (v w : α) (t : Table α) : tput k v (tput k w t) = tput k v t := by
  induction t with
  | nil => simp [tput]
  | cons e t ih =>
    simp only [tput]
    split
    · simp [tput]
    · split
      · simp [tput]
      · next h1 h2 => simp [tput, h1, h2, ih]

omit [DecidableEq α] in
theorem filter_tput (k : Nat) (w : α) (t : Table α) :
    (tput k w t).filter (fun e => e.1 != k) = t.filter (fun e => e.1 != k) := by
  induction t with
  | nil => simp [tput]
  | cons e t ih =>
    simp only [tput]
    split
    · simp
    · split
      · next h => simp [h]
      · simp [List.filter_cons, ih]

/-- A write over a write of a value that is not the default. -/
theorem tset_tset {k : Nat} {w : α} (v : α) (t : Table α) (hw : w ≠ d k) : tset d k v (tset d k w t) = tset d k v t := by
  simp only [tset, if_neg hw]
  split
  · exact filter_tput k w t
  · exact tput_tput k v w t

/-! The canonical form. -/

/-- Canonical from a key on, and so from any lower one. -/
theorem twfFrom_mono {t : Table α} {a b : Nat} (hab : a ≤ b) (h : twfFrom d b t = true) : twfFrom d a t = true := by
  cases t with
  | nil => rfl
  | cons e t =>
    simp only [twfFrom, Bool.and_eq_true, decide_eq_true_eq] at h ⊢
    exact ⟨⟨by omega, h.1.2⟩, h.2⟩

theorem twfFrom_tput {t : Table α} {lb k : Nat} {v : α} (h : twfFrom d lb t = true) (hk : lb ≤ k) (hv : v ≠ d k) :
    twfFrom d lb (tput k v t) = true := by
  induction t generalizing lb with
  | nil => simp [tput, twfFrom, hk, hv]
  | cons e t ih =>
    simp only [twfFrom, Bool.and_eq_true, decide_eq_true_eq] at h
    obtain ⟨⟨h1, h2⟩, h3⟩ := h
    simp only [tput]
    split
    · simp only [twfFrom, Bool.and_eq_true, decide_eq_true_eq]
      exact ⟨⟨hk, hv⟩, ⟨by omega, h2⟩, h3⟩
    · split
      · next he => subst he; simp [twfFrom, hk, hv, h3]
      · simp only [twfFrom, Bool.and_eq_true, decide_eq_true_eq]
        exact ⟨⟨h1, h2⟩, ih h3 (by omega)⟩

/-- Leaving entries out keeps the canonical form from a key on. -/
theorem twfFrom_filter {t : Table α} {lb : Nat} (p : Nat × α → Bool) (h : twfFrom d lb t = true) :
    twfFrom d lb (t.filter p) = true := by
  induction t generalizing lb with
  | nil => rfl
  | cons e t ih =>
    simp only [twfFrom, Bool.and_eq_true, decide_eq_true_eq] at h
    by_cases hp : p e = true
    · rw [List.filter_cons_of_pos hp]
      simp only [twfFrom, Bool.and_eq_true, decide_eq_true_eq]
      exact ⟨h.1, ih h.2⟩
    · rw [List.filter_cons_of_neg hp]
      exact ih (twfFrom_mono (by omega) h.2)

/-- The empty table is canonical. -/
@[simp] theorem twf_nil : twf d ([] : Table α) = true := rfl

/-- Leaving entries out keeps the canonical form. -/
@[simp] theorem twf_filter {t : Table α} (p : Nat × α → Bool) (h : twf d t = true) : twf d (t.filter p) = true := twfFrom_filter p h

/-- A write keeps the canonical form. -/
@[simp] theorem twf_tset {t : Table α} (k : Nat) (v : α) (h : twf d t = true) : twf d (tset d k v t) = true := by
  unfold tset
  split
  · exact twf_filter _ h
  · next hv => exact twfFrom_tput h (Nat.zero_le k) hv

/-- Putting entries back at their default keeps the canonical form. -/
@[simp] theorem twf_tclear {t : Table α} (p : Nat → Bool) (h : twf d t = true) : twf d (tclear p t) = true := twfFrom_filter _ h

end Sys2Proof.Machine
end

