-- ==== Sys2Proof/Laws/Canonical.lean ====
section
/-! SUPPORT. The updates that the meanings are built from keep every table canonical. An update that keeps them composes with others
that do, under conditions and over lists. -/

namespace Sys2Proof.Machine

/-- An update of the state after which its tables are canonical if they were before. -/
def Keeps (f : State → State) : Prop := ∀ s : State, s.wf = true → (f s).wf = true

/-! How such updates are put together. -/

theorem Keeps.then {f g : State → State} (hf : Keeps f) (hg : Keeps g) : Keeps (fun s => g (f s)) := fun _ h => hg _ (hf _ h)

theorem Keeps.either {f g : State → State} (p : State → Prop) [DecidablePred p] (hf : Keeps f) (hg : Keeps g) :
    Keeps (fun s => if p s then f s else g s) := by
  intro s h
  by_cases hp : p s
  · simpa [hp] using hf s h
  · simpa [hp] using hg s h

theorem Keeps.over {β : Type} {f : State → β → State} (hf : ∀ b, Keeps (fun s => f s b)) : ∀ l : List β, Keeps (fun s => l.foldl f s)
  | [] => fun _ h => h
  | b :: l => (hf b).then (Keeps.over hf l)

/-! The memories. -/

@[simp] theorem memory_wf_nil : Memory.wf [] = true := rfl

/-- Bytes stored one after another keep a table canonical. -/
theorem twf_foldl_tset {α β : Type} [DecidableEq α] {d : Nat → α} (key : β → Nat) (val : β → α) (l : List β) {t : Table α}
    (h : twf d t = true) : twf d (l.foldl (fun m i => tset d (key i) (val i) m) t) = true := by
  induction l generalizing t with
  | nil => exact h
  | cons b l ih => exact ih (twf_tset _ _ h)

/-- Storing a word keeps the memory of its data and the memory of its check bits canonical. -/
theorem memory_wf_setArrWord {s : State} (w : Nat) (v : BitVec 72) (hm : Memory.wf s.mem = true) (hc : Memory.wf s.chk = true) :
    Memory.wf (s.setArrWord w v).mem = true ∧ Memory.wf (s.setArrWord w v).chk = true :=
  ⟨twf_foldl_tset (fun i => 8 * w + i) (fun i => v.extractLsb' (8 * i) 8) _ hm, twf_tset _ _ hc⟩

/-- Putting a bank's bytes back to zero keeps memory canonical. -/
theorem memory_wf_tclear (p : Nat → Bool) {m : List Host.Cell} (h : Memory.wf m = true) : Memory.wf (tclear p m) = true := twf_tclear p h

/-- The memories of the state after reset are canonical. -/
theorem memory_wf_reset : Memory.wf State.reset.mem = true ∧ Memory.wf State.reset.chk = true := ⟨rfl, rfl⟩

/-! Replacing one entry of a table. -/

theorem keeps_setReg (k : Nat) (x : Word) : Keeps (State.setReg · k x) := by
  intro s h
  simp_all [State.wf, State.memWf, State.coreWf, State.edgeWf, State.ioWf, State.setReg, twf_tset]

/-- The units that run microcode, hold data or take queue operations. -/
theorem keeps_core (n : Nat) :
    (∀ x, Keeps (State.setCx · n x)) ∧ (∀ x, Keeps (State.setQu · n x)) ∧ (∀ x, Keeps (State.setSl · n x)) ∧
    (∀ x, Keeps (State.setBk · n x)) ∧ (∀ a w, Keeps (State.setStore · n a w)) ∧ (∀ i v, Keeps (State.setDisp · n i v)) ∧
    (∀ off v, Keeps (State.setSnap · n off v)) := by
  refine ⟨?_, ?_, ?_, ?_, ?_, ?_, ?_⟩ <;> intros <;> intro s h <;>
    simp_all [State.wf, State.memWf, State.coreWf, State.edgeWf, State.ioWf, State.setCx, State.setQu, State.setSl, State.setBk,
      State.setStore, State.setDisp, State.setSnap, twf_tset]

/-- The units at the block's edges. -/
theorem keeps_edge (n : Nat) :
    (∀ x, Keeps (State.setTm · n x)) ∧ (∀ x, Keeps (State.setKt · n x)) ∧ (∀ x, Keeps (State.setLp · n x)) ∧
    (∀ x, Keeps (State.setSnd · n x)) ∧ (∀ x, Keeps (State.setPn · n x)) ∧ (∀ x, Keeps (State.setEn · n x)) ∧
    (∀ x, Keeps (State.setDm · n x)) ∧ (∀ x, Keeps (State.setSp · n x)) := by
  refine ⟨?_, ?_, ?_, ?_, ?_, ?_, ?_, ?_⟩ <;> intros <;> intro s h <;>
    simp_all [State.wf, State.memWf, State.coreWf, State.edgeWf, State.ioWf, State.setTm, State.setKt, State.setLp, State.setSnd,
      State.setPn, State.setEn, State.setDm, State.setSp, twf_tset]

/-- The tables inside the interrupt controller, the colophon, the keeper and the wall, and the held low halves. -/
theorem keeps_inner (n : Nat) :
    (∀ o, Keeps (State.setOffer · n o)) ∧ (∀ t, Keeps (State.setTokens · n t)) ∧ (∀ b, Keeps (State.setSat · n b)) ∧
    (∀ m, Keeps (State.setMove · n m)) ∧ (∀ t, Keeps (State.setDom · n t)) ∧ (∀ b, Keeps (State.setKept · n b)) ∧
    (∀ p, Keeps (State.learn · n p)) ∧ (∀ v, Keeps (State.holdLow · n v)) := by
  refine ⟨?_, ?_, ?_, ?_, ?_, ?_, ?_, ?_⟩ <;> intros <;> intro s h <;>
    simp_all [State.wf, State.memWf, State.coreWf, State.edgeWf, State.ioWf, State.setOffer, State.setTokens, State.setSat,
      State.setMove, State.setDom, State.setKept, State.learn, State.setRho, State.holdLow, twf_tset]

/-- Entries put back to their defaults together: a domain's pages, a link's routes. -/
theorem keeps_clear (n : Nat) : Keeps (State.clearPages · n) ∧ Keeps (State.forget · n) := by
  refine ⟨?_, ?_⟩ <;> intro s h <;>
    simp_all [State.wf, State.memWf, State.coreWf, State.edgeWf, State.ioWf, State.clearPages, State.forget, State.setRho, twf_tclear,
      twf_filter]

theorem keeps_setArrWord (w : Nat) (v : BitVec 72) : Keeps (State.setArrWord · w v) := by
  intro s h
  simp only [State.wf, State.memWf, List.all_cons, Bool.and_eq_true, id_eq] at h ⊢
  have e := memory_wf_setArrWord (s := s) w v h.1.1.1.2.2.1 h.1.1.1.2.2.2.1
  exact ⟨⟨⟨⟨h.1.1.1.1, h.1.1.1.2.1, e.1, e.2, h.1.1.1.2.2.2.2⟩, h.1.1.2⟩, h.1.2⟩, h.2⟩

/-! Records that hold tables beside plain fields: with their tables kept, the rest of the record may be anything. -/

theorem wf_of_col {s : State} {c : Colophon} (h : (c.ring, c.tokens, c.sat) = (s.col.ring, s.col.tokens, s.col.sat)) :
    State.wf { s with col := c } = s.wf := by
  obtain ⟨h1, h2, h3⟩ : c.ring = s.col.ring ∧ c.tokens = s.col.tokens ∧ c.sat = s.col.sat := by simpa using h
  simp only [State.wf, State.edgeWf, State.memWf, State.coreWf, State.ioWf, h1, h2, h3]

theorem wf_of_pwr {s : State} {p : Power} (h : (p.cur, p.moves, p.kept) = (s.pwr.cur, s.pwr.moves, s.pwr.kept)) :
    State.wf { s with pwr := p } = s.wf := by
  obtain ⟨h1, h2, h3⟩ : p.cur = s.pwr.cur ∧ p.moves = s.pwr.moves ∧ p.kept = s.pwr.kept := by simpa using h
  simp only [State.wf, State.edgeWf, State.memWf, State.coreWf, State.ioWf, h1, h2, h3]

theorem wf_of_rho {s : State} {r : Rho} (h : r.routes = s.rho.routes) : (s.setRho r).wf = s.wf := by
  simp only [State.wf, State.ioWf, State.memWf, State.coreWf, State.edgeWf, State.setRho, h]

theorem wf_of_resp {s : State} {r : Responses} (h : r.gpio = s.resp.gpio) : State.wf { s with resp := r } = s.wf := by
  simp only [State.wf, State.ioWf, State.memWf, State.coreWf, State.edgeWf, h]

/-! The shared operations of `Machine/Ops.lean`. -/

/-- Writes of register fields and counts. -/
theorem keeps_fields (f : RF) (n page : Nat) :
    Keeps (State.put · f n) ∧ Keeps (State.add · f n) ∧ Keeps (State.inc · f) ∧ Keeps (State.err · page) ∧ Keeps (State.rej · page) := by
  refine ⟨?_, ?_, ?_, ?_, ?_⟩ <;> exact fun s => keeps_setReg _ _ s

/-- Posting an event and raising an interrupt source. -/
theorem keeps_post_raise (b : Bool) (n : Nat) : Keeps (State.postIf · b n) ∧ Keeps (State.raiseIf · b n) := by
  constructor
  · intro s h
    simp only [State.postIf, State.post]
    split
    · split <;> exact h
    · exact h
  · intro s h
    simp only [State.raiseIf, State.raise]
    split
    · split
      · split
        · exact (keeps_fields _ 0 0).2.2.1 s h
        · exact (keeps_fields _ 1 0).1 s h
      · exact h
    · exact h

theorem keeps_suppress (code : Nat) : Keeps (State.suppress · code) := by
  intro s h
  simp only [State.suppress]
  split
  · exact (keeps_inner code).2.2.1 true s h
  · exact (keeps_fields _ 0 0).2.2.1 s h

/-- An occurrence at the colophon, whatever becomes of it. -/
theorem keeps_occur (code source : Nat) (sw : Bool) (a0 a1 a2 : Word) : Keeps (State.occur · code source sw a0 a1 a2) := by
  have put : ∀ (f : RF) (v : Nat), Keeps (State.put · f v) := fun f v => (keeps_fields f v 0).1
  have inc : ∀ f : RF, Keeps (State.inc · f) := fun f => (keeps_fields f 0 0).2.2.1
  have sat : ∀ n b, Keeps (State.setSat · n b) := fun n => (keeps_inner n).2.2.1
  have take : Keeps (State.intakePut · code source sw a0 a1 a2) := by
    intro s h
    simp only [State.intakePut]
    rw [wf_of_col (by rfl)]
    exact sat _ _ _ (put _ _ s h)
  have lose : ∀ p, Keeps (State.displace · p) := by
    intro p s h
    simp only [State.displace]
    refine keeps_suppress _ _ (inc _ _ ?_)
    rw [wf_of_col (by rfl)]
    exact sat _ _ _ (put _ _ s h)
  have acc : Keeps (State.accept · code source sw a0 a1 a2) := by
    intro s h
    simp only [State.accept]
    split
    · split
      · exact take _ (lose _ s h)
      · exact keeps_suppress _ _ (inc _ s h)
    · exact take s h
  intro s h
  simp only [State.occur]
  split
  · simp only [State.occurFrozen]
    rw [wf_of_col (by rfl)]
    split
    · exact inc _ _ (inc _ s h)
    · exact inc _ s h
  · split
    · rw [wf_of_col (by rfl)]
      exact keeps_suppress _ s h
    · split
      · exact acc s h
      · split
        · exact inc _ _ (keeps_suppress _ s h)
        · exact acc _ ((keeps_inner code).2.1 _ s h)

/-- The error response to a host access. -/
theorem keeps_errorResponse (window isWrite : Bool) (offset cause : Nat) : Keeps (State.errorResponse · window isWrite offset cause) := by
  intro s h
  have hs : ∀ t : State, t.wf = true → ∀ r : Responses, r.gpio = t.resp.gpio → State.wf { t with resp := r } = true := by
    intro t ht r hr
    rw [wf_of_resp hr]
    exact ht
  simp only [State.errorResponse]
  split <;> refine hs _ (keeps_occur _ _ _ _ _ _ _ ?_) _ rfl <;> split
  all_goals first
    | exact (keeps_post_raise _ _).1 _ ((keeps_fields _ _ 0).1 _ ((keeps_fields _ 0 0).2.2.1 s h))
    | exact h

end Sys2Proof.Machine
end

