-- ==== Sys2Proof/Laws/Regs.lean ====
section
/-! SUPPORT. Laws of the register home: a register or field read after it is written, and every other one unchanged. -/

namespace Sys2Proof.Machine

variable (s : State) (f g : RF) (k j v n : Nat) (x : Word)

@[simp] theorem reg_setReg_self : (s.setReg k x).reg k = x := by simp [State.reg, State.setReg]

@[simp] theorem reg_setReg_ne (h : j ≠ k) : (s.setReg k x).reg j = s.reg j := by simp [State.reg, State.setReg, h]

theorem reg_setReg : (s.setReg k x).reg j = if j = k then x else s.reg j := by
  by_cases h : j = k
  · simp [h]
  · simp [h]

@[simp] theorem get_setReg_self : (s.setReg f.key x).get f = fld x f.lo f.width := by simp [State.get]

@[simp] theorem get_setReg_ne (h : f.key ≠ k) : (s.setReg k x).get f = s.get f := by simp [State.get, h]

@[simp] theorem reg_put_ne (h : k ≠ f.key) : (s.put f v).reg k = s.reg k := by simp [State.put, h]

theorem reg_put_self : (s.put f v).reg f.key = setFld (s.reg f.key) f.lo f.width v := by simp [State.put]

/-- A field reads as what was put, up to its width. -/
@[simp] theorem get_put_self (h : f.lo + f.width ≤ 64) : (s.put f v).get f = v % 2 ^ f.width := by
  simp only [State.get, State.put, reg_setReg_self, fld_setFld_self _ _ _ _ h]

/-- A field of another register keeps its value. -/
@[simp] theorem get_put_key (h : g.key ≠ f.key) : (s.put f v).get g = s.get g := by simp [State.put, h]

/-- Another field of the same register keeps its value. -/
theorem get_put_beside (h : g.key = f.key) (hd : f.lo + f.width ≤ g.lo ∨ g.lo + g.width ≤ f.lo) :
    (s.put f v).get g = s.get g := by
  simp only [State.get, State.put, h, reg_setReg_self, fld_setFld_other _ _ _ _ _ _ hd]

/-- A field is smaller than its width allows. -/
theorem get_lt : s.get f < 2 ^ f.width := fld_lt _ _ _

theorem on_iff : s.on f = true ↔ s.get f ≠ 0 := by simp [State.on]

/-- A saturating count counts up to its maximum (R61). -/
theorem get_add_self (h : f.lo + f.width ≤ 64) : (s.add f n).get f = Nat.min (s.get f + n) (2 ^ f.width - 1) := by
  rw [State.add, get_put_self _ _ _ h, Nat.mod_eq_of_lt]
  have : 0 < 2 ^ f.width := Nat.two_pow_pos _
  exact Nat.lt_of_le_of_lt (Nat.min_le_right _ _) (by omega)

theorem get_inc_self (h : f.lo + f.width ≤ 64) : (s.inc f).get f = Nat.min (s.get f + 1) (2 ^ f.width - 1) := get_add_self s f 1 h

@[simp] theorem get_add_key (h : g.key ≠ f.key) : (s.add f n).get g = s.get g := get_put_key s f g _ h

@[simp] theorem get_inc_key (h : g.key ≠ f.key) : (s.inc f).get g = s.get g := get_put_key s f g _ h

@[simp] theorem reg_add_ne (h : k ≠ f.key) : (s.add f n).reg k = s.reg k := reg_put_ne s f k _ h

@[simp] theorem reg_inc_ne (h : k ≠ f.key) : (s.inc f).reg k = s.reg k := reg_put_ne s f k _ h

/-- A rejected write is counted once (R411). -/
theorem get_rej (page : Nat) : (s.rej page).get (rejcnt page) = Nat.min (s.get (rejcnt page) + 1) (2 ^ 32 - 1) :=
  get_inc_self s (rejcnt page) (by simp [rejcnt])

/-- An error is counted (R16, R409). -/
theorem get_err (page : Nat) : (s.err page).get (errcnt page) = Nat.min (s.get (errcnt page) + 1) (2 ^ 32 - 1) :=
  get_inc_self s (errcnt page) (by simp [errcnt])

end Sys2Proof.Machine
end

