-- ==== Sys2Proof/Laws/State.lean ====
section
/-! SUPPORT. One lemma per field per update of the state, each true by rfl: an update changes its own field and no other. -/

namespace Sys2Proof.Machine

variable (s : State)

/-! `setReg` changes `regs` alone. -/

@[simp] theorem setReg_pending (k : Nat) (x : Word) : (s.setReg k x).pending = s.pending := rfl
@[simp] theorem setReg_fclk (k : Nat) (x : Word) : (s.setReg k x).fclk = s.fclk := rfl
@[simp] theorem setReg_freeCtr (k : Nat) (x : Word) : (s.setReg k x).freeCtr = s.freeCtr := rfl
@[simp] theorem setReg_held (k : Nat) (x : Word) : (s.setReg k x).held = s.held := rfl
@[simp] theorem setReg_mem (k : Nat) (x : Word) : (s.setReg k x).mem = s.mem := rfl
@[simp] theorem setReg_chk (k : Nat) (x : Word) : (s.setReg k x).chk = s.chk := rfl
@[simp] theorem setReg_cst (k : Nat) (x : Word) : (s.setReg k x).cst = s.cst := rfl
@[simp] theorem setReg_disp (k : Nat) (x : Word) : (s.setReg k x).disp = s.disp := rfl
@[simp] theorem setReg_snap (k : Nat) (x : Word) : (s.setReg k x).snap = s.snap := rfl
@[simp] theorem setReg_posted (k : Nat) (x : Word) : (s.setReg k x).posted = s.posted := rfl
@[simp] theorem setReg_ctx (k : Nat) (x : Word) : (s.setReg k x).ctx = s.ctx := rfl
@[simp] theorem setReg_qui (k : Nat) (x : Word) : (s.setReg k x).qui = s.qui := rfl
@[simp] theorem setReg_qsl (k : Nat) (x : Word) : (s.setReg k x).qsl = s.qsl := rfl
@[simp] theorem setReg_qdErr (k : Nat) (x : Word) : (s.setReg k x).qdErr = s.qdErr := rfl
@[simp] theorem setReg_bnk (k : Nat) (x : Word) : (s.setReg k x).bnk = s.bnk := rfl
@[simp] theorem setReg_beam (k : Nat) (x : Word) : (s.setReg k x).beam = s.beam := rfl
@[simp] theorem setReg_tmr (k : Nat) (x : Word) : (s.setReg k x).tmr = s.tmr := rfl
@[simp] theorem setReg_keep (k : Nat) (x : Word) : (s.setReg k x).keep = s.keep := rfl
@[simp] theorem setReg_cvtrig (k : Nat) (x : Word) : (s.setReg k x).cvtrig = s.cvtrig := rfl
@[simp] theorem setReg_lp (k : Nat) (x : Word) : (s.setReg k x).lp = s.lp := rfl
@[simp] theorem setReg_snd (k : Nat) (x : Word) : (s.setReg k x).snd = s.snd := rfl
@[simp] theorem setReg_blit (k : Nat) (x : Word) : (s.setReg k x).blit = s.blit := rfl
@[simp] theorem setReg_int (k : Nat) (x : Word) : (s.setReg k x).int = s.int := rfl
@[simp] theorem setReg_tdr (k : Nat) (x : Word) : (s.setReg k x).tdr = s.tdr := rfl
@[simp] theorem setReg_qdHigh (k : Nat) (x : Word) : (s.setReg k x).qdHigh = s.qdHigh := rfl
@[simp] theorem setReg_col (k : Nat) (x : Word) : (s.setReg k x).col = s.col := rfl
@[simp] theorem setReg_prs (k : Nat) (x : Word) : (s.setReg k x).prs = s.prs := rfl
@[simp] theorem setReg_pwr (k : Nat) (x : Word) : (s.setReg k x).pwr = s.pwr := rfl
@[simp] theorem setReg_fuse (k : Nat) (x : Word) : (s.setReg k x).fuse = s.fuse := rfl
@[simp] theorem setReg_pin (k : Nat) (x : Word) : (s.setReg k x).pin = s.pin := rfl
@[simp] theorem setReg_pio (k : Nat) (x : Word) : (s.setReg k x).pio = s.pio := rfl
@[simp] theorem setReg_heard (k : Nat) (x : Word) : (s.setReg k x).heard = s.heard := rfl
@[simp] theorem setReg_dma (k : Nat) (x : Word) : (s.setReg k x).dma = s.dma := rfl
@[simp] theorem setReg_dmaTurn (k : Nat) (x : Word) : (s.setReg k x).dmaTurn = s.dmaTurn := rfl
@[simp] theorem setReg_hm (k : Nat) (x : Word) : (s.setReg k x).hm = s.hm := rfl
@[simp] theorem setReg_resp (k : Nat) (x : Word) : (s.setReg k x).resp = s.resp := rfl
@[simp] theorem setReg_bw (k : Nat) (x : Word) : (s.setReg k x).bw = s.bw := rfl
@[simp] theorem setReg_sti (k : Nat) (x : Word) : (s.setReg k x).sti = s.sti := rfl
@[simp] theorem setReg_rho (k : Nat) (x : Word) : (s.setReg k x).rho = s.rho := rfl
@[simp] theorem setReg_cx (k : Nat) (x : Word) (j : Nat) : (s.setReg k x).cx j = s.cx j := rfl
@[simp] theorem setReg_qu (k : Nat) (x : Word) (j : Nat) : (s.setReg k x).qu j = s.qu j := rfl
@[simp] theorem setReg_sl (k : Nat) (x : Word) (j : Nat) : (s.setReg k x).sl j = s.sl j := rfl
@[simp] theorem setReg_bk (k : Nat) (x : Word) (j : Nat) : (s.setReg k x).bk j = s.bk j := rfl
@[simp] theorem setReg_tm (k : Nat) (x : Word) (j : Nat) : (s.setReg k x).tm j = s.tm j := rfl
@[simp] theorem setReg_kt (k : Nat) (x : Word) (j : Nat) : (s.setReg k x).kt j = s.kt j := rfl
@[simp] theorem setReg_pn (k : Nat) (x : Word) (j : Nat) : (s.setReg k x).pn j = s.pn j := rfl
@[simp] theorem setReg_en (k : Nat) (x : Word) (j : Nat) : (s.setReg k x).en j = s.en j := rfl
@[simp] theorem setReg_dm (k : Nat) (x : Word) (j : Nat) : (s.setReg k x).dm j = s.dm j := rfl
@[simp] theorem setReg_sp (k : Nat) (x : Word) (j : Nat) : (s.setReg k x).sp j = s.sp j := rfl
@[simp] theorem setReg_lpp (k : Nat) (x : Word) (j : Nat) : (s.setReg k x).lpp j = s.lpp j := rfl
@[simp] theorem setReg_sp8 (k : Nat) (x : Word) (j : Nat) : (s.setReg k x).sp8 j = s.sp8 j := rfl
@[simp] theorem setReg_offerOf (k : Nat) (x : Word) (j : Nat) : (s.setReg k x).offerOf j = s.offerOf j := rfl
@[simp] theorem setReg_move (k : Nat) (x : Word) (j : Nat) : (s.setReg k x).move j = s.move j := rfl
@[simp] theorem setReg_isKept (k : Nat) (x : Word) (j : Nat) : (s.setReg k x).isKept j = s.isKept j := rfl
@[simp] theorem setReg_domState (k : Nat) (x : Word) (j : Nat) : (s.setReg k x).domState j = s.domState j := rfl
@[simp] theorem setReg_unitOn (k : Nat) (x : Word) (j : Nat) : (s.setReg k x).unitOn j = s.unitOn j := rfl
@[simp] theorem setReg_unitKept (k : Nat) (x : Word) (j : Nat) : (s.setReg k x).unitKept j = s.unitKept j := rfl
@[simp] theorem setReg_pageUp (k : Nat) (x : Word) (j : Nat) : (s.setReg k x).pageUp j = s.pageUp j := rfl

/-! `put` changes `regs` alone. -/

@[simp] theorem put_pending (f : RF) (v : Nat) : (s.put f v).pending = s.pending := rfl
@[simp] theorem put_fclk (f : RF) (v : Nat) : (s.put f v).fclk = s.fclk := rfl
@[simp] theorem put_freeCtr (f : RF) (v : Nat) : (s.put f v).freeCtr = s.freeCtr := rfl
@[simp] theorem put_held (f : RF) (v : Nat) : (s.put f v).held = s.held := rfl
@[simp] theorem put_mem (f : RF) (v : Nat) : (s.put f v).mem = s.mem := rfl
@[simp] theorem put_chk (f : RF) (v : Nat) : (s.put f v).chk = s.chk := rfl
@[simp] theorem put_cst (f : RF) (v : Nat) : (s.put f v).cst = s.cst := rfl
@[simp] theorem put_disp (f : RF) (v : Nat) : (s.put f v).disp = s.disp := rfl
@[simp] theorem put_snap (f : RF) (v : Nat) : (s.put f v).snap = s.snap := rfl
@[simp] theorem put_posted (f : RF) (v : Nat) : (s.put f v).posted = s.posted := rfl
@[simp] theorem put_ctx (f : RF) (v : Nat) : (s.put f v).ctx = s.ctx := rfl
@[simp] theorem put_qui (f : RF) (v : Nat) : (s.put f v).qui = s.qui := rfl
@[simp] theorem put_qsl (f : RF) (v : Nat) : (s.put f v).qsl = s.qsl := rfl
@[simp] theorem put_qdErr (f : RF) (v : Nat) : (s.put f v).qdErr = s.qdErr := rfl
@[simp] theorem put_bnk (f : RF) (v : Nat) : (s.put f v).bnk = s.bnk := rfl
@[simp] theorem put_beam (f : RF) (v : Nat) : (s.put f v).beam = s.beam := rfl
@[simp] theorem put_tmr (f : RF) (v : Nat) : (s.put f v).tmr = s.tmr := rfl
@[simp] theorem put_keep (f : RF) (v : Nat) : (s.put f v).keep = s.keep := rfl
@[simp] theorem put_cvtrig (f : RF) (v : Nat) : (s.put f v).cvtrig = s.cvtrig := rfl
@[simp] theorem put_lp (f : RF) (v : Nat) : (s.put f v).lp = s.lp := rfl
@[simp] theorem put_snd (f : RF) (v : Nat) : (s.put f v).snd = s.snd := rfl
@[simp] theorem put_blit (f : RF) (v : Nat) : (s.put f v).blit = s.blit := rfl
@[simp] theorem put_int (f : RF) (v : Nat) : (s.put f v).int = s.int := rfl
@[simp] theorem put_tdr (f : RF) (v : Nat) : (s.put f v).tdr = s.tdr := rfl
@[simp] theorem put_qdHigh (f : RF) (v : Nat) : (s.put f v).qdHigh = s.qdHigh := rfl
@[simp] theorem put_col (f : RF) (v : Nat) : (s.put f v).col = s.col := rfl
@[simp] theorem put_prs (f : RF) (v : Nat) : (s.put f v).prs = s.prs := rfl
@[simp] theorem put_pwr (f : RF) (v : Nat) : (s.put f v).pwr = s.pwr := rfl
@[simp] theorem put_fuse (f : RF) (v : Nat) : (s.put f v).fuse = s.fuse := rfl
@[simp] theorem put_pin (f : RF) (v : Nat) : (s.put f v).pin = s.pin := rfl
@[simp] theorem put_pio (f : RF) (v : Nat) : (s.put f v).pio = s.pio := rfl
@[simp] theorem put_heard (f : RF) (v : Nat) : (s.put f v).heard = s.heard := rfl
@[simp] theorem put_dma (f : RF) (v : Nat) : (s.put f v).dma = s.dma := rfl
@[simp] theorem put_dmaTurn (f : RF) (v : Nat) : (s.put f v).dmaTurn = s.dmaTurn := rfl
@[simp] theorem put_hm (f : RF) (v : Nat) : (s.put f v).hm = s.hm := rfl
@[simp] theorem put_resp (f : RF) (v : Nat) : (s.put f v).resp = s.resp := rfl
@[simp] theorem put_bw (f : RF) (v : Nat) : (s.put f v).bw = s.bw := rfl
@[simp] theorem put_sti (f : RF) (v : Nat) : (s.put f v).sti = s.sti := rfl
@[simp] theorem put_rho (f : RF) (v : Nat) : (s.put f v).rho = s.rho := rfl
@[simp] theorem put_cx (f : RF) (v : Nat) (j : Nat) : (s.put f v).cx j = s.cx j := rfl
@[simp] theorem put_qu (f : RF) (v : Nat) (j : Nat) : (s.put f v).qu j = s.qu j := rfl
@[simp] theorem put_sl (f : RF) (v : Nat) (j : Nat) : (s.put f v).sl j = s.sl j := rfl
@[simp] theorem put_bk (f : RF) (v : Nat) (j : Nat) : (s.put f v).bk j = s.bk j := rfl
@[simp] theorem put_tm (f : RF) (v : Nat) (j : Nat) : (s.put f v).tm j = s.tm j := rfl
@[simp] theorem put_kt (f : RF) (v : Nat) (j : Nat) : (s.put f v).kt j = s.kt j := rfl
@[simp] theorem put_pn (f : RF) (v : Nat) (j : Nat) : (s.put f v).pn j = s.pn j := rfl
@[simp] theorem put_en (f : RF) (v : Nat) (j : Nat) : (s.put f v).en j = s.en j := rfl
@[simp] theorem put_dm (f : RF) (v : Nat) (j : Nat) : (s.put f v).dm j = s.dm j := rfl
@[simp] theorem put_sp (f : RF) (v : Nat) (j : Nat) : (s.put f v).sp j = s.sp j := rfl
@[simp] theorem put_lpp (f : RF) (v : Nat) (j : Nat) : (s.put f v).lpp j = s.lpp j := rfl
@[simp] theorem put_sp8 (f : RF) (v : Nat) (j : Nat) : (s.put f v).sp8 j = s.sp8 j := rfl
@[simp] theorem put_offerOf (f : RF) (v : Nat) (j : Nat) : (s.put f v).offerOf j = s.offerOf j := rfl
@[simp] theorem put_move (f : RF) (v : Nat) (j : Nat) : (s.put f v).move j = s.move j := rfl
@[simp] theorem put_isKept (f : RF) (v : Nat) (j : Nat) : (s.put f v).isKept j = s.isKept j := rfl
@[simp] theorem put_domState (f : RF) (v : Nat) (j : Nat) : (s.put f v).domState j = s.domState j := rfl
@[simp] theorem put_unitOn (f : RF) (v : Nat) (j : Nat) : (s.put f v).unitOn j = s.unitOn j := rfl
@[simp] theorem put_unitKept (f : RF) (v : Nat) (j : Nat) : (s.put f v).unitKept j = s.unitKept j := rfl
@[simp] theorem put_pageUp (f : RF) (v : Nat) (j : Nat) : (s.put f v).pageUp j = s.pageUp j := rfl

/-! `add` changes `regs` alone. -/

@[simp] theorem add_pending (f : RF) (n : Nat) : (s.add f n).pending = s.pending := rfl
@[simp] theorem add_fclk (f : RF) (n : Nat) : (s.add f n).fclk = s.fclk := rfl
@[simp] theorem add_freeCtr (f : RF) (n : Nat) : (s.add f n).freeCtr = s.freeCtr := rfl
@[simp] theorem add_held (f : RF) (n : Nat) : (s.add f n).held = s.held := rfl
@[simp] theorem add_mem (f : RF) (n : Nat) : (s.add f n).mem = s.mem := rfl
@[simp] theorem add_chk (f : RF) (n : Nat) : (s.add f n).chk = s.chk := rfl
@[simp] theorem add_cst (f : RF) (n : Nat) : (s.add f n).cst = s.cst := rfl
@[simp] theorem add_disp (f : RF) (n : Nat) : (s.add f n).disp = s.disp := rfl
@[simp] theorem add_snap (f : RF) (n : Nat) : (s.add f n).snap = s.snap := rfl
@[simp] theorem add_posted (f : RF) (n : Nat) : (s.add f n).posted = s.posted := rfl
@[simp] theorem add_ctx (f : RF) (n : Nat) : (s.add f n).ctx = s.ctx := rfl
@[simp] theorem add_qui (f : RF) (n : Nat) : (s.add f n).qui = s.qui := rfl
@[simp] theorem add_qsl (f : RF) (n : Nat) : (s.add f n).qsl = s.qsl := rfl
@[simp] theorem add_qdErr (f : RF) (n : Nat) : (s.add f n).qdErr = s.qdErr := rfl
@[simp] theorem add_bnk (f : RF) (n : Nat) : (s.add f n).bnk = s.bnk := rfl
@[simp] theorem add_beam (f : RF) (n : Nat) : (s.add f n).beam = s.beam := rfl
@[simp] theorem add_tmr (f : RF) (n : Nat) : (s.add f n).tmr = s.tmr := rfl
@[simp] theorem add_keep (f : RF) (n : Nat) : (s.add f n).keep = s.keep := rfl
@[simp] theorem add_cvtrig (f : RF) (n : Nat) : (s.add f n).cvtrig = s.cvtrig := rfl
@[simp] theorem add_lp (f : RF) (n : Nat) : (s.add f n).lp = s.lp := rfl
@[simp] theorem add_snd (f : RF) (n : Nat) : (s.add f n).snd = s.snd := rfl
@[simp] theorem add_blit (f : RF) (n : Nat) : (s.add f n).blit = s.blit := rfl
@[simp] theorem add_int (f : RF) (n : Nat) : (s.add f n).int = s.int := rfl
@[simp] theorem add_tdr (f : RF) (n : Nat) : (s.add f n).tdr = s.tdr := rfl
@[simp] theorem add_qdHigh (f : RF) (n : Nat) : (s.add f n).qdHigh = s.qdHigh := rfl
@[simp] theorem add_col (f : RF) (n : Nat) : (s.add f n).col = s.col := rfl
@[simp] theorem add_prs (f : RF) (n : Nat) : (s.add f n).prs = s.prs := rfl
@[simp] theorem add_pwr (f : RF) (n : Nat) : (s.add f n).pwr = s.pwr := rfl
@[simp] theorem add_fuse (f : RF) (n : Nat) : (s.add f n).fuse = s.fuse := rfl
@[simp] theorem add_pin (f : RF) (n : Nat) : (s.add f n).pin = s.pin := rfl
@[simp] theorem add_pio (f : RF) (n : Nat) : (s.add f n).pio = s.pio := rfl
@[simp] theorem add_heard (f : RF) (n : Nat) : (s.add f n).heard = s.heard := rfl
@[simp] theorem add_dma (f : RF) (n : Nat) : (s.add f n).dma = s.dma := rfl
@[simp] theorem add_dmaTurn (f : RF) (n : Nat) : (s.add f n).dmaTurn = s.dmaTurn := rfl
@[simp] theorem add_hm (f : RF) (n : Nat) : (s.add f n).hm = s.hm := rfl
@[simp] theorem add_resp (f : RF) (n : Nat) : (s.add f n).resp = s.resp := rfl
@[simp] theorem add_bw (f : RF) (n : Nat) : (s.add f n).bw = s.bw := rfl
@[simp] theorem add_sti (f : RF) (n : Nat) : (s.add f n).sti = s.sti := rfl
@[simp] theorem add_rho (f : RF) (n : Nat) : (s.add f n).rho = s.rho := rfl
@[simp] theorem add_cx (f : RF) (n : Nat) (j : Nat) : (s.add f n).cx j = s.cx j := rfl
@[simp] theorem add_qu (f : RF) (n : Nat) (j : Nat) : (s.add f n).qu j = s.qu j := rfl
@[simp] theorem add_sl (f : RF) (n : Nat) (j : Nat) : (s.add f n).sl j = s.sl j := rfl
@[simp] theorem add_bk (f : RF) (n : Nat) (j : Nat) : (s.add f n).bk j = s.bk j := rfl
@[simp] theorem add_tm (f : RF) (n : Nat) (j : Nat) : (s.add f n).tm j = s.tm j := rfl
@[simp] theorem add_kt (f : RF) (n : Nat) (j : Nat) : (s.add f n).kt j = s.kt j := rfl
@[simp] theorem add_pn (f : RF) (n : Nat) (j : Nat) : (s.add f n).pn j = s.pn j := rfl
@[simp] theorem add_en (f : RF) (n : Nat) (j : Nat) : (s.add f n).en j = s.en j := rfl
@[simp] theorem add_dm (f : RF) (n : Nat) (j : Nat) : (s.add f n).dm j = s.dm j := rfl
@[simp] theorem add_sp (f : RF) (n : Nat) (j : Nat) : (s.add f n).sp j = s.sp j := rfl
@[simp] theorem add_lpp (f : RF) (n : Nat) (j : Nat) : (s.add f n).lpp j = s.lpp j := rfl
@[simp] theorem add_sp8 (f : RF) (n : Nat) (j : Nat) : (s.add f n).sp8 j = s.sp8 j := rfl
@[simp] theorem add_offerOf (f : RF) (n : Nat) (j : Nat) : (s.add f n).offerOf j = s.offerOf j := rfl
@[simp] theorem add_move (f : RF) (n : Nat) (j : Nat) : (s.add f n).move j = s.move j := rfl
@[simp] theorem add_isKept (f : RF) (n : Nat) (j : Nat) : (s.add f n).isKept j = s.isKept j := rfl
@[simp] theorem add_domState (f : RF) (n : Nat) (j : Nat) : (s.add f n).domState j = s.domState j := rfl
@[simp] theorem add_unitOn (f : RF) (n : Nat) (j : Nat) : (s.add f n).unitOn j = s.unitOn j := rfl
@[simp] theorem add_unitKept (f : RF) (n : Nat) (j : Nat) : (s.add f n).unitKept j = s.unitKept j := rfl
@[simp] theorem add_pageUp (f : RF) (n : Nat) (j : Nat) : (s.add f n).pageUp j = s.pageUp j := rfl

/-! `inc` changes `regs` alone. -/

@[simp] theorem inc_pending (f : RF) : (s.inc f).pending = s.pending := rfl
@[simp] theorem inc_fclk (f : RF) : (s.inc f).fclk = s.fclk := rfl
@[simp] theorem inc_freeCtr (f : RF) : (s.inc f).freeCtr = s.freeCtr := rfl
@[simp] theorem inc_held (f : RF) : (s.inc f).held = s.held := rfl
@[simp] theorem inc_mem (f : RF) : (s.inc f).mem = s.mem := rfl
@[simp] theorem inc_chk (f : RF) : (s.inc f).chk = s.chk := rfl
@[simp] theorem inc_cst (f : RF) : (s.inc f).cst = s.cst := rfl
@[simp] theorem inc_disp (f : RF) : (s.inc f).disp = s.disp := rfl
@[simp] theorem inc_snap (f : RF) : (s.inc f).snap = s.snap := rfl
@[simp] theorem inc_posted (f : RF) : (s.inc f).posted = s.posted := rfl
@[simp] theorem inc_ctx (f : RF) : (s.inc f).ctx = s.ctx := rfl
@[simp] theorem inc_qui (f : RF) : (s.inc f).qui = s.qui := rfl
@[simp] theorem inc_qsl (f : RF) : (s.inc f).qsl = s.qsl := rfl
@[simp] theorem inc_qdErr (f : RF) : (s.inc f).qdErr = s.qdErr := rfl
@[simp] theorem inc_bnk (f : RF) : (s.inc f).bnk = s.bnk := rfl
@[simp] theorem inc_beam (f : RF) : (s.inc f).beam = s.beam := rfl
@[simp] theorem inc_tmr (f : RF) : (s.inc f).tmr = s.tmr := rfl
@[simp] theorem inc_keep (f : RF) : (s.inc f).keep = s.keep := rfl
@[simp] theorem inc_cvtrig (f : RF) : (s.inc f).cvtrig = s.cvtrig := rfl
@[simp] theorem inc_lp (f : RF) : (s.inc f).lp = s.lp := rfl
@[simp] theorem inc_snd (f : RF) : (s.inc f).snd = s.snd := rfl
@[simp] theorem inc_blit (f : RF) : (s.inc f).blit = s.blit := rfl
@[simp] theorem inc_int (f : RF) : (s.inc f).int = s.int := rfl
@[simp] theorem inc_tdr (f : RF) : (s.inc f).tdr = s.tdr := rfl
@[simp] theorem inc_qdHigh (f : RF) : (s.inc f).qdHigh = s.qdHigh := rfl
@[simp] theorem inc_col (f : RF) : (s.inc f).col = s.col := rfl
@[simp] theorem inc_prs (f : RF) : (s.inc f).prs = s.prs := rfl
@[simp] theorem inc_pwr (f : RF) : (s.inc f).pwr = s.pwr := rfl
@[simp] theorem inc_fuse (f : RF) : (s.inc f).fuse = s.fuse := rfl
@[simp] theorem inc_pin (f : RF) : (s.inc f).pin = s.pin := rfl
@[simp] theorem inc_pio (f : RF) : (s.inc f).pio = s.pio := rfl
@[simp] theorem inc_heard (f : RF) : (s.inc f).heard = s.heard := rfl
@[simp] theorem inc_dma (f : RF) : (s.inc f).dma = s.dma := rfl
@[simp] theorem inc_dmaTurn (f : RF) : (s.inc f).dmaTurn = s.dmaTurn := rfl
@[simp] theorem inc_hm (f : RF) : (s.inc f).hm = s.hm := rfl
@[simp] theorem inc_resp (f : RF) : (s.inc f).resp = s.resp := rfl
@[simp] theorem inc_bw (f : RF) : (s.inc f).bw = s.bw := rfl
@[simp] theorem inc_sti (f : RF) : (s.inc f).sti = s.sti := rfl
@[simp] theorem inc_rho (f : RF) : (s.inc f).rho = s.rho := rfl
@[simp] theorem inc_cx (f : RF) (j : Nat) : (s.inc f).cx j = s.cx j := rfl
@[simp] theorem inc_qu (f : RF) (j : Nat) : (s.inc f).qu j = s.qu j := rfl
@[simp] theorem inc_sl (f : RF) (j : Nat) : (s.inc f).sl j = s.sl j := rfl
@[simp] theorem inc_bk (f : RF) (j : Nat) : (s.inc f).bk j = s.bk j := rfl
@[simp] theorem inc_tm (f : RF) (j : Nat) : (s.inc f).tm j = s.tm j := rfl
@[simp] theorem inc_kt (f : RF) (j : Nat) : (s.inc f).kt j = s.kt j := rfl
@[simp] theorem inc_pn (f : RF) (j : Nat) : (s.inc f).pn j = s.pn j := rfl
@[simp] theorem inc_en (f : RF) (j : Nat) : (s.inc f).en j = s.en j := rfl
@[simp] theorem inc_dm (f : RF) (j : Nat) : (s.inc f).dm j = s.dm j := rfl
@[simp] theorem inc_sp (f : RF) (j : Nat) : (s.inc f).sp j = s.sp j := rfl
@[simp] theorem inc_lpp (f : RF) (j : Nat) : (s.inc f).lpp j = s.lpp j := rfl
@[simp] theorem inc_sp8 (f : RF) (j : Nat) : (s.inc f).sp8 j = s.sp8 j := rfl
@[simp] theorem inc_offerOf (f : RF) (j : Nat) : (s.inc f).offerOf j = s.offerOf j := rfl
@[simp] theorem inc_move (f : RF) (j : Nat) : (s.inc f).move j = s.move j := rfl
@[simp] theorem inc_isKept (f : RF) (j : Nat) : (s.inc f).isKept j = s.isKept j := rfl
@[simp] theorem inc_domState (f : RF) (j : Nat) : (s.inc f).domState j = s.domState j := rfl
@[simp] theorem inc_unitOn (f : RF) (j : Nat) : (s.inc f).unitOn j = s.unitOn j := rfl
@[simp] theorem inc_unitKept (f : RF) (j : Nat) : (s.inc f).unitKept j = s.unitKept j := rfl
@[simp] theorem inc_pageUp (f : RF) (j : Nat) : (s.inc f).pageUp j = s.pageUp j := rfl

/-! `err` changes `regs` alone. -/

@[simp] theorem err_pending (page : Nat) : (s.err page).pending = s.pending := rfl
@[simp] theorem err_fclk (page : Nat) : (s.err page).fclk = s.fclk := rfl
@[simp] theorem err_freeCtr (page : Nat) : (s.err page).freeCtr = s.freeCtr := rfl
@[simp] theorem err_held (page : Nat) : (s.err page).held = s.held := rfl
@[simp] theorem err_mem (page : Nat) : (s.err page).mem = s.mem := rfl
@[simp] theorem err_chk (page : Nat) : (s.err page).chk = s.chk := rfl
@[simp] theorem err_cst (page : Nat) : (s.err page).cst = s.cst := rfl
@[simp] theorem err_disp (page : Nat) : (s.err page).disp = s.disp := rfl
@[simp] theorem err_snap (page : Nat) : (s.err page).snap = s.snap := rfl
@[simp] theorem err_posted (page : Nat) : (s.err page).posted = s.posted := rfl
@[simp] theorem err_ctx (page : Nat) : (s.err page).ctx = s.ctx := rfl
@[simp] theorem err_qui (page : Nat) : (s.err page).qui = s.qui := rfl
@[simp] theorem err_qsl (page : Nat) : (s.err page).qsl = s.qsl := rfl
@[simp] theorem err_qdErr (page : Nat) : (s.err page).qdErr = s.qdErr := rfl
@[simp] theorem err_bnk (page : Nat) : (s.err page).bnk = s.bnk := rfl
@[simp] theorem err_beam (page : Nat) : (s.err page).beam = s.beam := rfl
@[simp] theorem err_tmr (page : Nat) : (s.err page).tmr = s.tmr := rfl
@[simp] theorem err_keep (page : Nat) : (s.err page).keep = s.keep := rfl
@[simp] theorem err_cvtrig (page : Nat) : (s.err page).cvtrig = s.cvtrig := rfl
@[simp] theorem err_lp (page : Nat) : (s.err page).lp = s.lp := rfl
@[simp] theorem err_snd (page : Nat) : (s.err page).snd = s.snd := rfl
@[simp] theorem err_blit (page : Nat) : (s.err page).blit = s.blit := rfl
@[simp] theorem err_int (page : Nat) : (s.err page).int = s.int := rfl
@[simp] theorem err_tdr (page : Nat) : (s.err page).tdr = s.tdr := rfl
@[simp] theorem err_qdHigh (page : Nat) : (s.err page).qdHigh = s.qdHigh := rfl
@[simp] theorem err_col (page : Nat) : (s.err page).col = s.col := rfl
@[simp] theorem err_prs (page : Nat) : (s.err page).prs = s.prs := rfl
@[simp] theorem err_pwr (page : Nat) : (s.err page).pwr = s.pwr := rfl
@[simp] theorem err_fuse (page : Nat) : (s.err page).fuse = s.fuse := rfl
@[simp] theorem err_pin (page : Nat) : (s.err page).pin = s.pin := rfl
@[simp] theorem err_pio (page : Nat) : (s.err page).pio = s.pio := rfl
@[simp] theorem err_heard (page : Nat) : (s.err page).heard = s.heard := rfl
@[simp] theorem err_dma (page : Nat) : (s.err page).dma = s.dma := rfl
@[simp] theorem err_dmaTurn (page : Nat) : (s.err page).dmaTurn = s.dmaTurn := rfl
@[simp] theorem err_hm (page : Nat) : (s.err page).hm = s.hm := rfl
@[simp] theorem err_resp (page : Nat) : (s.err page).resp = s.resp := rfl
@[simp] theorem err_bw (page : Nat) : (s.err page).bw = s.bw := rfl
@[simp] theorem err_sti (page : Nat) : (s.err page).sti = s.sti := rfl
@[simp] theorem err_rho (page : Nat) : (s.err page).rho = s.rho := rfl
@[simp] theorem err_cx (page : Nat) (j : Nat) : (s.err page).cx j = s.cx j := rfl
@[simp] theorem err_qu (page : Nat) (j : Nat) : (s.err page).qu j = s.qu j := rfl
@[simp] theorem err_sl (page : Nat) (j : Nat) : (s.err page).sl j = s.sl j := rfl
@[simp] theorem err_bk (page : Nat) (j : Nat) : (s.err page).bk j = s.bk j := rfl
@[simp] theorem err_tm (page : Nat) (j : Nat) : (s.err page).tm j = s.tm j := rfl
@[simp] theorem err_kt (page : Nat) (j : Nat) : (s.err page).kt j = s.kt j := rfl
@[simp] theorem err_pn (page : Nat) (j : Nat) : (s.err page).pn j = s.pn j := rfl
@[simp] theorem err_en (page : Nat) (j : Nat) : (s.err page).en j = s.en j := rfl
@[simp] theorem err_dm (page : Nat) (j : Nat) : (s.err page).dm j = s.dm j := rfl
@[simp] theorem err_sp (page : Nat) (j : Nat) : (s.err page).sp j = s.sp j := rfl
@[simp] theorem err_lpp (page : Nat) (j : Nat) : (s.err page).lpp j = s.lpp j := rfl
@[simp] theorem err_sp8 (page : Nat) (j : Nat) : (s.err page).sp8 j = s.sp8 j := rfl
@[simp] theorem err_offerOf (page : Nat) (j : Nat) : (s.err page).offerOf j = s.offerOf j := rfl
@[simp] theorem err_move (page : Nat) (j : Nat) : (s.err page).move j = s.move j := rfl
@[simp] theorem err_isKept (page : Nat) (j : Nat) : (s.err page).isKept j = s.isKept j := rfl
@[simp] theorem err_domState (page : Nat) (j : Nat) : (s.err page).domState j = s.domState j := rfl
@[simp] theorem err_unitOn (page : Nat) (j : Nat) : (s.err page).unitOn j = s.unitOn j := rfl
@[simp] theorem err_unitKept (page : Nat) (j : Nat) : (s.err page).unitKept j = s.unitKept j := rfl
@[simp] theorem err_pageUp (page : Nat) (j : Nat) : (s.err page).pageUp j = s.pageUp j := rfl

/-! `rej` changes `regs` alone. -/

@[simp] theorem rej_pending (page : Nat) : (s.rej page).pending = s.pending := rfl
@[simp] theorem rej_fclk (page : Nat) : (s.rej page).fclk = s.fclk := rfl
@[simp] theorem rej_freeCtr (page : Nat) : (s.rej page).freeCtr = s.freeCtr := rfl
@[simp] theorem rej_held (page : Nat) : (s.rej page).held = s.held := rfl
@[simp] theorem rej_mem (page : Nat) : (s.rej page).mem = s.mem := rfl
@[simp] theorem rej_chk (page : Nat) : (s.rej page).chk = s.chk := rfl
@[simp] theorem rej_cst (page : Nat) : (s.rej page).cst = s.cst := rfl
@[simp] theorem rej_disp (page : Nat) : (s.rej page).disp = s.disp := rfl
@[simp] theorem rej_snap (page : Nat) : (s.rej page).snap = s.snap := rfl
@[simp] theorem rej_posted (page : Nat) : (s.rej page).posted = s.posted := rfl
@[simp] theorem rej_ctx (page : Nat) : (s.rej page).ctx = s.ctx := rfl
@[simp] theorem rej_qui (page : Nat) : (s.rej page).qui = s.qui := rfl
@[simp] theorem rej_qsl (page : Nat) : (s.rej page).qsl = s.qsl := rfl
@[simp] theorem rej_qdErr (page : Nat) : (s.rej page).qdErr = s.qdErr := rfl
@[simp] theorem rej_bnk (page : Nat) : (s.rej page).bnk = s.bnk := rfl
@[simp] theorem rej_beam (page : Nat) : (s.rej page).beam = s.beam := rfl
@[simp] theorem rej_tmr (page : Nat) : (s.rej page).tmr = s.tmr := rfl
@[simp] theorem rej_keep (page : Nat) : (s.rej page).keep = s.keep := rfl
@[simp] theorem rej_cvtrig (page : Nat) : (s.rej page).cvtrig = s.cvtrig := rfl
@[simp] theorem rej_lp (page : Nat) : (s.rej page).lp = s.lp := rfl
@[simp] theorem rej_snd (page : Nat) : (s.rej page).snd = s.snd := rfl
@[simp] theorem rej_blit (page : Nat) : (s.rej page).blit = s.blit := rfl
@[simp] theorem rej_int (page : Nat) : (s.rej page).int = s.int := rfl
@[simp] theorem rej_tdr (page : Nat) : (s.rej page).tdr = s.tdr := rfl
@[simp] theorem rej_qdHigh (page : Nat) : (s.rej page).qdHigh = s.qdHigh := rfl
@[simp] theorem rej_col (page : Nat) : (s.rej page).col = s.col := rfl
@[simp] theorem rej_prs (page : Nat) : (s.rej page).prs = s.prs := rfl
@[simp] theorem rej_pwr (page : Nat) : (s.rej page).pwr = s.pwr := rfl
@[simp] theorem rej_fuse (page : Nat) : (s.rej page).fuse = s.fuse := rfl
@[simp] theorem rej_pin (page : Nat) : (s.rej page).pin = s.pin := rfl
@[simp] theorem rej_pio (page : Nat) : (s.rej page).pio = s.pio := rfl
@[simp] theorem rej_heard (page : Nat) : (s.rej page).heard = s.heard := rfl
@[simp] theorem rej_dma (page : Nat) : (s.rej page).dma = s.dma := rfl
@[simp] theorem rej_dmaTurn (page : Nat) : (s.rej page).dmaTurn = s.dmaTurn := rfl
@[simp] theorem rej_hm (page : Nat) : (s.rej page).hm = s.hm := rfl
@[simp] theorem rej_resp (page : Nat) : (s.rej page).resp = s.resp := rfl
@[simp] theorem rej_bw (page : Nat) : (s.rej page).bw = s.bw := rfl
@[simp] theorem rej_sti (page : Nat) : (s.rej page).sti = s.sti := rfl
@[simp] theorem rej_rho (page : Nat) : (s.rej page).rho = s.rho := rfl
@[simp] theorem rej_cx (page : Nat) (j : Nat) : (s.rej page).cx j = s.cx j := rfl
@[simp] theorem rej_qu (page : Nat) (j : Nat) : (s.rej page).qu j = s.qu j := rfl
@[simp] theorem rej_sl (page : Nat) (j : Nat) : (s.rej page).sl j = s.sl j := rfl
@[simp] theorem rej_bk (page : Nat) (j : Nat) : (s.rej page).bk j = s.bk j := rfl
@[simp] theorem rej_tm (page : Nat) (j : Nat) : (s.rej page).tm j = s.tm j := rfl
@[simp] theorem rej_kt (page : Nat) (j : Nat) : (s.rej page).kt j = s.kt j := rfl
@[simp] theorem rej_pn (page : Nat) (j : Nat) : (s.rej page).pn j = s.pn j := rfl
@[simp] theorem rej_en (page : Nat) (j : Nat) : (s.rej page).en j = s.en j := rfl
@[simp] theorem rej_dm (page : Nat) (j : Nat) : (s.rej page).dm j = s.dm j := rfl
@[simp] theorem rej_sp (page : Nat) (j : Nat) : (s.rej page).sp j = s.sp j := rfl
@[simp] theorem rej_lpp (page : Nat) (j : Nat) : (s.rej page).lpp j = s.lpp j := rfl
@[simp] theorem rej_sp8 (page : Nat) (j : Nat) : (s.rej page).sp8 j = s.sp8 j := rfl
@[simp] theorem rej_offerOf (page : Nat) (j : Nat) : (s.rej page).offerOf j = s.offerOf j := rfl
@[simp] theorem rej_move (page : Nat) (j : Nat) : (s.rej page).move j = s.move j := rfl
@[simp] theorem rej_isKept (page : Nat) (j : Nat) : (s.rej page).isKept j = s.isKept j := rfl
@[simp] theorem rej_domState (page : Nat) (j : Nat) : (s.rej page).domState j = s.domState j := rfl
@[simp] theorem rej_unitOn (page : Nat) (j : Nat) : (s.rej page).unitOn j = s.unitOn j := rfl
@[simp] theorem rej_unitKept (page : Nat) (j : Nat) : (s.rej page).unitKept j = s.unitKept j := rfl
@[simp] theorem rej_pageUp (page : Nat) (j : Nat) : (s.rej page).pageUp j = s.pageUp j := rfl

/-! `setCx` changes `ctx` alone. -/

@[simp] theorem setCx_pending (c : Nat) (x : Ctx) : (s.setCx c x).pending = s.pending := rfl
@[simp] theorem setCx_fclk (c : Nat) (x : Ctx) : (s.setCx c x).fclk = s.fclk := rfl
@[simp] theorem setCx_freeCtr (c : Nat) (x : Ctx) : (s.setCx c x).freeCtr = s.freeCtr := rfl
@[simp] theorem setCx_regs (c : Nat) (x : Ctx) : (s.setCx c x).regs = s.regs := rfl
@[simp] theorem setCx_held (c : Nat) (x : Ctx) : (s.setCx c x).held = s.held := rfl
@[simp] theorem setCx_mem (c : Nat) (x : Ctx) : (s.setCx c x).mem = s.mem := rfl
@[simp] theorem setCx_chk (c : Nat) (x : Ctx) : (s.setCx c x).chk = s.chk := rfl
@[simp] theorem setCx_cst (c : Nat) (x : Ctx) : (s.setCx c x).cst = s.cst := rfl
@[simp] theorem setCx_disp (c : Nat) (x : Ctx) : (s.setCx c x).disp = s.disp := rfl
@[simp] theorem setCx_snap (c : Nat) (x : Ctx) : (s.setCx c x).snap = s.snap := rfl
@[simp] theorem setCx_posted (c : Nat) (x : Ctx) : (s.setCx c x).posted = s.posted := rfl
@[simp] theorem setCx_qui (c : Nat) (x : Ctx) : (s.setCx c x).qui = s.qui := rfl
@[simp] theorem setCx_qsl (c : Nat) (x : Ctx) : (s.setCx c x).qsl = s.qsl := rfl
@[simp] theorem setCx_qdErr (c : Nat) (x : Ctx) : (s.setCx c x).qdErr = s.qdErr := rfl
@[simp] theorem setCx_bnk (c : Nat) (x : Ctx) : (s.setCx c x).bnk = s.bnk := rfl
@[simp] theorem setCx_beam (c : Nat) (x : Ctx) : (s.setCx c x).beam = s.beam := rfl
@[simp] theorem setCx_tmr (c : Nat) (x : Ctx) : (s.setCx c x).tmr = s.tmr := rfl
@[simp] theorem setCx_keep (c : Nat) (x : Ctx) : (s.setCx c x).keep = s.keep := rfl
@[simp] theorem setCx_cvtrig (c : Nat) (x : Ctx) : (s.setCx c x).cvtrig = s.cvtrig := rfl
@[simp] theorem setCx_lp (c : Nat) (x : Ctx) : (s.setCx c x).lp = s.lp := rfl
@[simp] theorem setCx_snd (c : Nat) (x : Ctx) : (s.setCx c x).snd = s.snd := rfl
@[simp] theorem setCx_blit (c : Nat) (x : Ctx) : (s.setCx c x).blit = s.blit := rfl
@[simp] theorem setCx_int (c : Nat) (x : Ctx) : (s.setCx c x).int = s.int := rfl
@[simp] theorem setCx_tdr (c : Nat) (x : Ctx) : (s.setCx c x).tdr = s.tdr := rfl
@[simp] theorem setCx_qdHigh (c : Nat) (x : Ctx) : (s.setCx c x).qdHigh = s.qdHigh := rfl
@[simp] theorem setCx_col (c : Nat) (x : Ctx) : (s.setCx c x).col = s.col := rfl
@[simp] theorem setCx_prs (c : Nat) (x : Ctx) : (s.setCx c x).prs = s.prs := rfl
@[simp] theorem setCx_pwr (c : Nat) (x : Ctx) : (s.setCx c x).pwr = s.pwr := rfl
@[simp] theorem setCx_fuse (c : Nat) (x : Ctx) : (s.setCx c x).fuse = s.fuse := rfl
@[simp] theorem setCx_pin (c : Nat) (x : Ctx) : (s.setCx c x).pin = s.pin := rfl
@[simp] theorem setCx_pio (c : Nat) (x : Ctx) : (s.setCx c x).pio = s.pio := rfl
@[simp] theorem setCx_heard (c : Nat) (x : Ctx) : (s.setCx c x).heard = s.heard := rfl
@[simp] theorem setCx_dma (c : Nat) (x : Ctx) : (s.setCx c x).dma = s.dma := rfl
@[simp] theorem setCx_dmaTurn (c : Nat) (x : Ctx) : (s.setCx c x).dmaTurn = s.dmaTurn := rfl
@[simp] theorem setCx_hm (c : Nat) (x : Ctx) : (s.setCx c x).hm = s.hm := rfl
@[simp] theorem setCx_resp (c : Nat) (x : Ctx) : (s.setCx c x).resp = s.resp := rfl
@[simp] theorem setCx_bw (c : Nat) (x : Ctx) : (s.setCx c x).bw = s.bw := rfl
@[simp] theorem setCx_sti (c : Nat) (x : Ctx) : (s.setCx c x).sti = s.sti := rfl
@[simp] theorem setCx_rho (c : Nat) (x : Ctx) : (s.setCx c x).rho = s.rho := rfl
@[simp] theorem setCx_reg (c : Nat) (x : Ctx) (j : Nat) : (s.setCx c x).reg j = s.reg j := rfl
@[simp] theorem setCx_get (c : Nat) (x : Ctx) (g : RF) : (s.setCx c x).get g = s.get g := rfl
@[simp] theorem setCx_on (c : Nat) (x : Ctx) (g : RF) : (s.setCx c x).on g = s.on g := rfl
@[simp] theorem setCx_qu (c : Nat) (x : Ctx) (j : Nat) : (s.setCx c x).qu j = s.qu j := rfl
@[simp] theorem setCx_sl (c : Nat) (x : Ctx) (j : Nat) : (s.setCx c x).sl j = s.sl j := rfl
@[simp] theorem setCx_bk (c : Nat) (x : Ctx) (j : Nat) : (s.setCx c x).bk j = s.bk j := rfl
@[simp] theorem setCx_tm (c : Nat) (x : Ctx) (j : Nat) : (s.setCx c x).tm j = s.tm j := rfl
@[simp] theorem setCx_kt (c : Nat) (x : Ctx) (j : Nat) : (s.setCx c x).kt j = s.kt j := rfl
@[simp] theorem setCx_pn (c : Nat) (x : Ctx) (j : Nat) : (s.setCx c x).pn j = s.pn j := rfl
@[simp] theorem setCx_en (c : Nat) (x : Ctx) (j : Nat) : (s.setCx c x).en j = s.en j := rfl
@[simp] theorem setCx_dm (c : Nat) (x : Ctx) (j : Nat) : (s.setCx c x).dm j = s.dm j := rfl
@[simp] theorem setCx_sp (c : Nat) (x : Ctx) (j : Nat) : (s.setCx c x).sp j = s.sp j := rfl
@[simp] theorem setCx_lpp (c : Nat) (x : Ctx) (j : Nat) : (s.setCx c x).lpp j = s.lpp j := rfl
@[simp] theorem setCx_sp8 (c : Nat) (x : Ctx) (j : Nat) : (s.setCx c x).sp8 j = s.sp8 j := rfl
@[simp] theorem setCx_offerOf (c : Nat) (x : Ctx) (j : Nat) : (s.setCx c x).offerOf j = s.offerOf j := rfl
@[simp] theorem setCx_move (c : Nat) (x : Ctx) (j : Nat) : (s.setCx c x).move j = s.move j := rfl
@[simp] theorem setCx_isKept (c : Nat) (x : Ctx) (j : Nat) : (s.setCx c x).isKept j = s.isKept j := rfl
@[simp] theorem setCx_domState (c : Nat) (x : Ctx) (j : Nat) : (s.setCx c x).domState j = s.domState j := rfl
@[simp] theorem setCx_unitOn (c : Nat) (x : Ctx) (j : Nat) : (s.setCx c x).unitOn j = s.unitOn j := rfl
@[simp] theorem setCx_unitKept (c : Nat) (x : Ctx) (j : Nat) : (s.setCx c x).unitKept j = s.unitKept j := rfl
@[simp] theorem setCx_pageUp (c : Nat) (x : Ctx) (j : Nat) : (s.setCx c x).pageUp j = s.pageUp j := rfl

/-! `setQu` changes `qui` alone. -/

@[simp] theorem setQu_pending (c : Nat) (x : Quire) : (s.setQu c x).pending = s.pending := rfl
@[simp] theorem setQu_fclk (c : Nat) (x : Quire) : (s.setQu c x).fclk = s.fclk := rfl
@[simp] theorem setQu_freeCtr (c : Nat) (x : Quire) : (s.setQu c x).freeCtr = s.freeCtr := rfl
@[simp] theorem setQu_regs (c : Nat) (x : Quire) : (s.setQu c x).regs = s.regs := rfl
@[simp] theorem setQu_held (c : Nat) (x : Quire) : (s.setQu c x).held = s.held := rfl
@[simp] theorem setQu_mem (c : Nat) (x : Quire) : (s.setQu c x).mem = s.mem := rfl
@[simp] theorem setQu_chk (c : Nat) (x : Quire) : (s.setQu c x).chk = s.chk := rfl
@[simp] theorem setQu_cst (c : Nat) (x : Quire) : (s.setQu c x).cst = s.cst := rfl
@[simp] theorem setQu_disp (c : Nat) (x : Quire) : (s.setQu c x).disp = s.disp := rfl
@[simp] theorem setQu_snap (c : Nat) (x : Quire) : (s.setQu c x).snap = s.snap := rfl
@[simp] theorem setQu_posted (c : Nat) (x : Quire) : (s.setQu c x).posted = s.posted := rfl
@[simp] theorem setQu_ctx (c : Nat) (x : Quire) : (s.setQu c x).ctx = s.ctx := rfl
@[simp] theorem setQu_qsl (c : Nat) (x : Quire) : (s.setQu c x).qsl = s.qsl := rfl
@[simp] theorem setQu_qdErr (c : Nat) (x : Quire) : (s.setQu c x).qdErr = s.qdErr := rfl
@[simp] theorem setQu_bnk (c : Nat) (x : Quire) : (s.setQu c x).bnk = s.bnk := rfl
@[simp] theorem setQu_beam (c : Nat) (x : Quire) : (s.setQu c x).beam = s.beam := rfl
@[simp] theorem setQu_tmr (c : Nat) (x : Quire) : (s.setQu c x).tmr = s.tmr := rfl
@[simp] theorem setQu_keep (c : Nat) (x : Quire) : (s.setQu c x).keep = s.keep := rfl
@[simp] theorem setQu_cvtrig (c : Nat) (x : Quire) : (s.setQu c x).cvtrig = s.cvtrig := rfl
@[simp] theorem setQu_lp (c : Nat) (x : Quire) : (s.setQu c x).lp = s.lp := rfl
@[simp] theorem setQu_snd (c : Nat) (x : Quire) : (s.setQu c x).snd = s.snd := rfl
@[simp] theorem setQu_blit (c : Nat) (x : Quire) : (s.setQu c x).blit = s.blit := rfl
@[simp] theorem setQu_int (c : Nat) (x : Quire) : (s.setQu c x).int = s.int := rfl
@[simp] theorem setQu_tdr (c : Nat) (x : Quire) : (s.setQu c x).tdr = s.tdr := rfl
@[simp] theorem setQu_qdHigh (c : Nat) (x : Quire) : (s.setQu c x).qdHigh = s.qdHigh := rfl
@[simp] theorem setQu_col (c : Nat) (x : Quire) : (s.setQu c x).col = s.col := rfl
@[simp] theorem setQu_prs (c : Nat) (x : Quire) : (s.setQu c x).prs = s.prs := rfl
@[simp] theorem setQu_pwr (c : Nat) (x : Quire) : (s.setQu c x).pwr = s.pwr := rfl
@[simp] theorem setQu_fuse (c : Nat) (x : Quire) : (s.setQu c x).fuse = s.fuse := rfl
@[simp] theorem setQu_pin (c : Nat) (x : Quire) : (s.setQu c x).pin = s.pin := rfl
@[simp] theorem setQu_pio (c : Nat) (x : Quire) : (s.setQu c x).pio = s.pio := rfl
@[simp] theorem setQu_heard (c : Nat) (x : Quire) : (s.setQu c x).heard = s.heard := rfl
@[simp] theorem setQu_dma (c : Nat) (x : Quire) : (s.setQu c x).dma = s.dma := rfl
@[simp] theorem setQu_dmaTurn (c : Nat) (x : Quire) : (s.setQu c x).dmaTurn = s.dmaTurn := rfl
@[simp] theorem setQu_hm (c : Nat) (x : Quire) : (s.setQu c x).hm = s.hm := rfl
@[simp] theorem setQu_resp (c : Nat) (x : Quire) : (s.setQu c x).resp = s.resp := rfl
@[simp] theorem setQu_bw (c : Nat) (x : Quire) : (s.setQu c x).bw = s.bw := rfl
@[simp] theorem setQu_sti (c : Nat) (x : Quire) : (s.setQu c x).sti = s.sti := rfl
@[simp] theorem setQu_rho (c : Nat) (x : Quire) : (s.setQu c x).rho = s.rho := rfl
@[simp] theorem setQu_reg (c : Nat) (x : Quire) (j : Nat) : (s.setQu c x).reg j = s.reg j := rfl
@[simp] theorem setQu_get (c : Nat) (x : Quire) (g : RF) : (s.setQu c x).get g = s.get g := rfl
@[simp] theorem setQu_on (c : Nat) (x : Quire) (g : RF) : (s.setQu c x).on g = s.on g := rfl
@[simp] theorem setQu_cx (c : Nat) (x : Quire) (j : Nat) : (s.setQu c x).cx j = s.cx j := rfl
@[simp] theorem setQu_sl (c : Nat) (x : Quire) (j : Nat) : (s.setQu c x).sl j = s.sl j := rfl
@[simp] theorem setQu_bk (c : Nat) (x : Quire) (j : Nat) : (s.setQu c x).bk j = s.bk j := rfl
@[simp] theorem setQu_tm (c : Nat) (x : Quire) (j : Nat) : (s.setQu c x).tm j = s.tm j := rfl
@[simp] theorem setQu_kt (c : Nat) (x : Quire) (j : Nat) : (s.setQu c x).kt j = s.kt j := rfl
@[simp] theorem setQu_pn (c : Nat) (x : Quire) (j : Nat) : (s.setQu c x).pn j = s.pn j := rfl
@[simp] theorem setQu_en (c : Nat) (x : Quire) (j : Nat) : (s.setQu c x).en j = s.en j := rfl
@[simp] theorem setQu_dm (c : Nat) (x : Quire) (j : Nat) : (s.setQu c x).dm j = s.dm j := rfl
@[simp] theorem setQu_sp (c : Nat) (x : Quire) (j : Nat) : (s.setQu c x).sp j = s.sp j := rfl
@[simp] theorem setQu_lpp (c : Nat) (x : Quire) (j : Nat) : (s.setQu c x).lpp j = s.lpp j := rfl
@[simp] theorem setQu_sp8 (c : Nat) (x : Quire) (j : Nat) : (s.setQu c x).sp8 j = s.sp8 j := rfl
@[simp] theorem setQu_offerOf (c : Nat) (x : Quire) (j : Nat) : (s.setQu c x).offerOf j = s.offerOf j := rfl
@[simp] theorem setQu_move (c : Nat) (x : Quire) (j : Nat) : (s.setQu c x).move j = s.move j := rfl
@[simp] theorem setQu_isKept (c : Nat) (x : Quire) (j : Nat) : (s.setQu c x).isKept j = s.isKept j := rfl
@[simp] theorem setQu_domState (c : Nat) (x : Quire) (j : Nat) : (s.setQu c x).domState j = s.domState j := rfl
@[simp] theorem setQu_unitOn (c : Nat) (x : Quire) (j : Nat) : (s.setQu c x).unitOn j = s.unitOn j := rfl
@[simp] theorem setQu_unitKept (c : Nat) (x : Quire) (j : Nat) : (s.setQu c x).unitKept j = s.unitKept j := rfl
@[simp] theorem setQu_pageUp (c : Nat) (x : Quire) (j : Nat) : (s.setQu c x).pageUp j = s.pageUp j := rfl

/-! `setSl` changes `qsl` alone. -/

@[simp] theorem setSl_pending (c : Nat) (x : Slice) : (s.setSl c x).pending = s.pending := rfl
@[simp] theorem setSl_fclk (c : Nat) (x : Slice) : (s.setSl c x).fclk = s.fclk := rfl
@[simp] theorem setSl_freeCtr (c : Nat) (x : Slice) : (s.setSl c x).freeCtr = s.freeCtr := rfl
@[simp] theorem setSl_regs (c : Nat) (x : Slice) : (s.setSl c x).regs = s.regs := rfl
@[simp] theorem setSl_held (c : Nat) (x : Slice) : (s.setSl c x).held = s.held := rfl
@[simp] theorem setSl_mem (c : Nat) (x : Slice) : (s.setSl c x).mem = s.mem := rfl
@[simp] theorem setSl_chk (c : Nat) (x : Slice) : (s.setSl c x).chk = s.chk := rfl
@[simp] theorem setSl_cst (c : Nat) (x : Slice) : (s.setSl c x).cst = s.cst := rfl
@[simp] theorem setSl_disp (c : Nat) (x : Slice) : (s.setSl c x).disp = s.disp := rfl
@[simp] theorem setSl_snap (c : Nat) (x : Slice) : (s.setSl c x).snap = s.snap := rfl
@[simp] theorem setSl_posted (c : Nat) (x : Slice) : (s.setSl c x).posted = s.posted := rfl
@[simp] theorem setSl_ctx (c : Nat) (x : Slice) : (s.setSl c x).ctx = s.ctx := rfl
@[simp] theorem setSl_qui (c : Nat) (x : Slice) : (s.setSl c x).qui = s.qui := rfl
@[simp] theorem setSl_qdErr (c : Nat) (x : Slice) : (s.setSl c x).qdErr = s.qdErr := rfl
@[simp] theorem setSl_bnk (c : Nat) (x : Slice) : (s.setSl c x).bnk = s.bnk := rfl
@[simp] theorem setSl_beam (c : Nat) (x : Slice) : (s.setSl c x).beam = s.beam := rfl
@[simp] theorem setSl_tmr (c : Nat) (x : Slice) : (s.setSl c x).tmr = s.tmr := rfl
@[simp] theorem setSl_keep (c : Nat) (x : Slice) : (s.setSl c x).keep = s.keep := rfl
@[simp] theorem setSl_cvtrig (c : Nat) (x : Slice) : (s.setSl c x).cvtrig = s.cvtrig := rfl
@[simp] theorem setSl_lp (c : Nat) (x : Slice) : (s.setSl c x).lp = s.lp := rfl
@[simp] theorem setSl_snd (c : Nat) (x : Slice) : (s.setSl c x).snd = s.snd := rfl
@[simp] theorem setSl_blit (c : Nat) (x : Slice) : (s.setSl c x).blit = s.blit := rfl
@[simp] theorem setSl_int (c : Nat) (x : Slice) : (s.setSl c x).int = s.int := rfl
@[simp] theorem setSl_tdr (c : Nat) (x : Slice) : (s.setSl c x).tdr = s.tdr := rfl
@[simp] theorem setSl_qdHigh (c : Nat) (x : Slice) : (s.setSl c x).qdHigh = s.qdHigh := rfl
@[simp] theorem setSl_col (c : Nat) (x : Slice) : (s.setSl c x).col = s.col := rfl
@[simp] theorem setSl_prs (c : Nat) (x : Slice) : (s.setSl c x).prs = s.prs := rfl
@[simp] theorem setSl_pwr (c : Nat) (x : Slice) : (s.setSl c x).pwr = s.pwr := rfl
@[simp] theorem setSl_fuse (c : Nat) (x : Slice) : (s.setSl c x).fuse = s.fuse := rfl
@[simp] theorem setSl_pin (c : Nat) (x : Slice) : (s.setSl c x).pin = s.pin := rfl
@[simp] theorem setSl_pio (c : Nat) (x : Slice) : (s.setSl c x).pio = s.pio := rfl
@[simp] theorem setSl_heard (c : Nat) (x : Slice) : (s.setSl c x).heard = s.heard := rfl
@[simp] theorem setSl_dma (c : Nat) (x : Slice) : (s.setSl c x).dma = s.dma := rfl
@[simp] theorem setSl_dmaTurn (c : Nat) (x : Slice) : (s.setSl c x).dmaTurn = s.dmaTurn := rfl
@[simp] theorem setSl_hm (c : Nat) (x : Slice) : (s.setSl c x).hm = s.hm := rfl
@[simp] theorem setSl_resp (c : Nat) (x : Slice) : (s.setSl c x).resp = s.resp := rfl
@[simp] theorem setSl_bw (c : Nat) (x : Slice) : (s.setSl c x).bw = s.bw := rfl
@[simp] theorem setSl_sti (c : Nat) (x : Slice) : (s.setSl c x).sti = s.sti := rfl
@[simp] theorem setSl_rho (c : Nat) (x : Slice) : (s.setSl c x).rho = s.rho := rfl
@[simp] theorem setSl_reg (c : Nat) (x : Slice) (j : Nat) : (s.setSl c x).reg j = s.reg j := rfl
@[simp] theorem setSl_get (c : Nat) (x : Slice) (g : RF) : (s.setSl c x).get g = s.get g := rfl
@[simp] theorem setSl_on (c : Nat) (x : Slice) (g : RF) : (s.setSl c x).on g = s.on g := rfl
@[simp] theorem setSl_cx (c : Nat) (x : Slice) (j : Nat) : (s.setSl c x).cx j = s.cx j := rfl
@[simp] theorem setSl_qu (c : Nat) (x : Slice) (j : Nat) : (s.setSl c x).qu j = s.qu j := rfl
@[simp] theorem setSl_bk (c : Nat) (x : Slice) (j : Nat) : (s.setSl c x).bk j = s.bk j := rfl
@[simp] theorem setSl_tm (c : Nat) (x : Slice) (j : Nat) : (s.setSl c x).tm j = s.tm j := rfl
@[simp] theorem setSl_kt (c : Nat) (x : Slice) (j : Nat) : (s.setSl c x).kt j = s.kt j := rfl
@[simp] theorem setSl_pn (c : Nat) (x : Slice) (j : Nat) : (s.setSl c x).pn j = s.pn j := rfl
@[simp] theorem setSl_en (c : Nat) (x : Slice) (j : Nat) : (s.setSl c x).en j = s.en j := rfl
@[simp] theorem setSl_dm (c : Nat) (x : Slice) (j : Nat) : (s.setSl c x).dm j = s.dm j := rfl
@[simp] theorem setSl_sp (c : Nat) (x : Slice) (j : Nat) : (s.setSl c x).sp j = s.sp j := rfl
@[simp] theorem setSl_lpp (c : Nat) (x : Slice) (j : Nat) : (s.setSl c x).lpp j = s.lpp j := rfl
@[simp] theorem setSl_sp8 (c : Nat) (x : Slice) (j : Nat) : (s.setSl c x).sp8 j = s.sp8 j := rfl
@[simp] theorem setSl_offerOf (c : Nat) (x : Slice) (j : Nat) : (s.setSl c x).offerOf j = s.offerOf j := rfl
@[simp] theorem setSl_move (c : Nat) (x : Slice) (j : Nat) : (s.setSl c x).move j = s.move j := rfl
@[simp] theorem setSl_isKept (c : Nat) (x : Slice) (j : Nat) : (s.setSl c x).isKept j = s.isKept j := rfl
@[simp] theorem setSl_domState (c : Nat) (x : Slice) (j : Nat) : (s.setSl c x).domState j = s.domState j := rfl
@[simp] theorem setSl_unitOn (c : Nat) (x : Slice) (j : Nat) : (s.setSl c x).unitOn j = s.unitOn j := rfl
@[simp] theorem setSl_unitKept (c : Nat) (x : Slice) (j : Nat) : (s.setSl c x).unitKept j = s.unitKept j := rfl
@[simp] theorem setSl_pageUp (c : Nat) (x : Slice) (j : Nat) : (s.setSl c x).pageUp j = s.pageUp j := rfl

/-! `setBk` changes `bnk` alone. -/

@[simp] theorem setBk_pending (c : Nat) (x : Bank) : (s.setBk c x).pending = s.pending := rfl
@[simp] theorem setBk_fclk (c : Nat) (x : Bank) : (s.setBk c x).fclk = s.fclk := rfl
@[simp] theorem setBk_freeCtr (c : Nat) (x : Bank) : (s.setBk c x).freeCtr = s.freeCtr := rfl
@[simp] theorem setBk_regs (c : Nat) (x : Bank) : (s.setBk c x).regs = s.regs := rfl
@[simp] theorem setBk_held (c : Nat) (x : Bank) : (s.setBk c x).held = s.held := rfl
@[simp] theorem setBk_mem (c : Nat) (x : Bank) : (s.setBk c x).mem = s.mem := rfl
@[simp] theorem setBk_chk (c : Nat) (x : Bank) : (s.setBk c x).chk = s.chk := rfl
@[simp] theorem setBk_cst (c : Nat) (x : Bank) : (s.setBk c x).cst = s.cst := rfl
@[simp] theorem setBk_disp (c : Nat) (x : Bank) : (s.setBk c x).disp = s.disp := rfl
@[simp] theorem setBk_snap (c : Nat) (x : Bank) : (s.setBk c x).snap = s.snap := rfl
@[simp] theorem setBk_posted (c : Nat) (x : Bank) : (s.setBk c x).posted = s.posted := rfl
@[simp] theorem setBk_ctx (c : Nat) (x : Bank) : (s.setBk c x).ctx = s.ctx := rfl
@[simp] theorem setBk_qui (c : Nat) (x : Bank) : (s.setBk c x).qui = s.qui := rfl
@[simp] theorem setBk_qsl (c : Nat) (x : Bank) : (s.setBk c x).qsl = s.qsl := rfl
@[simp] theorem setBk_qdErr (c : Nat) (x : Bank) : (s.setBk c x).qdErr = s.qdErr := rfl
@[simp] theorem setBk_beam (c : Nat) (x : Bank) : (s.setBk c x).beam = s.beam := rfl
@[simp] theorem setBk_tmr (c : Nat) (x : Bank) : (s.setBk c x).tmr = s.tmr := rfl
@[simp] theorem setBk_keep (c : Nat) (x : Bank) : (s.setBk c x).keep = s.keep := rfl
@[simp] theorem setBk_cvtrig (c : Nat) (x : Bank) : (s.setBk c x).cvtrig = s.cvtrig := rfl
@[simp] theorem setBk_lp (c : Nat) (x : Bank) : (s.setBk c x).lp = s.lp := rfl
@[simp] theorem setBk_snd (c : Nat) (x : Bank) : (s.setBk c x).snd = s.snd := rfl
@[simp] theorem setBk_blit (c : Nat) (x : Bank) : (s.setBk c x).blit = s.blit := rfl
@[simp] theorem setBk_int (c : Nat) (x : Bank) : (s.setBk c x).int = s.int := rfl
@[simp] theorem setBk_tdr (c : Nat) (x : Bank) : (s.setBk c x).tdr = s.tdr := rfl
@[simp] theorem setBk_qdHigh (c : Nat) (x : Bank) : (s.setBk c x).qdHigh = s.qdHigh := rfl
@[simp] theorem setBk_col (c : Nat) (x : Bank) : (s.setBk c x).col = s.col := rfl
@[simp] theorem setBk_prs (c : Nat) (x : Bank) : (s.setBk c x).prs = s.prs := rfl
@[simp] theorem setBk_pwr (c : Nat) (x : Bank) : (s.setBk c x).pwr = s.pwr := rfl
@[simp] theorem setBk_fuse (c : Nat) (x : Bank) : (s.setBk c x).fuse = s.fuse := rfl
@[simp] theorem setBk_pin (c : Nat) (x : Bank) : (s.setBk c x).pin = s.pin := rfl
@[simp] theorem setBk_pio (c : Nat) (x : Bank) : (s.setBk c x).pio = s.pio := rfl
@[simp] theorem setBk_heard (c : Nat) (x : Bank) : (s.setBk c x).heard = s.heard := rfl
@[simp] theorem setBk_dma (c : Nat) (x : Bank) : (s.setBk c x).dma = s.dma := rfl
@[simp] theorem setBk_dmaTurn (c : Nat) (x : Bank) : (s.setBk c x).dmaTurn = s.dmaTurn := rfl
@[simp] theorem setBk_hm (c : Nat) (x : Bank) : (s.setBk c x).hm = s.hm := rfl
@[simp] theorem setBk_resp (c : Nat) (x : Bank) : (s.setBk c x).resp = s.resp := rfl
@[simp] theorem setBk_bw (c : Nat) (x : Bank) : (s.setBk c x).bw = s.bw := rfl
@[simp] theorem setBk_sti (c : Nat) (x : Bank) : (s.setBk c x).sti = s.sti := rfl
@[simp] theorem setBk_rho (c : Nat) (x : Bank) : (s.setBk c x).rho = s.rho := rfl
@[simp] theorem setBk_reg (c : Nat) (x : Bank) (j : Nat) : (s.setBk c x).reg j = s.reg j := rfl
@[simp] theorem setBk_get (c : Nat) (x : Bank) (g : RF) : (s.setBk c x).get g = s.get g := rfl
@[simp] theorem setBk_on (c : Nat) (x : Bank) (g : RF) : (s.setBk c x).on g = s.on g := rfl
@[simp] theorem setBk_cx (c : Nat) (x : Bank) (j : Nat) : (s.setBk c x).cx j = s.cx j := rfl
@[simp] theorem setBk_qu (c : Nat) (x : Bank) (j : Nat) : (s.setBk c x).qu j = s.qu j := rfl
@[simp] theorem setBk_sl (c : Nat) (x : Bank) (j : Nat) : (s.setBk c x).sl j = s.sl j := rfl
@[simp] theorem setBk_tm (c : Nat) (x : Bank) (j : Nat) : (s.setBk c x).tm j = s.tm j := rfl
@[simp] theorem setBk_kt (c : Nat) (x : Bank) (j : Nat) : (s.setBk c x).kt j = s.kt j := rfl
@[simp] theorem setBk_pn (c : Nat) (x : Bank) (j : Nat) : (s.setBk c x).pn j = s.pn j := rfl
@[simp] theorem setBk_en (c : Nat) (x : Bank) (j : Nat) : (s.setBk c x).en j = s.en j := rfl
@[simp] theorem setBk_dm (c : Nat) (x : Bank) (j : Nat) : (s.setBk c x).dm j = s.dm j := rfl
@[simp] theorem setBk_sp (c : Nat) (x : Bank) (j : Nat) : (s.setBk c x).sp j = s.sp j := rfl
@[simp] theorem setBk_lpp (c : Nat) (x : Bank) (j : Nat) : (s.setBk c x).lpp j = s.lpp j := rfl
@[simp] theorem setBk_sp8 (c : Nat) (x : Bank) (j : Nat) : (s.setBk c x).sp8 j = s.sp8 j := rfl
@[simp] theorem setBk_offerOf (c : Nat) (x : Bank) (j : Nat) : (s.setBk c x).offerOf j = s.offerOf j := rfl
@[simp] theorem setBk_move (c : Nat) (x : Bank) (j : Nat) : (s.setBk c x).move j = s.move j := rfl
@[simp] theorem setBk_isKept (c : Nat) (x : Bank) (j : Nat) : (s.setBk c x).isKept j = s.isKept j := rfl
@[simp] theorem setBk_domState (c : Nat) (x : Bank) (j : Nat) : (s.setBk c x).domState j = s.domState j := rfl
@[simp] theorem setBk_unitOn (c : Nat) (x : Bank) (j : Nat) : (s.setBk c x).unitOn j = s.unitOn j := rfl
@[simp] theorem setBk_unitKept (c : Nat) (x : Bank) (j : Nat) : (s.setBk c x).unitKept j = s.unitKept j := rfl
@[simp] theorem setBk_pageUp (c : Nat) (x : Bank) (j : Nat) : (s.setBk c x).pageUp j = s.pageUp j := rfl

/-! `setTm` changes `tmr` alone. -/

@[simp] theorem setTm_pending (c : Nat) (x : Timer) : (s.setTm c x).pending = s.pending := rfl
@[simp] theorem setTm_fclk (c : Nat) (x : Timer) : (s.setTm c x).fclk = s.fclk := rfl
@[simp] theorem setTm_freeCtr (c : Nat) (x : Timer) : (s.setTm c x).freeCtr = s.freeCtr := rfl
@[simp] theorem setTm_regs (c : Nat) (x : Timer) : (s.setTm c x).regs = s.regs := rfl
@[simp] theorem setTm_held (c : Nat) (x : Timer) : (s.setTm c x).held = s.held := rfl
@[simp] theorem setTm_mem (c : Nat) (x : Timer) : (s.setTm c x).mem = s.mem := rfl
@[simp] theorem setTm_chk (c : Nat) (x : Timer) : (s.setTm c x).chk = s.chk := rfl
@[simp] theorem setTm_cst (c : Nat) (x : Timer) : (s.setTm c x).cst = s.cst := rfl
@[simp] theorem setTm_disp (c : Nat) (x : Timer) : (s.setTm c x).disp = s.disp := rfl
@[simp] theorem setTm_snap (c : Nat) (x : Timer) : (s.setTm c x).snap = s.snap := rfl
@[simp] theorem setTm_posted (c : Nat) (x : Timer) : (s.setTm c x).posted = s.posted := rfl
@[simp] theorem setTm_ctx (c : Nat) (x : Timer) : (s.setTm c x).ctx = s.ctx := rfl
@[simp] theorem setTm_qui (c : Nat) (x : Timer) : (s.setTm c x).qui = s.qui := rfl
@[simp] theorem setTm_qsl (c : Nat) (x : Timer) : (s.setTm c x).qsl = s.qsl := rfl
@[simp] theorem setTm_qdErr (c : Nat) (x : Timer) : (s.setTm c x).qdErr = s.qdErr := rfl
@[simp] theorem setTm_bnk (c : Nat) (x : Timer) : (s.setTm c x).bnk = s.bnk := rfl
@[simp] theorem setTm_beam (c : Nat) (x : Timer) : (s.setTm c x).beam = s.beam := rfl
@[simp] theorem setTm_keep (c : Nat) (x : Timer) : (s.setTm c x).keep = s.keep := rfl
@[simp] theorem setTm_cvtrig (c : Nat) (x : Timer) : (s.setTm c x).cvtrig = s.cvtrig := rfl
@[simp] theorem setTm_lp (c : Nat) (x : Timer) : (s.setTm c x).lp = s.lp := rfl
@[simp] theorem setTm_snd (c : Nat) (x : Timer) : (s.setTm c x).snd = s.snd := rfl
@[simp] theorem setTm_blit (c : Nat) (x : Timer) : (s.setTm c x).blit = s.blit := rfl
@[simp] theorem setTm_int (c : Nat) (x : Timer) : (s.setTm c x).int = s.int := rfl
@[simp] theorem setTm_tdr (c : Nat) (x : Timer) : (s.setTm c x).tdr = s.tdr := rfl
@[simp] theorem setTm_qdHigh (c : Nat) (x : Timer) : (s.setTm c x).qdHigh = s.qdHigh := rfl
@[simp] theorem setTm_col (c : Nat) (x : Timer) : (s.setTm c x).col = s.col := rfl
@[simp] theorem setTm_prs (c : Nat) (x : Timer) : (s.setTm c x).prs = s.prs := rfl
@[simp] theorem setTm_pwr (c : Nat) (x : Timer) : (s.setTm c x).pwr = s.pwr := rfl
@[simp] theorem setTm_fuse (c : Nat) (x : Timer) : (s.setTm c x).fuse = s.fuse := rfl
@[simp] theorem setTm_pin (c : Nat) (x : Timer) : (s.setTm c x).pin = s.pin := rfl
@[simp] theorem setTm_pio (c : Nat) (x : Timer) : (s.setTm c x).pio = s.pio := rfl
@[simp] theorem setTm_heard (c : Nat) (x : Timer) : (s.setTm c x).heard = s.heard := rfl
@[simp] theorem setTm_dma (c : Nat) (x : Timer) : (s.setTm c x).dma = s.dma := rfl
@[simp] theorem setTm_dmaTurn (c : Nat) (x : Timer) : (s.setTm c x).dmaTurn = s.dmaTurn := rfl
@[simp] theorem setTm_hm (c : Nat) (x : Timer) : (s.setTm c x).hm = s.hm := rfl
@[simp] theorem setTm_resp (c : Nat) (x : Timer) : (s.setTm c x).resp = s.resp := rfl
@[simp] theorem setTm_bw (c : Nat) (x : Timer) : (s.setTm c x).bw = s.bw := rfl
@[simp] theorem setTm_sti (c : Nat) (x : Timer) : (s.setTm c x).sti = s.sti := rfl
@[simp] theorem setTm_rho (c : Nat) (x : Timer) : (s.setTm c x).rho = s.rho := rfl
@[simp] theorem setTm_reg (c : Nat) (x : Timer) (j : Nat) : (s.setTm c x).reg j = s.reg j := rfl
@[simp] theorem setTm_get (c : Nat) (x : Timer) (g : RF) : (s.setTm c x).get g = s.get g := rfl
@[simp] theorem setTm_on (c : Nat) (x : Timer) (g : RF) : (s.setTm c x).on g = s.on g := rfl
@[simp] theorem setTm_cx (c : Nat) (x : Timer) (j : Nat) : (s.setTm c x).cx j = s.cx j := rfl
@[simp] theorem setTm_qu (c : Nat) (x : Timer) (j : Nat) : (s.setTm c x).qu j = s.qu j := rfl
@[simp] theorem setTm_sl (c : Nat) (x : Timer) (j : Nat) : (s.setTm c x).sl j = s.sl j := rfl
@[simp] theorem setTm_bk (c : Nat) (x : Timer) (j : Nat) : (s.setTm c x).bk j = s.bk j := rfl
@[simp] theorem setTm_kt (c : Nat) (x : Timer) (j : Nat) : (s.setTm c x).kt j = s.kt j := rfl
@[simp] theorem setTm_pn (c : Nat) (x : Timer) (j : Nat) : (s.setTm c x).pn j = s.pn j := rfl
@[simp] theorem setTm_en (c : Nat) (x : Timer) (j : Nat) : (s.setTm c x).en j = s.en j := rfl
@[simp] theorem setTm_dm (c : Nat) (x : Timer) (j : Nat) : (s.setTm c x).dm j = s.dm j := rfl
@[simp] theorem setTm_sp (c : Nat) (x : Timer) (j : Nat) : (s.setTm c x).sp j = s.sp j := rfl
@[simp] theorem setTm_lpp (c : Nat) (x : Timer) (j : Nat) : (s.setTm c x).lpp j = s.lpp j := rfl
@[simp] theorem setTm_sp8 (c : Nat) (x : Timer) (j : Nat) : (s.setTm c x).sp8 j = s.sp8 j := rfl
@[simp] theorem setTm_offerOf (c : Nat) (x : Timer) (j : Nat) : (s.setTm c x).offerOf j = s.offerOf j := rfl
@[simp] theorem setTm_move (c : Nat) (x : Timer) (j : Nat) : (s.setTm c x).move j = s.move j := rfl
@[simp] theorem setTm_isKept (c : Nat) (x : Timer) (j : Nat) : (s.setTm c x).isKept j = s.isKept j := rfl
@[simp] theorem setTm_domState (c : Nat) (x : Timer) (j : Nat) : (s.setTm c x).domState j = s.domState j := rfl
@[simp] theorem setTm_unitOn (c : Nat) (x : Timer) (j : Nat) : (s.setTm c x).unitOn j = s.unitOn j := rfl
@[simp] theorem setTm_unitKept (c : Nat) (x : Timer) (j : Nat) : (s.setTm c x).unitKept j = s.unitKept j := rfl
@[simp] theorem setTm_pageUp (c : Nat) (x : Timer) (j : Nat) : (s.setTm c x).pageUp j = s.pageUp j := rfl

/-! `setKt` changes `keep` alone. -/

@[simp] theorem setKt_pending (c : Nat) (x : Keeper) : (s.setKt c x).pending = s.pending := rfl
@[simp] theorem setKt_fclk (c : Nat) (x : Keeper) : (s.setKt c x).fclk = s.fclk := rfl
@[simp] theorem setKt_freeCtr (c : Nat) (x : Keeper) : (s.setKt c x).freeCtr = s.freeCtr := rfl
@[simp] theorem setKt_regs (c : Nat) (x : Keeper) : (s.setKt c x).regs = s.regs := rfl
@[simp] theorem setKt_held (c : Nat) (x : Keeper) : (s.setKt c x).held = s.held := rfl
@[simp] theorem setKt_mem (c : Nat) (x : Keeper) : (s.setKt c x).mem = s.mem := rfl
@[simp] theorem setKt_chk (c : Nat) (x : Keeper) : (s.setKt c x).chk = s.chk := rfl
@[simp] theorem setKt_cst (c : Nat) (x : Keeper) : (s.setKt c x).cst = s.cst := rfl
@[simp] theorem setKt_disp (c : Nat) (x : Keeper) : (s.setKt c x).disp = s.disp := rfl
@[simp] theorem setKt_snap (c : Nat) (x : Keeper) : (s.setKt c x).snap = s.snap := rfl
@[simp] theorem setKt_posted (c : Nat) (x : Keeper) : (s.setKt c x).posted = s.posted := rfl
@[simp] theorem setKt_ctx (c : Nat) (x : Keeper) : (s.setKt c x).ctx = s.ctx := rfl
@[simp] theorem setKt_qui (c : Nat) (x : Keeper) : (s.setKt c x).qui = s.qui := rfl
@[simp] theorem setKt_qsl (c : Nat) (x : Keeper) : (s.setKt c x).qsl = s.qsl := rfl
@[simp] theorem setKt_qdErr (c : Nat) (x : Keeper) : (s.setKt c x).qdErr = s.qdErr := rfl
@[simp] theorem setKt_bnk (c : Nat) (x : Keeper) : (s.setKt c x).bnk = s.bnk := rfl
@[simp] theorem setKt_beam (c : Nat) (x : Keeper) : (s.setKt c x).beam = s.beam := rfl
@[simp] theorem setKt_tmr (c : Nat) (x : Keeper) : (s.setKt c x).tmr = s.tmr := rfl
@[simp] theorem setKt_cvtrig (c : Nat) (x : Keeper) : (s.setKt c x).cvtrig = s.cvtrig := rfl
@[simp] theorem setKt_lp (c : Nat) (x : Keeper) : (s.setKt c x).lp = s.lp := rfl
@[simp] theorem setKt_snd (c : Nat) (x : Keeper) : (s.setKt c x).snd = s.snd := rfl
@[simp] theorem setKt_blit (c : Nat) (x : Keeper) : (s.setKt c x).blit = s.blit := rfl
@[simp] theorem setKt_int (c : Nat) (x : Keeper) : (s.setKt c x).int = s.int := rfl
@[simp] theorem setKt_tdr (c : Nat) (x : Keeper) : (s.setKt c x).tdr = s.tdr := rfl
@[simp] theorem setKt_qdHigh (c : Nat) (x : Keeper) : (s.setKt c x).qdHigh = s.qdHigh := rfl
@[simp] theorem setKt_col (c : Nat) (x : Keeper) : (s.setKt c x).col = s.col := rfl
@[simp] theorem setKt_prs (c : Nat) (x : Keeper) : (s.setKt c x).prs = s.prs := rfl
@[simp] theorem setKt_pwr (c : Nat) (x : Keeper) : (s.setKt c x).pwr = s.pwr := rfl
@[simp] theorem setKt_fuse (c : Nat) (x : Keeper) : (s.setKt c x).fuse = s.fuse := rfl
@[simp] theorem setKt_pin (c : Nat) (x : Keeper) : (s.setKt c x).pin = s.pin := rfl
@[simp] theorem setKt_pio (c : Nat) (x : Keeper) : (s.setKt c x).pio = s.pio := rfl
@[simp] theorem setKt_heard (c : Nat) (x : Keeper) : (s.setKt c x).heard = s.heard := rfl
@[simp] theorem setKt_dma (c : Nat) (x : Keeper) : (s.setKt c x).dma = s.dma := rfl
@[simp] theorem setKt_dmaTurn (c : Nat) (x : Keeper) : (s.setKt c x).dmaTurn = s.dmaTurn := rfl
@[simp] theorem setKt_hm (c : Nat) (x : Keeper) : (s.setKt c x).hm = s.hm := rfl
@[simp] theorem setKt_resp (c : Nat) (x : Keeper) : (s.setKt c x).resp = s.resp := rfl
@[simp] theorem setKt_bw (c : Nat) (x : Keeper) : (s.setKt c x).bw = s.bw := rfl
@[simp] theorem setKt_sti (c : Nat) (x : Keeper) : (s.setKt c x).sti = s.sti := rfl
@[simp] theorem setKt_rho (c : Nat) (x : Keeper) : (s.setKt c x).rho = s.rho := rfl
@[simp] theorem setKt_reg (c : Nat) (x : Keeper) (j : Nat) : (s.setKt c x).reg j = s.reg j := rfl
@[simp] theorem setKt_get (c : Nat) (x : Keeper) (g : RF) : (s.setKt c x).get g = s.get g := rfl
@[simp] theorem setKt_on (c : Nat) (x : Keeper) (g : RF) : (s.setKt c x).on g = s.on g := rfl
@[simp] theorem setKt_cx (c : Nat) (x : Keeper) (j : Nat) : (s.setKt c x).cx j = s.cx j := rfl
@[simp] theorem setKt_qu (c : Nat) (x : Keeper) (j : Nat) : (s.setKt c x).qu j = s.qu j := rfl
@[simp] theorem setKt_sl (c : Nat) (x : Keeper) (j : Nat) : (s.setKt c x).sl j = s.sl j := rfl
@[simp] theorem setKt_bk (c : Nat) (x : Keeper) (j : Nat) : (s.setKt c x).bk j = s.bk j := rfl
@[simp] theorem setKt_tm (c : Nat) (x : Keeper) (j : Nat) : (s.setKt c x).tm j = s.tm j := rfl
@[simp] theorem setKt_pn (c : Nat) (x : Keeper) (j : Nat) : (s.setKt c x).pn j = s.pn j := rfl
@[simp] theorem setKt_en (c : Nat) (x : Keeper) (j : Nat) : (s.setKt c x).en j = s.en j := rfl
@[simp] theorem setKt_dm (c : Nat) (x : Keeper) (j : Nat) : (s.setKt c x).dm j = s.dm j := rfl
@[simp] theorem setKt_sp (c : Nat) (x : Keeper) (j : Nat) : (s.setKt c x).sp j = s.sp j := rfl
@[simp] theorem setKt_lpp (c : Nat) (x : Keeper) (j : Nat) : (s.setKt c x).lpp j = s.lpp j := rfl
@[simp] theorem setKt_sp8 (c : Nat) (x : Keeper) (j : Nat) : (s.setKt c x).sp8 j = s.sp8 j := rfl
@[simp] theorem setKt_offerOf (c : Nat) (x : Keeper) (j : Nat) : (s.setKt c x).offerOf j = s.offerOf j := rfl
@[simp] theorem setKt_move (c : Nat) (x : Keeper) (j : Nat) : (s.setKt c x).move j = s.move j := rfl
@[simp] theorem setKt_isKept (c : Nat) (x : Keeper) (j : Nat) : (s.setKt c x).isKept j = s.isKept j := rfl
@[simp] theorem setKt_domState (c : Nat) (x : Keeper) (j : Nat) : (s.setKt c x).domState j = s.domState j := rfl
@[simp] theorem setKt_unitOn (c : Nat) (x : Keeper) (j : Nat) : (s.setKt c x).unitOn j = s.unitOn j := rfl
@[simp] theorem setKt_unitKept (c : Nat) (x : Keeper) (j : Nat) : (s.setKt c x).unitKept j = s.unitKept j := rfl
@[simp] theorem setKt_pageUp (c : Nat) (x : Keeper) (j : Nat) : (s.setKt c x).pageUp j = s.pageUp j := rfl

/-! `setPn` changes `pin` alone. -/

@[simp] theorem setPn_pending (c : Nat) (x : Pin) : (s.setPn c x).pending = s.pending := rfl
@[simp] theorem setPn_fclk (c : Nat) (x : Pin) : (s.setPn c x).fclk = s.fclk := rfl
@[simp] theorem setPn_freeCtr (c : Nat) (x : Pin) : (s.setPn c x).freeCtr = s.freeCtr := rfl
@[simp] theorem setPn_regs (c : Nat) (x : Pin) : (s.setPn c x).regs = s.regs := rfl
@[simp] theorem setPn_held (c : Nat) (x : Pin) : (s.setPn c x).held = s.held := rfl
@[simp] theorem setPn_mem (c : Nat) (x : Pin) : (s.setPn c x).mem = s.mem := rfl
@[simp] theorem setPn_chk (c : Nat) (x : Pin) : (s.setPn c x).chk = s.chk := rfl
@[simp] theorem setPn_cst (c : Nat) (x : Pin) : (s.setPn c x).cst = s.cst := rfl
@[simp] theorem setPn_disp (c : Nat) (x : Pin) : (s.setPn c x).disp = s.disp := rfl
@[simp] theorem setPn_snap (c : Nat) (x : Pin) : (s.setPn c x).snap = s.snap := rfl
@[simp] theorem setPn_posted (c : Nat) (x : Pin) : (s.setPn c x).posted = s.posted := rfl
@[simp] theorem setPn_ctx (c : Nat) (x : Pin) : (s.setPn c x).ctx = s.ctx := rfl
@[simp] theorem setPn_qui (c : Nat) (x : Pin) : (s.setPn c x).qui = s.qui := rfl
@[simp] theorem setPn_qsl (c : Nat) (x : Pin) : (s.setPn c x).qsl = s.qsl := rfl
@[simp] theorem setPn_qdErr (c : Nat) (x : Pin) : (s.setPn c x).qdErr = s.qdErr := rfl
@[simp] theorem setPn_bnk (c : Nat) (x : Pin) : (s.setPn c x).bnk = s.bnk := rfl
@[simp] theorem setPn_beam (c : Nat) (x : Pin) : (s.setPn c x).beam = s.beam := rfl
@[simp] theorem setPn_tmr (c : Nat) (x : Pin) : (s.setPn c x).tmr = s.tmr := rfl
@[simp] theorem setPn_keep (c : Nat) (x : Pin) : (s.setPn c x).keep = s.keep := rfl
@[simp] theorem setPn_cvtrig (c : Nat) (x : Pin) : (s.setPn c x).cvtrig = s.cvtrig := rfl
@[simp] theorem setPn_lp (c : Nat) (x : Pin) : (s.setPn c x).lp = s.lp := rfl
@[simp] theorem setPn_snd (c : Nat) (x : Pin) : (s.setPn c x).snd = s.snd := rfl
@[simp] theorem setPn_blit (c : Nat) (x : Pin) : (s.setPn c x).blit = s.blit := rfl
@[simp] theorem setPn_int (c : Nat) (x : Pin) : (s.setPn c x).int = s.int := rfl
@[simp] theorem setPn_tdr (c : Nat) (x : Pin) : (s.setPn c x).tdr = s.tdr := rfl
@[simp] theorem setPn_qdHigh (c : Nat) (x : Pin) : (s.setPn c x).qdHigh = s.qdHigh := rfl
@[simp] theorem setPn_col (c : Nat) (x : Pin) : (s.setPn c x).col = s.col := rfl
@[simp] theorem setPn_prs (c : Nat) (x : Pin) : (s.setPn c x).prs = s.prs := rfl
@[simp] theorem setPn_pwr (c : Nat) (x : Pin) : (s.setPn c x).pwr = s.pwr := rfl
@[simp] theorem setPn_fuse (c : Nat) (x : Pin) : (s.setPn c x).fuse = s.fuse := rfl
@[simp] theorem setPn_pio (c : Nat) (x : Pin) : (s.setPn c x).pio = s.pio := rfl
@[simp] theorem setPn_heard (c : Nat) (x : Pin) : (s.setPn c x).heard = s.heard := rfl
@[simp] theorem setPn_dma (c : Nat) (x : Pin) : (s.setPn c x).dma = s.dma := rfl
@[simp] theorem setPn_dmaTurn (c : Nat) (x : Pin) : (s.setPn c x).dmaTurn = s.dmaTurn := rfl
@[simp] theorem setPn_hm (c : Nat) (x : Pin) : (s.setPn c x).hm = s.hm := rfl
@[simp] theorem setPn_resp (c : Nat) (x : Pin) : (s.setPn c x).resp = s.resp := rfl
@[simp] theorem setPn_bw (c : Nat) (x : Pin) : (s.setPn c x).bw = s.bw := rfl
@[simp] theorem setPn_sti (c : Nat) (x : Pin) : (s.setPn c x).sti = s.sti := rfl
@[simp] theorem setPn_rho (c : Nat) (x : Pin) : (s.setPn c x).rho = s.rho := rfl
@[simp] theorem setPn_reg (c : Nat) (x : Pin) (j : Nat) : (s.setPn c x).reg j = s.reg j := rfl
@[simp] theorem setPn_get (c : Nat) (x : Pin) (g : RF) : (s.setPn c x).get g = s.get g := rfl
@[simp] theorem setPn_on (c : Nat) (x : Pin) (g : RF) : (s.setPn c x).on g = s.on g := rfl
@[simp] theorem setPn_cx (c : Nat) (x : Pin) (j : Nat) : (s.setPn c x).cx j = s.cx j := rfl
@[simp] theorem setPn_qu (c : Nat) (x : Pin) (j : Nat) : (s.setPn c x).qu j = s.qu j := rfl
@[simp] theorem setPn_sl (c : Nat) (x : Pin) (j : Nat) : (s.setPn c x).sl j = s.sl j := rfl
@[simp] theorem setPn_bk (c : Nat) (x : Pin) (j : Nat) : (s.setPn c x).bk j = s.bk j := rfl
@[simp] theorem setPn_tm (c : Nat) (x : Pin) (j : Nat) : (s.setPn c x).tm j = s.tm j := rfl
@[simp] theorem setPn_kt (c : Nat) (x : Pin) (j : Nat) : (s.setPn c x).kt j = s.kt j := rfl
@[simp] theorem setPn_en (c : Nat) (x : Pin) (j : Nat) : (s.setPn c x).en j = s.en j := rfl
@[simp] theorem setPn_dm (c : Nat) (x : Pin) (j : Nat) : (s.setPn c x).dm j = s.dm j := rfl
@[simp] theorem setPn_sp (c : Nat) (x : Pin) (j : Nat) : (s.setPn c x).sp j = s.sp j := rfl
@[simp] theorem setPn_lpp (c : Nat) (x : Pin) (j : Nat) : (s.setPn c x).lpp j = s.lpp j := rfl
@[simp] theorem setPn_sp8 (c : Nat) (x : Pin) (j : Nat) : (s.setPn c x).sp8 j = s.sp8 j := rfl
@[simp] theorem setPn_offerOf (c : Nat) (x : Pin) (j : Nat) : (s.setPn c x).offerOf j = s.offerOf j := rfl
@[simp] theorem setPn_move (c : Nat) (x : Pin) (j : Nat) : (s.setPn c x).move j = s.move j := rfl
@[simp] theorem setPn_isKept (c : Nat) (x : Pin) (j : Nat) : (s.setPn c x).isKept j = s.isKept j := rfl
@[simp] theorem setPn_domState (c : Nat) (x : Pin) (j : Nat) : (s.setPn c x).domState j = s.domState j := rfl
@[simp] theorem setPn_unitOn (c : Nat) (x : Pin) (j : Nat) : (s.setPn c x).unitOn j = s.unitOn j := rfl
@[simp] theorem setPn_unitKept (c : Nat) (x : Pin) (j : Nat) : (s.setPn c x).unitKept j = s.unitKept j := rfl
@[simp] theorem setPn_pageUp (c : Nat) (x : Pin) (j : Nat) : (s.setPn c x).pageUp j = s.pageUp j := rfl

/-! `setEn` changes `pio` alone. -/

@[simp] theorem setEn_pending (c : Nat) (x : Engine) : (s.setEn c x).pending = s.pending := rfl
@[simp] theorem setEn_fclk (c : Nat) (x : Engine) : (s.setEn c x).fclk = s.fclk := rfl
@[simp] theorem setEn_freeCtr (c : Nat) (x : Engine) : (s.setEn c x).freeCtr = s.freeCtr := rfl
@[simp] theorem setEn_regs (c : Nat) (x : Engine) : (s.setEn c x).regs = s.regs := rfl
@[simp] theorem setEn_held (c : Nat) (x : Engine) : (s.setEn c x).held = s.held := rfl
@[simp] theorem setEn_mem (c : Nat) (x : Engine) : (s.setEn c x).mem = s.mem := rfl
@[simp] theorem setEn_chk (c : Nat) (x : Engine) : (s.setEn c x).chk = s.chk := rfl
@[simp] theorem setEn_cst (c : Nat) (x : Engine) : (s.setEn c x).cst = s.cst := rfl
@[simp] theorem setEn_disp (c : Nat) (x : Engine) : (s.setEn c x).disp = s.disp := rfl
@[simp] theorem setEn_snap (c : Nat) (x : Engine) : (s.setEn c x).snap = s.snap := rfl
@[simp] theorem setEn_posted (c : Nat) (x : Engine) : (s.setEn c x).posted = s.posted := rfl
@[simp] theorem setEn_ctx (c : Nat) (x : Engine) : (s.setEn c x).ctx = s.ctx := rfl
@[simp] theorem setEn_qui (c : Nat) (x : Engine) : (s.setEn c x).qui = s.qui := rfl
@[simp] theorem setEn_qsl (c : Nat) (x : Engine) : (s.setEn c x).qsl = s.qsl := rfl
@[simp] theorem setEn_qdErr (c : Nat) (x : Engine) : (s.setEn c x).qdErr = s.qdErr := rfl
@[simp] theorem setEn_bnk (c : Nat) (x : Engine) : (s.setEn c x).bnk = s.bnk := rfl
@[simp] theorem setEn_beam (c : Nat) (x : Engine) : (s.setEn c x).beam = s.beam := rfl
@[simp] theorem setEn_tmr (c : Nat) (x : Engine) : (s.setEn c x).tmr = s.tmr := rfl
@[simp] theorem setEn_keep (c : Nat) (x : Engine) : (s.setEn c x).keep = s.keep := rfl
@[simp] theorem setEn_cvtrig (c : Nat) (x : Engine) : (s.setEn c x).cvtrig = s.cvtrig := rfl
@[simp] theorem setEn_lp (c : Nat) (x : Engine) : (s.setEn c x).lp = s.lp := rfl
@[simp] theorem setEn_snd (c : Nat) (x : Engine) : (s.setEn c x).snd = s.snd := rfl
@[simp] theorem setEn_blit (c : Nat) (x : Engine) : (s.setEn c x).blit = s.blit := rfl
@[simp] theorem setEn_int (c : Nat) (x : Engine) : (s.setEn c x).int = s.int := rfl
@[simp] theorem setEn_tdr (c : Nat) (x : Engine) : (s.setEn c x).tdr = s.tdr := rfl
@[simp] theorem setEn_qdHigh (c : Nat) (x : Engine) : (s.setEn c x).qdHigh = s.qdHigh := rfl
@[simp] theorem setEn_col (c : Nat) (x : Engine) : (s.setEn c x).col = s.col := rfl
@[simp] theorem setEn_prs (c : Nat) (x : Engine) : (s.setEn c x).prs = s.prs := rfl
@[simp] theorem setEn_pwr (c : Nat) (x : Engine) : (s.setEn c x).pwr = s.pwr := rfl
@[simp] theorem setEn_fuse (c : Nat) (x : Engine) : (s.setEn c x).fuse = s.fuse := rfl
@[simp] theorem setEn_pin (c : Nat) (x : Engine) : (s.setEn c x).pin = s.pin := rfl
@[simp] theorem setEn_heard (c : Nat) (x : Engine) : (s.setEn c x).heard = s.heard := rfl
@[simp] theorem setEn_dma (c : Nat) (x : Engine) : (s.setEn c x).dma = s.dma := rfl
@[simp] theorem setEn_dmaTurn (c : Nat) (x : Engine) : (s.setEn c x).dmaTurn = s.dmaTurn := rfl
@[simp] theorem setEn_hm (c : Nat) (x : Engine) : (s.setEn c x).hm = s.hm := rfl
@[simp] theorem setEn_resp (c : Nat) (x : Engine) : (s.setEn c x).resp = s.resp := rfl
@[simp] theorem setEn_bw (c : Nat) (x : Engine) : (s.setEn c x).bw = s.bw := rfl
@[simp] theorem setEn_sti (c : Nat) (x : Engine) : (s.setEn c x).sti = s.sti := rfl
@[simp] theorem setEn_rho (c : Nat) (x : Engine) : (s.setEn c x).rho = s.rho := rfl
@[simp] theorem setEn_reg (c : Nat) (x : Engine) (j : Nat) : (s.setEn c x).reg j = s.reg j := rfl
@[simp] theorem setEn_get (c : Nat) (x : Engine) (g : RF) : (s.setEn c x).get g = s.get g := rfl
@[simp] theorem setEn_on (c : Nat) (x : Engine) (g : RF) : (s.setEn c x).on g = s.on g := rfl
@[simp] theorem setEn_cx (c : Nat) (x : Engine) (j : Nat) : (s.setEn c x).cx j = s.cx j := rfl
@[simp] theorem setEn_qu (c : Nat) (x : Engine) (j : Nat) : (s.setEn c x).qu j = s.qu j := rfl
@[simp] theorem setEn_sl (c : Nat) (x : Engine) (j : Nat) : (s.setEn c x).sl j = s.sl j := rfl
@[simp] theorem setEn_bk (c : Nat) (x : Engine) (j : Nat) : (s.setEn c x).bk j = s.bk j := rfl
@[simp] theorem setEn_tm (c : Nat) (x : Engine) (j : Nat) : (s.setEn c x).tm j = s.tm j := rfl
@[simp] theorem setEn_kt (c : Nat) (x : Engine) (j : Nat) : (s.setEn c x).kt j = s.kt j := rfl
@[simp] theorem setEn_pn (c : Nat) (x : Engine) (j : Nat) : (s.setEn c x).pn j = s.pn j := rfl
@[simp] theorem setEn_dm (c : Nat) (x : Engine) (j : Nat) : (s.setEn c x).dm j = s.dm j := rfl
@[simp] theorem setEn_sp (c : Nat) (x : Engine) (j : Nat) : (s.setEn c x).sp j = s.sp j := rfl
@[simp] theorem setEn_lpp (c : Nat) (x : Engine) (j : Nat) : (s.setEn c x).lpp j = s.lpp j := rfl
@[simp] theorem setEn_sp8 (c : Nat) (x : Engine) (j : Nat) : (s.setEn c x).sp8 j = s.sp8 j := rfl
@[simp] theorem setEn_offerOf (c : Nat) (x : Engine) (j : Nat) : (s.setEn c x).offerOf j = s.offerOf j := rfl
@[simp] theorem setEn_move (c : Nat) (x : Engine) (j : Nat) : (s.setEn c x).move j = s.move j := rfl
@[simp] theorem setEn_isKept (c : Nat) (x : Engine) (j : Nat) : (s.setEn c x).isKept j = s.isKept j := rfl
@[simp] theorem setEn_domState (c : Nat) (x : Engine) (j : Nat) : (s.setEn c x).domState j = s.domState j := rfl
@[simp] theorem setEn_unitOn (c : Nat) (x : Engine) (j : Nat) : (s.setEn c x).unitOn j = s.unitOn j := rfl
@[simp] theorem setEn_unitKept (c : Nat) (x : Engine) (j : Nat) : (s.setEn c x).unitKept j = s.unitKept j := rfl
@[simp] theorem setEn_pageUp (c : Nat) (x : Engine) (j : Nat) : (s.setEn c x).pageUp j = s.pageUp j := rfl

/-! `setDm` changes `dma` alone. -/

@[simp] theorem setDm_pending (c : Nat) (x : Dma) : (s.setDm c x).pending = s.pending := rfl
@[simp] theorem setDm_fclk (c : Nat) (x : Dma) : (s.setDm c x).fclk = s.fclk := rfl
@[simp] theorem setDm_freeCtr (c : Nat) (x : Dma) : (s.setDm c x).freeCtr = s.freeCtr := rfl
@[simp] theorem setDm_regs (c : Nat) (x : Dma) : (s.setDm c x).regs = s.regs := rfl
@[simp] theorem setDm_held (c : Nat) (x : Dma) : (s.setDm c x).held = s.held := rfl
@[simp] theorem setDm_mem (c : Nat) (x : Dma) : (s.setDm c x).mem = s.mem := rfl
@[simp] theorem setDm_chk (c : Nat) (x : Dma) : (s.setDm c x).chk = s.chk := rfl
@[simp] theorem setDm_cst (c : Nat) (x : Dma) : (s.setDm c x).cst = s.cst := rfl
@[simp] theorem setDm_disp (c : Nat) (x : Dma) : (s.setDm c x).disp = s.disp := rfl
@[simp] theorem setDm_snap (c : Nat) (x : Dma) : (s.setDm c x).snap = s.snap := rfl
@[simp] theorem setDm_posted (c : Nat) (x : Dma) : (s.setDm c x).posted = s.posted := rfl
@[simp] theorem setDm_ctx (c : Nat) (x : Dma) : (s.setDm c x).ctx = s.ctx := rfl
@[simp] theorem setDm_qui (c : Nat) (x : Dma) : (s.setDm c x).qui = s.qui := rfl
@[simp] theorem setDm_qsl (c : Nat) (x : Dma) : (s.setDm c x).qsl = s.qsl := rfl
@[simp] theorem setDm_qdErr (c : Nat) (x : Dma) : (s.setDm c x).qdErr = s.qdErr := rfl
@[simp] theorem setDm_bnk (c : Nat) (x : Dma) : (s.setDm c x).bnk = s.bnk := rfl
@[simp] theorem setDm_beam (c : Nat) (x : Dma) : (s.setDm c x).beam = s.beam := rfl
@[simp] theorem setDm_tmr (c : Nat) (x : Dma) : (s.setDm c x).tmr = s.tmr := rfl
@[simp] theorem setDm_keep (c : Nat) (x : Dma) : (s.setDm c x).keep = s.keep := rfl
@[simp] theorem setDm_cvtrig (c : Nat) (x : Dma) : (s.setDm c x).cvtrig = s.cvtrig := rfl
@[simp] theorem setDm_lp (c : Nat) (x : Dma) : (s.setDm c x).lp = s.lp := rfl
@[simp] theorem setDm_snd (c : Nat) (x : Dma) : (s.setDm c x).snd = s.snd := rfl
@[simp] theorem setDm_blit (c : Nat) (x : Dma) : (s.setDm c x).blit = s.blit := rfl
@[simp] theorem setDm_int (c : Nat) (x : Dma) : (s.setDm c x).int = s.int := rfl
@[simp] theorem setDm_tdr (c : Nat) (x : Dma) : (s.setDm c x).tdr = s.tdr := rfl
@[simp] theorem setDm_qdHigh (c : Nat) (x : Dma) : (s.setDm c x).qdHigh = s.qdHigh := rfl
@[simp] theorem setDm_col (c : Nat) (x : Dma) : (s.setDm c x).col = s.col := rfl
@[simp] theorem setDm_prs (c : Nat) (x : Dma) : (s.setDm c x).prs = s.prs := rfl
@[simp] theorem setDm_pwr (c : Nat) (x : Dma) : (s.setDm c x).pwr = s.pwr := rfl
@[simp] theorem setDm_fuse (c : Nat) (x : Dma) : (s.setDm c x).fuse = s.fuse := rfl
@[simp] theorem setDm_pin (c : Nat) (x : Dma) : (s.setDm c x).pin = s.pin := rfl
@[simp] theorem setDm_pio (c : Nat) (x : Dma) : (s.setDm c x).pio = s.pio := rfl
@[simp] theorem setDm_heard (c : Nat) (x : Dma) : (s.setDm c x).heard = s.heard := rfl
@[simp] theorem setDm_dmaTurn (c : Nat) (x : Dma) : (s.setDm c x).dmaTurn = s.dmaTurn := rfl
@[simp] theorem setDm_hm (c : Nat) (x : Dma) : (s.setDm c x).hm = s.hm := rfl
@[simp] theorem setDm_resp (c : Nat) (x : Dma) : (s.setDm c x).resp = s.resp := rfl
@[simp] theorem setDm_bw (c : Nat) (x : Dma) : (s.setDm c x).bw = s.bw := rfl
@[simp] theorem setDm_sti (c : Nat) (x : Dma) : (s.setDm c x).sti = s.sti := rfl
@[simp] theorem setDm_rho (c : Nat) (x : Dma) : (s.setDm c x).rho = s.rho := rfl
@[simp] theorem setDm_reg (c : Nat) (x : Dma) (j : Nat) : (s.setDm c x).reg j = s.reg j := rfl
@[simp] theorem setDm_get (c : Nat) (x : Dma) (g : RF) : (s.setDm c x).get g = s.get g := rfl
@[simp] theorem setDm_on (c : Nat) (x : Dma) (g : RF) : (s.setDm c x).on g = s.on g := rfl
@[simp] theorem setDm_cx (c : Nat) (x : Dma) (j : Nat) : (s.setDm c x).cx j = s.cx j := rfl
@[simp] theorem setDm_qu (c : Nat) (x : Dma) (j : Nat) : (s.setDm c x).qu j = s.qu j := rfl
@[simp] theorem setDm_sl (c : Nat) (x : Dma) (j : Nat) : (s.setDm c x).sl j = s.sl j := rfl
@[simp] theorem setDm_bk (c : Nat) (x : Dma) (j : Nat) : (s.setDm c x).bk j = s.bk j := rfl
@[simp] theorem setDm_tm (c : Nat) (x : Dma) (j : Nat) : (s.setDm c x).tm j = s.tm j := rfl
@[simp] theorem setDm_kt (c : Nat) (x : Dma) (j : Nat) : (s.setDm c x).kt j = s.kt j := rfl
@[simp] theorem setDm_pn (c : Nat) (x : Dma) (j : Nat) : (s.setDm c x).pn j = s.pn j := rfl
@[simp] theorem setDm_en (c : Nat) (x : Dma) (j : Nat) : (s.setDm c x).en j = s.en j := rfl
@[simp] theorem setDm_sp (c : Nat) (x : Dma) (j : Nat) : (s.setDm c x).sp j = s.sp j := rfl
@[simp] theorem setDm_lpp (c : Nat) (x : Dma) (j : Nat) : (s.setDm c x).lpp j = s.lpp j := rfl
@[simp] theorem setDm_sp8 (c : Nat) (x : Dma) (j : Nat) : (s.setDm c x).sp8 j = s.sp8 j := rfl
@[simp] theorem setDm_offerOf (c : Nat) (x : Dma) (j : Nat) : (s.setDm c x).offerOf j = s.offerOf j := rfl
@[simp] theorem setDm_move (c : Nat) (x : Dma) (j : Nat) : (s.setDm c x).move j = s.move j := rfl
@[simp] theorem setDm_isKept (c : Nat) (x : Dma) (j : Nat) : (s.setDm c x).isKept j = s.isKept j := rfl
@[simp] theorem setDm_domState (c : Nat) (x : Dma) (j : Nat) : (s.setDm c x).domState j = s.domState j := rfl
@[simp] theorem setDm_unitOn (c : Nat) (x : Dma) (j : Nat) : (s.setDm c x).unitOn j = s.unitOn j := rfl
@[simp] theorem setDm_unitKept (c : Nat) (x : Dma) (j : Nat) : (s.setDm c x).unitKept j = s.unitKept j := rfl
@[simp] theorem setDm_pageUp (c : Nat) (x : Dma) (j : Nat) : (s.setDm c x).pageUp j = s.pageUp j := rfl

/-! `setSp` changes `sti` alone. -/

@[simp] theorem setSp_pending (c : Nat) (x : Stitch) : (s.setSp c x).pending = s.pending := rfl
@[simp] theorem setSp_fclk (c : Nat) (x : Stitch) : (s.setSp c x).fclk = s.fclk := rfl
@[simp] theorem setSp_freeCtr (c : Nat) (x : Stitch) : (s.setSp c x).freeCtr = s.freeCtr := rfl
@[simp] theorem setSp_regs (c : Nat) (x : Stitch) : (s.setSp c x).regs = s.regs := rfl
@[simp] theorem setSp_held (c : Nat) (x : Stitch) : (s.setSp c x).held = s.held := rfl
@[simp] theorem setSp_mem (c : Nat) (x : Stitch) : (s.setSp c x).mem = s.mem := rfl
@[simp] theorem setSp_chk (c : Nat) (x : Stitch) : (s.setSp c x).chk = s.chk := rfl
@[simp] theorem setSp_cst (c : Nat) (x : Stitch) : (s.setSp c x).cst = s.cst := rfl
@[simp] theorem setSp_disp (c : Nat) (x : Stitch) : (s.setSp c x).disp = s.disp := rfl
@[simp] theorem setSp_snap (c : Nat) (x : Stitch) : (s.setSp c x).snap = s.snap := rfl
@[simp] theorem setSp_posted (c : Nat) (x : Stitch) : (s.setSp c x).posted = s.posted := rfl
@[simp] theorem setSp_ctx (c : Nat) (x : Stitch) : (s.setSp c x).ctx = s.ctx := rfl
@[simp] theorem setSp_qui (c : Nat) (x : Stitch) : (s.setSp c x).qui = s.qui := rfl
@[simp] theorem setSp_qsl (c : Nat) (x : Stitch) : (s.setSp c x).qsl = s.qsl := rfl
@[simp] theorem setSp_qdErr (c : Nat) (x : Stitch) : (s.setSp c x).qdErr = s.qdErr := rfl
@[simp] theorem setSp_bnk (c : Nat) (x : Stitch) : (s.setSp c x).bnk = s.bnk := rfl
@[simp] theorem setSp_beam (c : Nat) (x : Stitch) : (s.setSp c x).beam = s.beam := rfl
@[simp] theorem setSp_tmr (c : Nat) (x : Stitch) : (s.setSp c x).tmr = s.tmr := rfl
@[simp] theorem setSp_keep (c : Nat) (x : Stitch) : (s.setSp c x).keep = s.keep := rfl
@[simp] theorem setSp_cvtrig (c : Nat) (x : Stitch) : (s.setSp c x).cvtrig = s.cvtrig := rfl
@[simp] theorem setSp_lp (c : Nat) (x : Stitch) : (s.setSp c x).lp = s.lp := rfl
@[simp] theorem setSp_snd (c : Nat) (x : Stitch) : (s.setSp c x).snd = s.snd := rfl
@[simp] theorem setSp_blit (c : Nat) (x : Stitch) : (s.setSp c x).blit = s.blit := rfl
@[simp] theorem setSp_int (c : Nat) (x : Stitch) : (s.setSp c x).int = s.int := rfl
@[simp] theorem setSp_tdr (c : Nat) (x : Stitch) : (s.setSp c x).tdr = s.tdr := rfl
@[simp] theorem setSp_qdHigh (c : Nat) (x : Stitch) : (s.setSp c x).qdHigh = s.qdHigh := rfl
@[simp] theorem setSp_col (c : Nat) (x : Stitch) : (s.setSp c x).col = s.col := rfl
@[simp] theorem setSp_prs (c : Nat) (x : Stitch) : (s.setSp c x).prs = s.prs := rfl
@[simp] theorem setSp_pwr (c : Nat) (x : Stitch) : (s.setSp c x).pwr = s.pwr := rfl
@[simp] theorem setSp_fuse (c : Nat) (x : Stitch) : (s.setSp c x).fuse = s.fuse := rfl
@[simp] theorem setSp_pin (c : Nat) (x : Stitch) : (s.setSp c x).pin = s.pin := rfl
@[simp] theorem setSp_pio (c : Nat) (x : Stitch) : (s.setSp c x).pio = s.pio := rfl
@[simp] theorem setSp_heard (c : Nat) (x : Stitch) : (s.setSp c x).heard = s.heard := rfl
@[simp] theorem setSp_dma (c : Nat) (x : Stitch) : (s.setSp c x).dma = s.dma := rfl
@[simp] theorem setSp_dmaTurn (c : Nat) (x : Stitch) : (s.setSp c x).dmaTurn = s.dmaTurn := rfl
@[simp] theorem setSp_hm (c : Nat) (x : Stitch) : (s.setSp c x).hm = s.hm := rfl
@[simp] theorem setSp_resp (c : Nat) (x : Stitch) : (s.setSp c x).resp = s.resp := rfl
@[simp] theorem setSp_bw (c : Nat) (x : Stitch) : (s.setSp c x).bw = s.bw := rfl
@[simp] theorem setSp_rho (c : Nat) (x : Stitch) : (s.setSp c x).rho = s.rho := rfl
@[simp] theorem setSp_reg (c : Nat) (x : Stitch) (j : Nat) : (s.setSp c x).reg j = s.reg j := rfl
@[simp] theorem setSp_get (c : Nat) (x : Stitch) (g : RF) : (s.setSp c x).get g = s.get g := rfl
@[simp] theorem setSp_on (c : Nat) (x : Stitch) (g : RF) : (s.setSp c x).on g = s.on g := rfl
@[simp] theorem setSp_cx (c : Nat) (x : Stitch) (j : Nat) : (s.setSp c x).cx j = s.cx j := rfl
@[simp] theorem setSp_qu (c : Nat) (x : Stitch) (j : Nat) : (s.setSp c x).qu j = s.qu j := rfl
@[simp] theorem setSp_sl (c : Nat) (x : Stitch) (j : Nat) : (s.setSp c x).sl j = s.sl j := rfl
@[simp] theorem setSp_bk (c : Nat) (x : Stitch) (j : Nat) : (s.setSp c x).bk j = s.bk j := rfl
@[simp] theorem setSp_tm (c : Nat) (x : Stitch) (j : Nat) : (s.setSp c x).tm j = s.tm j := rfl
@[simp] theorem setSp_kt (c : Nat) (x : Stitch) (j : Nat) : (s.setSp c x).kt j = s.kt j := rfl
@[simp] theorem setSp_pn (c : Nat) (x : Stitch) (j : Nat) : (s.setSp c x).pn j = s.pn j := rfl
@[simp] theorem setSp_en (c : Nat) (x : Stitch) (j : Nat) : (s.setSp c x).en j = s.en j := rfl
@[simp] theorem setSp_dm (c : Nat) (x : Stitch) (j : Nat) : (s.setSp c x).dm j = s.dm j := rfl
@[simp] theorem setSp_lpp (c : Nat) (x : Stitch) (j : Nat) : (s.setSp c x).lpp j = s.lpp j := rfl
@[simp] theorem setSp_sp8 (c : Nat) (x : Stitch) (j : Nat) : (s.setSp c x).sp8 j = s.sp8 j := rfl
@[simp] theorem setSp_offerOf (c : Nat) (x : Stitch) (j : Nat) : (s.setSp c x).offerOf j = s.offerOf j := rfl
@[simp] theorem setSp_move (c : Nat) (x : Stitch) (j : Nat) : (s.setSp c x).move j = s.move j := rfl
@[simp] theorem setSp_isKept (c : Nat) (x : Stitch) (j : Nat) : (s.setSp c x).isKept j = s.isKept j := rfl
@[simp] theorem setSp_domState (c : Nat) (x : Stitch) (j : Nat) : (s.setSp c x).domState j = s.domState j := rfl
@[simp] theorem setSp_unitOn (c : Nat) (x : Stitch) (j : Nat) : (s.setSp c x).unitOn j = s.unitOn j := rfl
@[simp] theorem setSp_unitKept (c : Nat) (x : Stitch) (j : Nat) : (s.setSp c x).unitKept j = s.unitKept j := rfl
@[simp] theorem setSp_pageUp (c : Nat) (x : Stitch) (j : Nat) : (s.setSp c x).pageUp j = s.pageUp j := rfl

/-! `setLp` changes `lp` alone. -/

@[simp] theorem setLp_pending (c : Nat) (x : LpPort) : (s.setLp c x).pending = s.pending := rfl
@[simp] theorem setLp_fclk (c : Nat) (x : LpPort) : (s.setLp c x).fclk = s.fclk := rfl
@[simp] theorem setLp_freeCtr (c : Nat) (x : LpPort) : (s.setLp c x).freeCtr = s.freeCtr := rfl
@[simp] theorem setLp_regs (c : Nat) (x : LpPort) : (s.setLp c x).regs = s.regs := rfl
@[simp] theorem setLp_held (c : Nat) (x : LpPort) : (s.setLp c x).held = s.held := rfl
@[simp] theorem setLp_mem (c : Nat) (x : LpPort) : (s.setLp c x).mem = s.mem := rfl
@[simp] theorem setLp_chk (c : Nat) (x : LpPort) : (s.setLp c x).chk = s.chk := rfl
@[simp] theorem setLp_cst (c : Nat) (x : LpPort) : (s.setLp c x).cst = s.cst := rfl
@[simp] theorem setLp_disp (c : Nat) (x : LpPort) : (s.setLp c x).disp = s.disp := rfl
@[simp] theorem setLp_snap (c : Nat) (x : LpPort) : (s.setLp c x).snap = s.snap := rfl
@[simp] theorem setLp_posted (c : Nat) (x : LpPort) : (s.setLp c x).posted = s.posted := rfl
@[simp] theorem setLp_ctx (c : Nat) (x : LpPort) : (s.setLp c x).ctx = s.ctx := rfl
@[simp] theorem setLp_qui (c : Nat) (x : LpPort) : (s.setLp c x).qui = s.qui := rfl
@[simp] theorem setLp_qsl (c : Nat) (x : LpPort) : (s.setLp c x).qsl = s.qsl := rfl
@[simp] theorem setLp_qdErr (c : Nat) (x : LpPort) : (s.setLp c x).qdErr = s.qdErr := rfl
@[simp] theorem setLp_bnk (c : Nat) (x : LpPort) : (s.setLp c x).bnk = s.bnk := rfl
@[simp] theorem setLp_beam (c : Nat) (x : LpPort) : (s.setLp c x).beam = s.beam := rfl
@[simp] theorem setLp_tmr (c : Nat) (x : LpPort) : (s.setLp c x).tmr = s.tmr := rfl
@[simp] theorem setLp_keep (c : Nat) (x : LpPort) : (s.setLp c x).keep = s.keep := rfl
@[simp] theorem setLp_cvtrig (c : Nat) (x : LpPort) : (s.setLp c x).cvtrig = s.cvtrig := rfl
@[simp] theorem setLp_snd (c : Nat) (x : LpPort) : (s.setLp c x).snd = s.snd := rfl
@[simp] theorem setLp_blit (c : Nat) (x : LpPort) : (s.setLp c x).blit = s.blit := rfl
@[simp] theorem setLp_int (c : Nat) (x : LpPort) : (s.setLp c x).int = s.int := rfl
@[simp] theorem setLp_tdr (c : Nat) (x : LpPort) : (s.setLp c x).tdr = s.tdr := rfl
@[simp] theorem setLp_qdHigh (c : Nat) (x : LpPort) : (s.setLp c x).qdHigh = s.qdHigh := rfl
@[simp] theorem setLp_col (c : Nat) (x : LpPort) : (s.setLp c x).col = s.col := rfl
@[simp] theorem setLp_prs (c : Nat) (x : LpPort) : (s.setLp c x).prs = s.prs := rfl
@[simp] theorem setLp_pwr (c : Nat) (x : LpPort) : (s.setLp c x).pwr = s.pwr := rfl
@[simp] theorem setLp_fuse (c : Nat) (x : LpPort) : (s.setLp c x).fuse = s.fuse := rfl
@[simp] theorem setLp_pin (c : Nat) (x : LpPort) : (s.setLp c x).pin = s.pin := rfl
@[simp] theorem setLp_pio (c : Nat) (x : LpPort) : (s.setLp c x).pio = s.pio := rfl
@[simp] theorem setLp_heard (c : Nat) (x : LpPort) : (s.setLp c x).heard = s.heard := rfl
@[simp] theorem setLp_dma (c : Nat) (x : LpPort) : (s.setLp c x).dma = s.dma := rfl
@[simp] theorem setLp_dmaTurn (c : Nat) (x : LpPort) : (s.setLp c x).dmaTurn = s.dmaTurn := rfl
@[simp] theorem setLp_hm (c : Nat) (x : LpPort) : (s.setLp c x).hm = s.hm := rfl
@[simp] theorem setLp_resp (c : Nat) (x : LpPort) : (s.setLp c x).resp = s.resp := rfl
@[simp] theorem setLp_bw (c : Nat) (x : LpPort) : (s.setLp c x).bw = s.bw := rfl
@[simp] theorem setLp_sti (c : Nat) (x : LpPort) : (s.setLp c x).sti = s.sti := rfl
@[simp] theorem setLp_rho (c : Nat) (x : LpPort) : (s.setLp c x).rho = s.rho := rfl
@[simp] theorem setLp_reg (c : Nat) (x : LpPort) (j : Nat) : (s.setLp c x).reg j = s.reg j := rfl
@[simp] theorem setLp_get (c : Nat) (x : LpPort) (g : RF) : (s.setLp c x).get g = s.get g := rfl
@[simp] theorem setLp_on (c : Nat) (x : LpPort) (g : RF) : (s.setLp c x).on g = s.on g := rfl
@[simp] theorem setLp_cx (c : Nat) (x : LpPort) (j : Nat) : (s.setLp c x).cx j = s.cx j := rfl
@[simp] theorem setLp_qu (c : Nat) (x : LpPort) (j : Nat) : (s.setLp c x).qu j = s.qu j := rfl
@[simp] theorem setLp_sl (c : Nat) (x : LpPort) (j : Nat) : (s.setLp c x).sl j = s.sl j := rfl
@[simp] theorem setLp_bk (c : Nat) (x : LpPort) (j : Nat) : (s.setLp c x).bk j = s.bk j := rfl
@[simp] theorem setLp_tm (c : Nat) (x : LpPort) (j : Nat) : (s.setLp c x).tm j = s.tm j := rfl
@[simp] theorem setLp_kt (c : Nat) (x : LpPort) (j : Nat) : (s.setLp c x).kt j = s.kt j := rfl
@[simp] theorem setLp_pn (c : Nat) (x : LpPort) (j : Nat) : (s.setLp c x).pn j = s.pn j := rfl
@[simp] theorem setLp_en (c : Nat) (x : LpPort) (j : Nat) : (s.setLp c x).en j = s.en j := rfl
@[simp] theorem setLp_dm (c : Nat) (x : LpPort) (j : Nat) : (s.setLp c x).dm j = s.dm j := rfl
@[simp] theorem setLp_sp (c : Nat) (x : LpPort) (j : Nat) : (s.setLp c x).sp j = s.sp j := rfl
@[simp] theorem setLp_sp8 (c : Nat) (x : LpPort) (j : Nat) : (s.setLp c x).sp8 j = s.sp8 j := rfl
@[simp] theorem setLp_offerOf (c : Nat) (x : LpPort) (j : Nat) : (s.setLp c x).offerOf j = s.offerOf j := rfl
@[simp] theorem setLp_move (c : Nat) (x : LpPort) (j : Nat) : (s.setLp c x).move j = s.move j := rfl
@[simp] theorem setLp_isKept (c : Nat) (x : LpPort) (j : Nat) : (s.setLp c x).isKept j = s.isKept j := rfl
@[simp] theorem setLp_domState (c : Nat) (x : LpPort) (j : Nat) : (s.setLp c x).domState j = s.domState j := rfl
@[simp] theorem setLp_unitOn (c : Nat) (x : LpPort) (j : Nat) : (s.setLp c x).unitOn j = s.unitOn j := rfl
@[simp] theorem setLp_unitKept (c : Nat) (x : LpPort) (j : Nat) : (s.setLp c x).unitKept j = s.unitKept j := rfl
@[simp] theorem setLp_pageUp (c : Nat) (x : LpPort) (j : Nat) : (s.setLp c x).pageUp j = s.pageUp j := rfl

/-! `setSnd` changes `snd` alone. -/

@[simp] theorem setSnd_pending (c : Nat) (x : SoundPort) : (s.setSnd c x).pending = s.pending := rfl
@[simp] theorem setSnd_fclk (c : Nat) (x : SoundPort) : (s.setSnd c x).fclk = s.fclk := rfl
@[simp] theorem setSnd_freeCtr (c : Nat) (x : SoundPort) : (s.setSnd c x).freeCtr = s.freeCtr := rfl
@[simp] theorem setSnd_regs (c : Nat) (x : SoundPort) : (s.setSnd c x).regs = s.regs := rfl
@[simp] theorem setSnd_held (c : Nat) (x : SoundPort) : (s.setSnd c x).held = s.held := rfl
@[simp] theorem setSnd_mem (c : Nat) (x : SoundPort) : (s.setSnd c x).mem = s.mem := rfl
@[simp] theorem setSnd_chk (c : Nat) (x : SoundPort) : (s.setSnd c x).chk = s.chk := rfl
@[simp] theorem setSnd_cst (c : Nat) (x : SoundPort) : (s.setSnd c x).cst = s.cst := rfl
@[simp] theorem setSnd_disp (c : Nat) (x : SoundPort) : (s.setSnd c x).disp = s.disp := rfl
@[simp] theorem setSnd_snap (c : Nat) (x : SoundPort) : (s.setSnd c x).snap = s.snap := rfl
@[simp] theorem setSnd_posted (c : Nat) (x : SoundPort) : (s.setSnd c x).posted = s.posted := rfl
@[simp] theorem setSnd_ctx (c : Nat) (x : SoundPort) : (s.setSnd c x).ctx = s.ctx := rfl
@[simp] theorem setSnd_qui (c : Nat) (x : SoundPort) : (s.setSnd c x).qui = s.qui := rfl
@[simp] theorem setSnd_qsl (c : Nat) (x : SoundPort) : (s.setSnd c x).qsl = s.qsl := rfl
@[simp] theorem setSnd_qdErr (c : Nat) (x : SoundPort) : (s.setSnd c x).qdErr = s.qdErr := rfl
@[simp] theorem setSnd_bnk (c : Nat) (x : SoundPort) : (s.setSnd c x).bnk = s.bnk := rfl
@[simp] theorem setSnd_beam (c : Nat) (x : SoundPort) : (s.setSnd c x).beam = s.beam := rfl
@[simp] theorem setSnd_tmr (c : Nat) (x : SoundPort) : (s.setSnd c x).tmr = s.tmr := rfl
@[simp] theorem setSnd_keep (c : Nat) (x : SoundPort) : (s.setSnd c x).keep = s.keep := rfl
@[simp] theorem setSnd_cvtrig (c : Nat) (x : SoundPort) : (s.setSnd c x).cvtrig = s.cvtrig := rfl
@[simp] theorem setSnd_lp (c : Nat) (x : SoundPort) : (s.setSnd c x).lp = s.lp := rfl
@[simp] theorem setSnd_blit (c : Nat) (x : SoundPort) : (s.setSnd c x).blit = s.blit := rfl
@[simp] theorem setSnd_int (c : Nat) (x : SoundPort) : (s.setSnd c x).int = s.int := rfl
@[simp] theorem setSnd_tdr (c : Nat) (x : SoundPort) : (s.setSnd c x).tdr = s.tdr := rfl
@[simp] theorem setSnd_qdHigh (c : Nat) (x : SoundPort) : (s.setSnd c x).qdHigh = s.qdHigh := rfl
@[simp] theorem setSnd_col (c : Nat) (x : SoundPort) : (s.setSnd c x).col = s.col := rfl
@[simp] theorem setSnd_prs (c : Nat) (x : SoundPort) : (s.setSnd c x).prs = s.prs := rfl
@[simp] theorem setSnd_pwr (c : Nat) (x : SoundPort) : (s.setSnd c x).pwr = s.pwr := rfl
@[simp] theorem setSnd_fuse (c : Nat) (x : SoundPort) : (s.setSnd c x).fuse = s.fuse := rfl
@[simp] theorem setSnd_pin (c : Nat) (x : SoundPort) : (s.setSnd c x).pin = s.pin := rfl
@[simp] theorem setSnd_pio (c : Nat) (x : SoundPort) : (s.setSnd c x).pio = s.pio := rfl
@[simp] theorem setSnd_heard (c : Nat) (x : SoundPort) : (s.setSnd c x).heard = s.heard := rfl
@[simp] theorem setSnd_dma (c : Nat) (x : SoundPort) : (s.setSnd c x).dma = s.dma := rfl
@[simp] theorem setSnd_dmaTurn (c : Nat) (x : SoundPort) : (s.setSnd c x).dmaTurn = s.dmaTurn := rfl
@[simp] theorem setSnd_hm (c : Nat) (x : SoundPort) : (s.setSnd c x).hm = s.hm := rfl
@[simp] theorem setSnd_resp (c : Nat) (x : SoundPort) : (s.setSnd c x).resp = s.resp := rfl
@[simp] theorem setSnd_bw (c : Nat) (x : SoundPort) : (s.setSnd c x).bw = s.bw := rfl
@[simp] theorem setSnd_sti (c : Nat) (x : SoundPort) : (s.setSnd c x).sti = s.sti := rfl
@[simp] theorem setSnd_rho (c : Nat) (x : SoundPort) : (s.setSnd c x).rho = s.rho := rfl
@[simp] theorem setSnd_reg (c : Nat) (x : SoundPort) (j : Nat) : (s.setSnd c x).reg j = s.reg j := rfl
@[simp] theorem setSnd_get (c : Nat) (x : SoundPort) (g : RF) : (s.setSnd c x).get g = s.get g := rfl
@[simp] theorem setSnd_on (c : Nat) (x : SoundPort) (g : RF) : (s.setSnd c x).on g = s.on g := rfl
@[simp] theorem setSnd_cx (c : Nat) (x : SoundPort) (j : Nat) : (s.setSnd c x).cx j = s.cx j := rfl
@[simp] theorem setSnd_qu (c : Nat) (x : SoundPort) (j : Nat) : (s.setSnd c x).qu j = s.qu j := rfl
@[simp] theorem setSnd_sl (c : Nat) (x : SoundPort) (j : Nat) : (s.setSnd c x).sl j = s.sl j := rfl
@[simp] theorem setSnd_bk (c : Nat) (x : SoundPort) (j : Nat) : (s.setSnd c x).bk j = s.bk j := rfl
@[simp] theorem setSnd_tm (c : Nat) (x : SoundPort) (j : Nat) : (s.setSnd c x).tm j = s.tm j := rfl
@[simp] theorem setSnd_kt (c : Nat) (x : SoundPort) (j : Nat) : (s.setSnd c x).kt j = s.kt j := rfl
@[simp] theorem setSnd_pn (c : Nat) (x : SoundPort) (j : Nat) : (s.setSnd c x).pn j = s.pn j := rfl
@[simp] theorem setSnd_en (c : Nat) (x : SoundPort) (j : Nat) : (s.setSnd c x).en j = s.en j := rfl
@[simp] theorem setSnd_dm (c : Nat) (x : SoundPort) (j : Nat) : (s.setSnd c x).dm j = s.dm j := rfl
@[simp] theorem setSnd_sp (c : Nat) (x : SoundPort) (j : Nat) : (s.setSnd c x).sp j = s.sp j := rfl
@[simp] theorem setSnd_lpp (c : Nat) (x : SoundPort) (j : Nat) : (s.setSnd c x).lpp j = s.lpp j := rfl
@[simp] theorem setSnd_offerOf (c : Nat) (x : SoundPort) (j : Nat) : (s.setSnd c x).offerOf j = s.offerOf j := rfl
@[simp] theorem setSnd_move (c : Nat) (x : SoundPort) (j : Nat) : (s.setSnd c x).move j = s.move j := rfl
@[simp] theorem setSnd_isKept (c : Nat) (x : SoundPort) (j : Nat) : (s.setSnd c x).isKept j = s.isKept j := rfl
@[simp] theorem setSnd_domState (c : Nat) (x : SoundPort) (j : Nat) : (s.setSnd c x).domState j = s.domState j := rfl
@[simp] theorem setSnd_unitOn (c : Nat) (x : SoundPort) (j : Nat) : (s.setSnd c x).unitOn j = s.unitOn j := rfl
@[simp] theorem setSnd_unitKept (c : Nat) (x : SoundPort) (j : Nat) : (s.setSnd c x).unitKept j = s.unitKept j := rfl
@[simp] theorem setSnd_pageUp (c : Nat) (x : SoundPort) (j : Nat) : (s.setSnd c x).pageUp j = s.pageUp j := rfl

/-! `setRho` changes `rho` alone. -/

@[simp] theorem setRho_pending (x : Rho) : (s.setRho x).pending = s.pending := rfl
@[simp] theorem setRho_fclk (x : Rho) : (s.setRho x).fclk = s.fclk := rfl
@[simp] theorem setRho_freeCtr (x : Rho) : (s.setRho x).freeCtr = s.freeCtr := rfl
@[simp] theorem setRho_regs (x : Rho) : (s.setRho x).regs = s.regs := rfl
@[simp] theorem setRho_held (x : Rho) : (s.setRho x).held = s.held := rfl
@[simp] theorem setRho_mem (x : Rho) : (s.setRho x).mem = s.mem := rfl
@[simp] theorem setRho_chk (x : Rho) : (s.setRho x).chk = s.chk := rfl
@[simp] theorem setRho_cst (x : Rho) : (s.setRho x).cst = s.cst := rfl
@[simp] theorem setRho_disp (x : Rho) : (s.setRho x).disp = s.disp := rfl
@[simp] theorem setRho_snap (x : Rho) : (s.setRho x).snap = s.snap := rfl
@[simp] theorem setRho_posted (x : Rho) : (s.setRho x).posted = s.posted := rfl
@[simp] theorem setRho_ctx (x : Rho) : (s.setRho x).ctx = s.ctx := rfl
@[simp] theorem setRho_qui (x : Rho) : (s.setRho x).qui = s.qui := rfl
@[simp] theorem setRho_qsl (x : Rho) : (s.setRho x).qsl = s.qsl := rfl
@[simp] theorem setRho_qdErr (x : Rho) : (s.setRho x).qdErr = s.qdErr := rfl
@[simp] theorem setRho_bnk (x : Rho) : (s.setRho x).bnk = s.bnk := rfl
@[simp] theorem setRho_beam (x : Rho) : (s.setRho x).beam = s.beam := rfl
@[simp] theorem setRho_tmr (x : Rho) : (s.setRho x).tmr = s.tmr := rfl
@[simp] theorem setRho_keep (x : Rho) : (s.setRho x).keep = s.keep := rfl
@[simp] theorem setRho_cvtrig (x : Rho) : (s.setRho x).cvtrig = s.cvtrig := rfl
@[simp] theorem setRho_lp (x : Rho) : (s.setRho x).lp = s.lp := rfl
@[simp] theorem setRho_snd (x : Rho) : (s.setRho x).snd = s.snd := rfl
@[simp] theorem setRho_blit (x : Rho) : (s.setRho x).blit = s.blit := rfl
@[simp] theorem setRho_int (x : Rho) : (s.setRho x).int = s.int := rfl
@[simp] theorem setRho_tdr (x : Rho) : (s.setRho x).tdr = s.tdr := rfl
@[simp] theorem setRho_qdHigh (x : Rho) : (s.setRho x).qdHigh = s.qdHigh := rfl
@[simp] theorem setRho_col (x : Rho) : (s.setRho x).col = s.col := rfl
@[simp] theorem setRho_prs (x : Rho) : (s.setRho x).prs = s.prs := rfl
@[simp] theorem setRho_pwr (x : Rho) : (s.setRho x).pwr = s.pwr := rfl
@[simp] theorem setRho_fuse (x : Rho) : (s.setRho x).fuse = s.fuse := rfl
@[simp] theorem setRho_pin (x : Rho) : (s.setRho x).pin = s.pin := rfl
@[simp] theorem setRho_pio (x : Rho) : (s.setRho x).pio = s.pio := rfl
@[simp] theorem setRho_heard (x : Rho) : (s.setRho x).heard = s.heard := rfl
@[simp] theorem setRho_dma (x : Rho) : (s.setRho x).dma = s.dma := rfl
@[simp] theorem setRho_dmaTurn (x : Rho) : (s.setRho x).dmaTurn = s.dmaTurn := rfl
@[simp] theorem setRho_hm (x : Rho) : (s.setRho x).hm = s.hm := rfl
@[simp] theorem setRho_resp (x : Rho) : (s.setRho x).resp = s.resp := rfl
@[simp] theorem setRho_bw (x : Rho) : (s.setRho x).bw = s.bw := rfl
@[simp] theorem setRho_sti (x : Rho) : (s.setRho x).sti = s.sti := rfl
@[simp] theorem setRho_reg (x : Rho) (j : Nat) : (s.setRho x).reg j = s.reg j := rfl
@[simp] theorem setRho_get (x : Rho) (g : RF) : (s.setRho x).get g = s.get g := rfl
@[simp] theorem setRho_on (x : Rho) (g : RF) : (s.setRho x).on g = s.on g := rfl
@[simp] theorem setRho_cx (x : Rho) (j : Nat) : (s.setRho x).cx j = s.cx j := rfl
@[simp] theorem setRho_qu (x : Rho) (j : Nat) : (s.setRho x).qu j = s.qu j := rfl
@[simp] theorem setRho_sl (x : Rho) (j : Nat) : (s.setRho x).sl j = s.sl j := rfl
@[simp] theorem setRho_bk (x : Rho) (j : Nat) : (s.setRho x).bk j = s.bk j := rfl
@[simp] theorem setRho_tm (x : Rho) (j : Nat) : (s.setRho x).tm j = s.tm j := rfl
@[simp] theorem setRho_kt (x : Rho) (j : Nat) : (s.setRho x).kt j = s.kt j := rfl
@[simp] theorem setRho_pn (x : Rho) (j : Nat) : (s.setRho x).pn j = s.pn j := rfl
@[simp] theorem setRho_en (x : Rho) (j : Nat) : (s.setRho x).en j = s.en j := rfl
@[simp] theorem setRho_dm (x : Rho) (j : Nat) : (s.setRho x).dm j = s.dm j := rfl
@[simp] theorem setRho_sp (x : Rho) (j : Nat) : (s.setRho x).sp j = s.sp j := rfl
@[simp] theorem setRho_lpp (x : Rho) (j : Nat) : (s.setRho x).lpp j = s.lpp j := rfl
@[simp] theorem setRho_sp8 (x : Rho) (j : Nat) : (s.setRho x).sp8 j = s.sp8 j := rfl
@[simp] theorem setRho_offerOf (x : Rho) (j : Nat) : (s.setRho x).offerOf j = s.offerOf j := rfl
@[simp] theorem setRho_move (x : Rho) (j : Nat) : (s.setRho x).move j = s.move j := rfl
@[simp] theorem setRho_isKept (x : Rho) (j : Nat) : (s.setRho x).isKept j = s.isKept j := rfl
@[simp] theorem setRho_domState (x : Rho) (j : Nat) : (s.setRho x).domState j = s.domState j := rfl
@[simp] theorem setRho_unitOn (x : Rho) (j : Nat) : (s.setRho x).unitOn j = s.unitOn j := rfl
@[simp] theorem setRho_unitKept (x : Rho) (j : Nat) : (s.setRho x).unitKept j = s.unitKept j := rfl
@[simp] theorem setRho_pageUp (x : Rho) (j : Nat) : (s.setRho x).pageUp j = s.pageUp j := rfl

/-! `setOffer` changes `int` alone. -/

@[simp] theorem setOffer_pending (c : Nat) (x : Option Offer) : (s.setOffer c x).pending = s.pending := rfl
@[simp] theorem setOffer_fclk (c : Nat) (x : Option Offer) : (s.setOffer c x).fclk = s.fclk := rfl
@[simp] theorem setOffer_freeCtr (c : Nat) (x : Option Offer) : (s.setOffer c x).freeCtr = s.freeCtr := rfl
@[simp] theorem setOffer_regs (c : Nat) (x : Option Offer) : (s.setOffer c x).regs = s.regs := rfl
@[simp] theorem setOffer_held (c : Nat) (x : Option Offer) : (s.setOffer c x).held = s.held := rfl
@[simp] theorem setOffer_mem (c : Nat) (x : Option Offer) : (s.setOffer c x).mem = s.mem := rfl
@[simp] theorem setOffer_chk (c : Nat) (x : Option Offer) : (s.setOffer c x).chk = s.chk := rfl
@[simp] theorem setOffer_cst (c : Nat) (x : Option Offer) : (s.setOffer c x).cst = s.cst := rfl
@[simp] theorem setOffer_disp (c : Nat) (x : Option Offer) : (s.setOffer c x).disp = s.disp := rfl
@[simp] theorem setOffer_snap (c : Nat) (x : Option Offer) : (s.setOffer c x).snap = s.snap := rfl
@[simp] theorem setOffer_posted (c : Nat) (x : Option Offer) : (s.setOffer c x).posted = s.posted := rfl
@[simp] theorem setOffer_ctx (c : Nat) (x : Option Offer) : (s.setOffer c x).ctx = s.ctx := rfl
@[simp] theorem setOffer_qui (c : Nat) (x : Option Offer) : (s.setOffer c x).qui = s.qui := rfl
@[simp] theorem setOffer_qsl (c : Nat) (x : Option Offer) : (s.setOffer c x).qsl = s.qsl := rfl
@[simp] theorem setOffer_qdErr (c : Nat) (x : Option Offer) : (s.setOffer c x).qdErr = s.qdErr := rfl
@[simp] theorem setOffer_bnk (c : Nat) (x : Option Offer) : (s.setOffer c x).bnk = s.bnk := rfl
@[simp] theorem setOffer_beam (c : Nat) (x : Option Offer) : (s.setOffer c x).beam = s.beam := rfl
@[simp] theorem setOffer_tmr (c : Nat) (x : Option Offer) : (s.setOffer c x).tmr = s.tmr := rfl
@[simp] theorem setOffer_keep (c : Nat) (x : Option Offer) : (s.setOffer c x).keep = s.keep := rfl
@[simp] theorem setOffer_cvtrig (c : Nat) (x : Option Offer) : (s.setOffer c x).cvtrig = s.cvtrig := rfl
@[simp] theorem setOffer_lp (c : Nat) (x : Option Offer) : (s.setOffer c x).lp = s.lp := rfl
@[simp] theorem setOffer_snd (c : Nat) (x : Option Offer) : (s.setOffer c x).snd = s.snd := rfl
@[simp] theorem setOffer_blit (c : Nat) (x : Option Offer) : (s.setOffer c x).blit = s.blit := rfl
@[simp] theorem setOffer_tdr (c : Nat) (x : Option Offer) : (s.setOffer c x).tdr = s.tdr := rfl
@[simp] theorem setOffer_qdHigh (c : Nat) (x : Option Offer) : (s.setOffer c x).qdHigh = s.qdHigh := rfl
@[simp] theorem setOffer_col (c : Nat) (x : Option Offer) : (s.setOffer c x).col = s.col := rfl
@[simp] theorem setOffer_prs (c : Nat) (x : Option Offer) : (s.setOffer c x).prs = s.prs := rfl
@[simp] theorem setOffer_pwr (c : Nat) (x : Option Offer) : (s.setOffer c x).pwr = s.pwr := rfl
@[simp] theorem setOffer_fuse (c : Nat) (x : Option Offer) : (s.setOffer c x).fuse = s.fuse := rfl
@[simp] theorem setOffer_pin (c : Nat) (x : Option Offer) : (s.setOffer c x).pin = s.pin := rfl
@[simp] theorem setOffer_pio (c : Nat) (x : Option Offer) : (s.setOffer c x).pio = s.pio := rfl
@[simp] theorem setOffer_heard (c : Nat) (x : Option Offer) : (s.setOffer c x).heard = s.heard := rfl
@[simp] theorem setOffer_dma (c : Nat) (x : Option Offer) : (s.setOffer c x).dma = s.dma := rfl
@[simp] theorem setOffer_dmaTurn (c : Nat) (x : Option Offer) : (s.setOffer c x).dmaTurn = s.dmaTurn := rfl
@[simp] theorem setOffer_hm (c : Nat) (x : Option Offer) : (s.setOffer c x).hm = s.hm := rfl
@[simp] theorem setOffer_resp (c : Nat) (x : Option Offer) : (s.setOffer c x).resp = s.resp := rfl
@[simp] theorem setOffer_bw (c : Nat) (x : Option Offer) : (s.setOffer c x).bw = s.bw := rfl
@[simp] theorem setOffer_sti (c : Nat) (x : Option Offer) : (s.setOffer c x).sti = s.sti := rfl
@[simp] theorem setOffer_rho (c : Nat) (x : Option Offer) : (s.setOffer c x).rho = s.rho := rfl
@[simp] theorem setOffer_reg (c : Nat) (x : Option Offer) (j : Nat) : (s.setOffer c x).reg j = s.reg j := rfl
@[simp] theorem setOffer_get (c : Nat) (x : Option Offer) (g : RF) : (s.setOffer c x).get g = s.get g := rfl
@[simp] theorem setOffer_on (c : Nat) (x : Option Offer) (g : RF) : (s.setOffer c x).on g = s.on g := rfl
@[simp] theorem setOffer_cx (c : Nat) (x : Option Offer) (j : Nat) : (s.setOffer c x).cx j = s.cx j := rfl
@[simp] theorem setOffer_qu (c : Nat) (x : Option Offer) (j : Nat) : (s.setOffer c x).qu j = s.qu j := rfl
@[simp] theorem setOffer_sl (c : Nat) (x : Option Offer) (j : Nat) : (s.setOffer c x).sl j = s.sl j := rfl
@[simp] theorem setOffer_bk (c : Nat) (x : Option Offer) (j : Nat) : (s.setOffer c x).bk j = s.bk j := rfl
@[simp] theorem setOffer_tm (c : Nat) (x : Option Offer) (j : Nat) : (s.setOffer c x).tm j = s.tm j := rfl
@[simp] theorem setOffer_kt (c : Nat) (x : Option Offer) (j : Nat) : (s.setOffer c x).kt j = s.kt j := rfl
@[simp] theorem setOffer_pn (c : Nat) (x : Option Offer) (j : Nat) : (s.setOffer c x).pn j = s.pn j := rfl
@[simp] theorem setOffer_en (c : Nat) (x : Option Offer) (j : Nat) : (s.setOffer c x).en j = s.en j := rfl
@[simp] theorem setOffer_dm (c : Nat) (x : Option Offer) (j : Nat) : (s.setOffer c x).dm j = s.dm j := rfl
@[simp] theorem setOffer_sp (c : Nat) (x : Option Offer) (j : Nat) : (s.setOffer c x).sp j = s.sp j := rfl
@[simp] theorem setOffer_lpp (c : Nat) (x : Option Offer) (j : Nat) : (s.setOffer c x).lpp j = s.lpp j := rfl
@[simp] theorem setOffer_sp8 (c : Nat) (x : Option Offer) (j : Nat) : (s.setOffer c x).sp8 j = s.sp8 j := rfl
@[simp] theorem setOffer_move (c : Nat) (x : Option Offer) (j : Nat) : (s.setOffer c x).move j = s.move j := rfl
@[simp] theorem setOffer_isKept (c : Nat) (x : Option Offer) (j : Nat) : (s.setOffer c x).isKept j = s.isKept j := rfl
@[simp] theorem setOffer_domState (c : Nat) (x : Option Offer) (j : Nat) : (s.setOffer c x).domState j = s.domState j := rfl
@[simp] theorem setOffer_unitOn (c : Nat) (x : Option Offer) (j : Nat) : (s.setOffer c x).unitOn j = s.unitOn j := rfl
@[simp] theorem setOffer_unitKept (c : Nat) (x : Option Offer) (j : Nat) : (s.setOffer c x).unitKept j = s.unitKept j := rfl
@[simp] theorem setOffer_pageUp (c : Nat) (x : Option Offer) (j : Nat) : (s.setOffer c x).pageUp j = s.pageUp j := rfl

/-! `setMove` changes `pwr` alone. -/

@[simp] theorem setMove_pending (c : Nat) (x : Option Move) : (s.setMove c x).pending = s.pending := rfl
@[simp] theorem setMove_fclk (c : Nat) (x : Option Move) : (s.setMove c x).fclk = s.fclk := rfl
@[simp] theorem setMove_freeCtr (c : Nat) (x : Option Move) : (s.setMove c x).freeCtr = s.freeCtr := rfl
@[simp] theorem setMove_regs (c : Nat) (x : Option Move) : (s.setMove c x).regs = s.regs := rfl
@[simp] theorem setMove_held (c : Nat) (x : Option Move) : (s.setMove c x).held = s.held := rfl
@[simp] theorem setMove_mem (c : Nat) (x : Option Move) : (s.setMove c x).mem = s.mem := rfl
@[simp] theorem setMove_chk (c : Nat) (x : Option Move) : (s.setMove c x).chk = s.chk := rfl
@[simp] theorem setMove_cst (c : Nat) (x : Option Move) : (s.setMove c x).cst = s.cst := rfl
@[simp] theorem setMove_disp (c : Nat) (x : Option Move) : (s.setMove c x).disp = s.disp := rfl
@[simp] theorem setMove_snap (c : Nat) (x : Option Move) : (s.setMove c x).snap = s.snap := rfl
@[simp] theorem setMove_posted (c : Nat) (x : Option Move) : (s.setMove c x).posted = s.posted := rfl
@[simp] theorem setMove_ctx (c : Nat) (x : Option Move) : (s.setMove c x).ctx = s.ctx := rfl
@[simp] theorem setMove_qui (c : Nat) (x : Option Move) : (s.setMove c x).qui = s.qui := rfl
@[simp] theorem setMove_qsl (c : Nat) (x : Option Move) : (s.setMove c x).qsl = s.qsl := rfl
@[simp] theorem setMove_qdErr (c : Nat) (x : Option Move) : (s.setMove c x).qdErr = s.qdErr := rfl
@[simp] theorem setMove_bnk (c : Nat) (x : Option Move) : (s.setMove c x).bnk = s.bnk := rfl
@[simp] theorem setMove_beam (c : Nat) (x : Option Move) : (s.setMove c x).beam = s.beam := rfl
@[simp] theorem setMove_tmr (c : Nat) (x : Option Move) : (s.setMove c x).tmr = s.tmr := rfl
@[simp] theorem setMove_keep (c : Nat) (x : Option Move) : (s.setMove c x).keep = s.keep := rfl
@[simp] theorem setMove_cvtrig (c : Nat) (x : Option Move) : (s.setMove c x).cvtrig = s.cvtrig := rfl
@[simp] theorem setMove_lp (c : Nat) (x : Option Move) : (s.setMove c x).lp = s.lp := rfl
@[simp] theorem setMove_snd (c : Nat) (x : Option Move) : (s.setMove c x).snd = s.snd := rfl
@[simp] theorem setMove_blit (c : Nat) (x : Option Move) : (s.setMove c x).blit = s.blit := rfl
@[simp] theorem setMove_int (c : Nat) (x : Option Move) : (s.setMove c x).int = s.int := rfl
@[simp] theorem setMove_tdr (c : Nat) (x : Option Move) : (s.setMove c x).tdr = s.tdr := rfl
@[simp] theorem setMove_qdHigh (c : Nat) (x : Option Move) : (s.setMove c x).qdHigh = s.qdHigh := rfl
@[simp] theorem setMove_col (c : Nat) (x : Option Move) : (s.setMove c x).col = s.col := rfl
@[simp] theorem setMove_prs (c : Nat) (x : Option Move) : (s.setMove c x).prs = s.prs := rfl
@[simp] theorem setMove_fuse (c : Nat) (x : Option Move) : (s.setMove c x).fuse = s.fuse := rfl
@[simp] theorem setMove_pin (c : Nat) (x : Option Move) : (s.setMove c x).pin = s.pin := rfl
@[simp] theorem setMove_pio (c : Nat) (x : Option Move) : (s.setMove c x).pio = s.pio := rfl
@[simp] theorem setMove_heard (c : Nat) (x : Option Move) : (s.setMove c x).heard = s.heard := rfl
@[simp] theorem setMove_dma (c : Nat) (x : Option Move) : (s.setMove c x).dma = s.dma := rfl
@[simp] theorem setMove_dmaTurn (c : Nat) (x : Option Move) : (s.setMove c x).dmaTurn = s.dmaTurn := rfl
@[simp] theorem setMove_hm (c : Nat) (x : Option Move) : (s.setMove c x).hm = s.hm := rfl
@[simp] theorem setMove_resp (c : Nat) (x : Option Move) : (s.setMove c x).resp = s.resp := rfl
@[simp] theorem setMove_bw (c : Nat) (x : Option Move) : (s.setMove c x).bw = s.bw := rfl
@[simp] theorem setMove_sti (c : Nat) (x : Option Move) : (s.setMove c x).sti = s.sti := rfl
@[simp] theorem setMove_rho (c : Nat) (x : Option Move) : (s.setMove c x).rho = s.rho := rfl
@[simp] theorem setMove_reg (c : Nat) (x : Option Move) (j : Nat) : (s.setMove c x).reg j = s.reg j := rfl
@[simp] theorem setMove_get (c : Nat) (x : Option Move) (g : RF) : (s.setMove c x).get g = s.get g := rfl
@[simp] theorem setMove_on (c : Nat) (x : Option Move) (g : RF) : (s.setMove c x).on g = s.on g := rfl
@[simp] theorem setMove_cx (c : Nat) (x : Option Move) (j : Nat) : (s.setMove c x).cx j = s.cx j := rfl
@[simp] theorem setMove_qu (c : Nat) (x : Option Move) (j : Nat) : (s.setMove c x).qu j = s.qu j := rfl
@[simp] theorem setMove_sl (c : Nat) (x : Option Move) (j : Nat) : (s.setMove c x).sl j = s.sl j := rfl
@[simp] theorem setMove_bk (c : Nat) (x : Option Move) (j : Nat) : (s.setMove c x).bk j = s.bk j := rfl
@[simp] theorem setMove_tm (c : Nat) (x : Option Move) (j : Nat) : (s.setMove c x).tm j = s.tm j := rfl
@[simp] theorem setMove_kt (c : Nat) (x : Option Move) (j : Nat) : (s.setMove c x).kt j = s.kt j := rfl
@[simp] theorem setMove_pn (c : Nat) (x : Option Move) (j : Nat) : (s.setMove c x).pn j = s.pn j := rfl
@[simp] theorem setMove_en (c : Nat) (x : Option Move) (j : Nat) : (s.setMove c x).en j = s.en j := rfl
@[simp] theorem setMove_dm (c : Nat) (x : Option Move) (j : Nat) : (s.setMove c x).dm j = s.dm j := rfl
@[simp] theorem setMove_sp (c : Nat) (x : Option Move) (j : Nat) : (s.setMove c x).sp j = s.sp j := rfl
@[simp] theorem setMove_lpp (c : Nat) (x : Option Move) (j : Nat) : (s.setMove c x).lpp j = s.lpp j := rfl
@[simp] theorem setMove_sp8 (c : Nat) (x : Option Move) (j : Nat) : (s.setMove c x).sp8 j = s.sp8 j := rfl
@[simp] theorem setMove_offerOf (c : Nat) (x : Option Move) (j : Nat) : (s.setMove c x).offerOf j = s.offerOf j := rfl
@[simp] theorem setMove_isKept (c : Nat) (x : Option Move) (j : Nat) : (s.setMove c x).isKept j = s.isKept j := rfl
@[simp] theorem setMove_domState (c : Nat) (x : Option Move) (j : Nat) : (s.setMove c x).domState j = s.domState j := rfl
@[simp] theorem setMove_unitOn (c : Nat) (x : Option Move) (j : Nat) : (s.setMove c x).unitOn j = s.unitOn j := rfl
@[simp] theorem setMove_unitKept (c : Nat) (x : Option Move) (j : Nat) : (s.setMove c x).unitKept j = s.unitKept j := rfl
@[simp] theorem setMove_pageUp (c : Nat) (x : Option Move) (j : Nat) : (s.setMove c x).pageUp j = s.pageUp j := rfl

/-! `setDom` changes `pwr` alone. -/

@[simp] theorem setDom_pending (c x : Nat) : (s.setDom c x).pending = s.pending := rfl
@[simp] theorem setDom_fclk (c x : Nat) : (s.setDom c x).fclk = s.fclk := rfl
@[simp] theorem setDom_freeCtr (c x : Nat) : (s.setDom c x).freeCtr = s.freeCtr := rfl
@[simp] theorem setDom_regs (c x : Nat) : (s.setDom c x).regs = s.regs := rfl
@[simp] theorem setDom_held (c x : Nat) : (s.setDom c x).held = s.held := rfl
@[simp] theorem setDom_mem (c x : Nat) : (s.setDom c x).mem = s.mem := rfl
@[simp] theorem setDom_chk (c x : Nat) : (s.setDom c x).chk = s.chk := rfl
@[simp] theorem setDom_cst (c x : Nat) : (s.setDom c x).cst = s.cst := rfl
@[simp] theorem setDom_disp (c x : Nat) : (s.setDom c x).disp = s.disp := rfl
@[simp] theorem setDom_snap (c x : Nat) : (s.setDom c x).snap = s.snap := rfl
@[simp] theorem setDom_posted (c x : Nat) : (s.setDom c x).posted = s.posted := rfl
@[simp] theorem setDom_ctx (c x : Nat) : (s.setDom c x).ctx = s.ctx := rfl
@[simp] theorem setDom_qui (c x : Nat) : (s.setDom c x).qui = s.qui := rfl
@[simp] theorem setDom_qsl (c x : Nat) : (s.setDom c x).qsl = s.qsl := rfl
@[simp] theorem setDom_qdErr (c x : Nat) : (s.setDom c x).qdErr = s.qdErr := rfl
@[simp] theorem setDom_bnk (c x : Nat) : (s.setDom c x).bnk = s.bnk := rfl
@[simp] theorem setDom_beam (c x : Nat) : (s.setDom c x).beam = s.beam := rfl
@[simp] theorem setDom_tmr (c x : Nat) : (s.setDom c x).tmr = s.tmr := rfl
@[simp] theorem setDom_keep (c x : Nat) : (s.setDom c x).keep = s.keep := rfl
@[simp] theorem setDom_cvtrig (c x : Nat) : (s.setDom c x).cvtrig = s.cvtrig := rfl
@[simp] theorem setDom_lp (c x : Nat) : (s.setDom c x).lp = s.lp := rfl
@[simp] theorem setDom_snd (c x : Nat) : (s.setDom c x).snd = s.snd := rfl
@[simp] theorem setDom_blit (c x : Nat) : (s.setDom c x).blit = s.blit := rfl
@[simp] theorem setDom_int (c x : Nat) : (s.setDom c x).int = s.int := rfl
@[simp] theorem setDom_tdr (c x : Nat) : (s.setDom c x).tdr = s.tdr := rfl
@[simp] theorem setDom_qdHigh (c x : Nat) : (s.setDom c x).qdHigh = s.qdHigh := rfl
@[simp] theorem setDom_col (c x : Nat) : (s.setDom c x).col = s.col := rfl
@[simp] theorem setDom_prs (c x : Nat) : (s.setDom c x).prs = s.prs := rfl
@[simp] theorem setDom_fuse (c x : Nat) : (s.setDom c x).fuse = s.fuse := rfl
@[simp] theorem setDom_pin (c x : Nat) : (s.setDom c x).pin = s.pin := rfl
@[simp] theorem setDom_pio (c x : Nat) : (s.setDom c x).pio = s.pio := rfl
@[simp] theorem setDom_heard (c x : Nat) : (s.setDom c x).heard = s.heard := rfl
@[simp] theorem setDom_dma (c x : Nat) : (s.setDom c x).dma = s.dma := rfl
@[simp] theorem setDom_dmaTurn (c x : Nat) : (s.setDom c x).dmaTurn = s.dmaTurn := rfl
@[simp] theorem setDom_hm (c x : Nat) : (s.setDom c x).hm = s.hm := rfl
@[simp] theorem setDom_resp (c x : Nat) : (s.setDom c x).resp = s.resp := rfl
@[simp] theorem setDom_bw (c x : Nat) : (s.setDom c x).bw = s.bw := rfl
@[simp] theorem setDom_sti (c x : Nat) : (s.setDom c x).sti = s.sti := rfl
@[simp] theorem setDom_rho (c x : Nat) : (s.setDom c x).rho = s.rho := rfl
@[simp] theorem setDom_reg (c x : Nat) (j : Nat) : (s.setDom c x).reg j = s.reg j := rfl
@[simp] theorem setDom_get (c x : Nat) (g : RF) : (s.setDom c x).get g = s.get g := rfl
@[simp] theorem setDom_on (c x : Nat) (g : RF) : (s.setDom c x).on g = s.on g := rfl
@[simp] theorem setDom_cx (c x : Nat) (j : Nat) : (s.setDom c x).cx j = s.cx j := rfl
@[simp] theorem setDom_qu (c x : Nat) (j : Nat) : (s.setDom c x).qu j = s.qu j := rfl
@[simp] theorem setDom_sl (c x : Nat) (j : Nat) : (s.setDom c x).sl j = s.sl j := rfl
@[simp] theorem setDom_bk (c x : Nat) (j : Nat) : (s.setDom c x).bk j = s.bk j := rfl
@[simp] theorem setDom_tm (c x : Nat) (j : Nat) : (s.setDom c x).tm j = s.tm j := rfl
@[simp] theorem setDom_kt (c x : Nat) (j : Nat) : (s.setDom c x).kt j = s.kt j := rfl
@[simp] theorem setDom_pn (c x : Nat) (j : Nat) : (s.setDom c x).pn j = s.pn j := rfl
@[simp] theorem setDom_en (c x : Nat) (j : Nat) : (s.setDom c x).en j = s.en j := rfl
@[simp] theorem setDom_dm (c x : Nat) (j : Nat) : (s.setDom c x).dm j = s.dm j := rfl
@[simp] theorem setDom_sp (c x : Nat) (j : Nat) : (s.setDom c x).sp j = s.sp j := rfl
@[simp] theorem setDom_lpp (c x : Nat) (j : Nat) : (s.setDom c x).lpp j = s.lpp j := rfl
@[simp] theorem setDom_sp8 (c x : Nat) (j : Nat) : (s.setDom c x).sp8 j = s.sp8 j := rfl
@[simp] theorem setDom_offerOf (c x : Nat) (j : Nat) : (s.setDom c x).offerOf j = s.offerOf j := rfl
@[simp] theorem setDom_move (c x : Nat) (j : Nat) : (s.setDom c x).move j = s.move j := rfl
@[simp] theorem setDom_isKept (c x : Nat) (j : Nat) : (s.setDom c x).isKept j = s.isKept j := rfl

/-! `setKept` changes `pwr` alone. -/

@[simp] theorem setKept_pending (c : Nat) (x : Bool) : (s.setKept c x).pending = s.pending := rfl
@[simp] theorem setKept_fclk (c : Nat) (x : Bool) : (s.setKept c x).fclk = s.fclk := rfl
@[simp] theorem setKept_freeCtr (c : Nat) (x : Bool) : (s.setKept c x).freeCtr = s.freeCtr := rfl
@[simp] theorem setKept_regs (c : Nat) (x : Bool) : (s.setKept c x).regs = s.regs := rfl
@[simp] theorem setKept_held (c : Nat) (x : Bool) : (s.setKept c x).held = s.held := rfl
@[simp] theorem setKept_mem (c : Nat) (x : Bool) : (s.setKept c x).mem = s.mem := rfl
@[simp] theorem setKept_chk (c : Nat) (x : Bool) : (s.setKept c x).chk = s.chk := rfl
@[simp] theorem setKept_cst (c : Nat) (x : Bool) : (s.setKept c x).cst = s.cst := rfl
@[simp] theorem setKept_disp (c : Nat) (x : Bool) : (s.setKept c x).disp = s.disp := rfl
@[simp] theorem setKept_snap (c : Nat) (x : Bool) : (s.setKept c x).snap = s.snap := rfl
@[simp] theorem setKept_posted (c : Nat) (x : Bool) : (s.setKept c x).posted = s.posted := rfl
@[simp] theorem setKept_ctx (c : Nat) (x : Bool) : (s.setKept c x).ctx = s.ctx := rfl
@[simp] theorem setKept_qui (c : Nat) (x : Bool) : (s.setKept c x).qui = s.qui := rfl
@[simp] theorem setKept_qsl (c : Nat) (x : Bool) : (s.setKept c x).qsl = s.qsl := rfl
@[simp] theorem setKept_qdErr (c : Nat) (x : Bool) : (s.setKept c x).qdErr = s.qdErr := rfl
@[simp] theorem setKept_bnk (c : Nat) (x : Bool) : (s.setKept c x).bnk = s.bnk := rfl
@[simp] theorem setKept_beam (c : Nat) (x : Bool) : (s.setKept c x).beam = s.beam := rfl
@[simp] theorem setKept_tmr (c : Nat) (x : Bool) : (s.setKept c x).tmr = s.tmr := rfl
@[simp] theorem setKept_keep (c : Nat) (x : Bool) : (s.setKept c x).keep = s.keep := rfl
@[simp] theorem setKept_cvtrig (c : Nat) (x : Bool) : (s.setKept c x).cvtrig = s.cvtrig := rfl
@[simp] theorem setKept_lp (c : Nat) (x : Bool) : (s.setKept c x).lp = s.lp := rfl
@[simp] theorem setKept_snd (c : Nat) (x : Bool) : (s.setKept c x).snd = s.snd := rfl
@[simp] theorem setKept_blit (c : Nat) (x : Bool) : (s.setKept c x).blit = s.blit := rfl
@[simp] theorem setKept_int (c : Nat) (x : Bool) : (s.setKept c x).int = s.int := rfl
@[simp] theorem setKept_tdr (c : Nat) (x : Bool) : (s.setKept c x).tdr = s.tdr := rfl
@[simp] theorem setKept_qdHigh (c : Nat) (x : Bool) : (s.setKept c x).qdHigh = s.qdHigh := rfl
@[simp] theorem setKept_col (c : Nat) (x : Bool) : (s.setKept c x).col = s.col := rfl
@[simp] theorem setKept_prs (c : Nat) (x : Bool) : (s.setKept c x).prs = s.prs := rfl
@[simp] theorem setKept_fuse (c : Nat) (x : Bool) : (s.setKept c x).fuse = s.fuse := rfl
@[simp] theorem setKept_pin (c : Nat) (x : Bool) : (s.setKept c x).pin = s.pin := rfl
@[simp] theorem setKept_pio (c : Nat) (x : Bool) : (s.setKept c x).pio = s.pio := rfl
@[simp] theorem setKept_heard (c : Nat) (x : Bool) : (s.setKept c x).heard = s.heard := rfl
@[simp] theorem setKept_dma (c : Nat) (x : Bool) : (s.setKept c x).dma = s.dma := rfl
@[simp] theorem setKept_dmaTurn (c : Nat) (x : Bool) : (s.setKept c x).dmaTurn = s.dmaTurn := rfl
@[simp] theorem setKept_hm (c : Nat) (x : Bool) : (s.setKept c x).hm = s.hm := rfl
@[simp] theorem setKept_resp (c : Nat) (x : Bool) : (s.setKept c x).resp = s.resp := rfl
@[simp] theorem setKept_bw (c : Nat) (x : Bool) : (s.setKept c x).bw = s.bw := rfl
@[simp] theorem setKept_sti (c : Nat) (x : Bool) : (s.setKept c x).sti = s.sti := rfl
@[simp] theorem setKept_rho (c : Nat) (x : Bool) : (s.setKept c x).rho = s.rho := rfl
@[simp] theorem setKept_reg (c : Nat) (x : Bool) (j : Nat) : (s.setKept c x).reg j = s.reg j := rfl
@[simp] theorem setKept_get (c : Nat) (x : Bool) (g : RF) : (s.setKept c x).get g = s.get g := rfl
@[simp] theorem setKept_on (c : Nat) (x : Bool) (g : RF) : (s.setKept c x).on g = s.on g := rfl
@[simp] theorem setKept_cx (c : Nat) (x : Bool) (j : Nat) : (s.setKept c x).cx j = s.cx j := rfl
@[simp] theorem setKept_qu (c : Nat) (x : Bool) (j : Nat) : (s.setKept c x).qu j = s.qu j := rfl
@[simp] theorem setKept_sl (c : Nat) (x : Bool) (j : Nat) : (s.setKept c x).sl j = s.sl j := rfl
@[simp] theorem setKept_bk (c : Nat) (x : Bool) (j : Nat) : (s.setKept c x).bk j = s.bk j := rfl
@[simp] theorem setKept_tm (c : Nat) (x : Bool) (j : Nat) : (s.setKept c x).tm j = s.tm j := rfl
@[simp] theorem setKept_kt (c : Nat) (x : Bool) (j : Nat) : (s.setKept c x).kt j = s.kt j := rfl
@[simp] theorem setKept_pn (c : Nat) (x : Bool) (j : Nat) : (s.setKept c x).pn j = s.pn j := rfl
@[simp] theorem setKept_en (c : Nat) (x : Bool) (j : Nat) : (s.setKept c x).en j = s.en j := rfl
@[simp] theorem setKept_dm (c : Nat) (x : Bool) (j : Nat) : (s.setKept c x).dm j = s.dm j := rfl
@[simp] theorem setKept_sp (c : Nat) (x : Bool) (j : Nat) : (s.setKept c x).sp j = s.sp j := rfl
@[simp] theorem setKept_lpp (c : Nat) (x : Bool) (j : Nat) : (s.setKept c x).lpp j = s.lpp j := rfl
@[simp] theorem setKept_sp8 (c : Nat) (x : Bool) (j : Nat) : (s.setKept c x).sp8 j = s.sp8 j := rfl
@[simp] theorem setKept_offerOf (c : Nat) (x : Bool) (j : Nat) : (s.setKept c x).offerOf j = s.offerOf j := rfl
@[simp] theorem setKept_move (c : Nat) (x : Bool) (j : Nat) : (s.setKept c x).move j = s.move j := rfl
@[simp] theorem setKept_domState (c : Nat) (x : Bool) (j : Nat) : (s.setKept c x).domState j = s.domState j := rfl
@[simp] theorem setKept_unitOn (c : Nat) (x : Bool) (j : Nat) : (s.setKept c x).unitOn j = s.unitOn j := rfl
@[simp] theorem setKept_unitKept (c : Nat) (x : Bool) (j : Nat) : (s.setKept c x).unitKept j = s.unitKept j := rfl
@[simp] theorem setKept_pageUp (c : Nat) (x : Bool) (j : Nat) : (s.setKept c x).pageUp j = s.pageUp j := rfl

/-! `setTokens` changes `col` alone. -/

@[simp] theorem setTokens_pending (c x : Nat) : (s.setTokens c x).pending = s.pending := rfl
@[simp] theorem setTokens_fclk (c x : Nat) : (s.setTokens c x).fclk = s.fclk := rfl
@[simp] theorem setTokens_freeCtr (c x : Nat) : (s.setTokens c x).freeCtr = s.freeCtr := rfl
@[simp] theorem setTokens_regs (c x : Nat) : (s.setTokens c x).regs = s.regs := rfl
@[simp] theorem setTokens_held (c x : Nat) : (s.setTokens c x).held = s.held := rfl
@[simp] theorem setTokens_mem (c x : Nat) : (s.setTokens c x).mem = s.mem := rfl
@[simp] theorem setTokens_chk (c x : Nat) : (s.setTokens c x).chk = s.chk := rfl
@[simp] theorem setTokens_cst (c x : Nat) : (s.setTokens c x).cst = s.cst := rfl
@[simp] theorem setTokens_disp (c x : Nat) : (s.setTokens c x).disp = s.disp := rfl
@[simp] theorem setTokens_snap (c x : Nat) : (s.setTokens c x).snap = s.snap := rfl
@[simp] theorem setTokens_posted (c x : Nat) : (s.setTokens c x).posted = s.posted := rfl
@[simp] theorem setTokens_ctx (c x : Nat) : (s.setTokens c x).ctx = s.ctx := rfl
@[simp] theorem setTokens_qui (c x : Nat) : (s.setTokens c x).qui = s.qui := rfl
@[simp] theorem setTokens_qsl (c x : Nat) : (s.setTokens c x).qsl = s.qsl := rfl
@[simp] theorem setTokens_qdErr (c x : Nat) : (s.setTokens c x).qdErr = s.qdErr := rfl
@[simp] theorem setTokens_bnk (c x : Nat) : (s.setTokens c x).bnk = s.bnk := rfl
@[simp] theorem setTokens_beam (c x : Nat) : (s.setTokens c x).beam = s.beam := rfl
@[simp] theorem setTokens_tmr (c x : Nat) : (s.setTokens c x).tmr = s.tmr := rfl
@[simp] theorem setTokens_keep (c x : Nat) : (s.setTokens c x).keep = s.keep := rfl
@[simp] theorem setTokens_cvtrig (c x : Nat) : (s.setTokens c x).cvtrig = s.cvtrig := rfl
@[simp] theorem setTokens_lp (c x : Nat) : (s.setTokens c x).lp = s.lp := rfl
@[simp] theorem setTokens_snd (c x : Nat) : (s.setTokens c x).snd = s.snd := rfl
@[simp] theorem setTokens_blit (c x : Nat) : (s.setTokens c x).blit = s.blit := rfl
@[simp] theorem setTokens_int (c x : Nat) : (s.setTokens c x).int = s.int := rfl
@[simp] theorem setTokens_tdr (c x : Nat) : (s.setTokens c x).tdr = s.tdr := rfl
@[simp] theorem setTokens_qdHigh (c x : Nat) : (s.setTokens c x).qdHigh = s.qdHigh := rfl
@[simp] theorem setTokens_prs (c x : Nat) : (s.setTokens c x).prs = s.prs := rfl
@[simp] theorem setTokens_pwr (c x : Nat) : (s.setTokens c x).pwr = s.pwr := rfl
@[simp] theorem setTokens_fuse (c x : Nat) : (s.setTokens c x).fuse = s.fuse := rfl
@[simp] theorem setTokens_pin (c x : Nat) : (s.setTokens c x).pin = s.pin := rfl
@[simp] theorem setTokens_pio (c x : Nat) : (s.setTokens c x).pio = s.pio := rfl
@[simp] theorem setTokens_heard (c x : Nat) : (s.setTokens c x).heard = s.heard := rfl
@[simp] theorem setTokens_dma (c x : Nat) : (s.setTokens c x).dma = s.dma := rfl
@[simp] theorem setTokens_dmaTurn (c x : Nat) : (s.setTokens c x).dmaTurn = s.dmaTurn := rfl
@[simp] theorem setTokens_hm (c x : Nat) : (s.setTokens c x).hm = s.hm := rfl
@[simp] theorem setTokens_resp (c x : Nat) : (s.setTokens c x).resp = s.resp := rfl
@[simp] theorem setTokens_bw (c x : Nat) : (s.setTokens c x).bw = s.bw := rfl
@[simp] theorem setTokens_sti (c x : Nat) : (s.setTokens c x).sti = s.sti := rfl
@[simp] theorem setTokens_rho (c x : Nat) : (s.setTokens c x).rho = s.rho := rfl
@[simp] theorem setTokens_reg (c x : Nat) (j : Nat) : (s.setTokens c x).reg j = s.reg j := rfl
@[simp] theorem setTokens_get (c x : Nat) (g : RF) : (s.setTokens c x).get g = s.get g := rfl
@[simp] theorem setTokens_on (c x : Nat) (g : RF) : (s.setTokens c x).on g = s.on g := rfl
@[simp] theorem setTokens_cx (c x : Nat) (j : Nat) : (s.setTokens c x).cx j = s.cx j := rfl
@[simp] theorem setTokens_qu (c x : Nat) (j : Nat) : (s.setTokens c x).qu j = s.qu j := rfl
@[simp] theorem setTokens_sl (c x : Nat) (j : Nat) : (s.setTokens c x).sl j = s.sl j := rfl
@[simp] theorem setTokens_bk (c x : Nat) (j : Nat) : (s.setTokens c x).bk j = s.bk j := rfl
@[simp] theorem setTokens_tm (c x : Nat) (j : Nat) : (s.setTokens c x).tm j = s.tm j := rfl
@[simp] theorem setTokens_kt (c x : Nat) (j : Nat) : (s.setTokens c x).kt j = s.kt j := rfl
@[simp] theorem setTokens_pn (c x : Nat) (j : Nat) : (s.setTokens c x).pn j = s.pn j := rfl
@[simp] theorem setTokens_en (c x : Nat) (j : Nat) : (s.setTokens c x).en j = s.en j := rfl
@[simp] theorem setTokens_dm (c x : Nat) (j : Nat) : (s.setTokens c x).dm j = s.dm j := rfl
@[simp] theorem setTokens_sp (c x : Nat) (j : Nat) : (s.setTokens c x).sp j = s.sp j := rfl
@[simp] theorem setTokens_lpp (c x : Nat) (j : Nat) : (s.setTokens c x).lpp j = s.lpp j := rfl
@[simp] theorem setTokens_sp8 (c x : Nat) (j : Nat) : (s.setTokens c x).sp8 j = s.sp8 j := rfl
@[simp] theorem setTokens_offerOf (c x : Nat) (j : Nat) : (s.setTokens c x).offerOf j = s.offerOf j := rfl
@[simp] theorem setTokens_move (c x : Nat) (j : Nat) : (s.setTokens c x).move j = s.move j := rfl
@[simp] theorem setTokens_isKept (c x : Nat) (j : Nat) : (s.setTokens c x).isKept j = s.isKept j := rfl
@[simp] theorem setTokens_domState (c x : Nat) (j : Nat) : (s.setTokens c x).domState j = s.domState j := rfl
@[simp] theorem setTokens_unitOn (c x : Nat) (j : Nat) : (s.setTokens c x).unitOn j = s.unitOn j := rfl
@[simp] theorem setTokens_unitKept (c x : Nat) (j : Nat) : (s.setTokens c x).unitKept j = s.unitKept j := rfl
@[simp] theorem setTokens_pageUp (c x : Nat) (j : Nat) : (s.setTokens c x).pageUp j = s.pageUp j := rfl

/-! `setSat` changes `col` alone. -/

@[simp] theorem setSat_pending (c : Nat) (x : Bool) : (s.setSat c x).pending = s.pending := rfl
@[simp] theorem setSat_fclk (c : Nat) (x : Bool) : (s.setSat c x).fclk = s.fclk := rfl
@[simp] theorem setSat_freeCtr (c : Nat) (x : Bool) : (s.setSat c x).freeCtr = s.freeCtr := rfl
@[simp] theorem setSat_regs (c : Nat) (x : Bool) : (s.setSat c x).regs = s.regs := rfl
@[simp] theorem setSat_held (c : Nat) (x : Bool) : (s.setSat c x).held = s.held := rfl
@[simp] theorem setSat_mem (c : Nat) (x : Bool) : (s.setSat c x).mem = s.mem := rfl
@[simp] theorem setSat_chk (c : Nat) (x : Bool) : (s.setSat c x).chk = s.chk := rfl
@[simp] theorem setSat_cst (c : Nat) (x : Bool) : (s.setSat c x).cst = s.cst := rfl
@[simp] theorem setSat_disp (c : Nat) (x : Bool) : (s.setSat c x).disp = s.disp := rfl
@[simp] theorem setSat_snap (c : Nat) (x : Bool) : (s.setSat c x).snap = s.snap := rfl
@[simp] theorem setSat_posted (c : Nat) (x : Bool) : (s.setSat c x).posted = s.posted := rfl
@[simp] theorem setSat_ctx (c : Nat) (x : Bool) : (s.setSat c x).ctx = s.ctx := rfl
@[simp] theorem setSat_qui (c : Nat) (x : Bool) : (s.setSat c x).qui = s.qui := rfl
@[simp] theorem setSat_qsl (c : Nat) (x : Bool) : (s.setSat c x).qsl = s.qsl := rfl
@[simp] theorem setSat_qdErr (c : Nat) (x : Bool) : (s.setSat c x).qdErr = s.qdErr := rfl
@[simp] theorem setSat_bnk (c : Nat) (x : Bool) : (s.setSat c x).bnk = s.bnk := rfl
@[simp] theorem setSat_beam (c : Nat) (x : Bool) : (s.setSat c x).beam = s.beam := rfl
@[simp] theorem setSat_tmr (c : Nat) (x : Bool) : (s.setSat c x).tmr = s.tmr := rfl
@[simp] theorem setSat_keep (c : Nat) (x : Bool) : (s.setSat c x).keep = s.keep := rfl
@[simp] theorem setSat_cvtrig (c : Nat) (x : Bool) : (s.setSat c x).cvtrig = s.cvtrig := rfl
@[simp] theorem setSat_lp (c : Nat) (x : Bool) : (s.setSat c x).lp = s.lp := rfl
@[simp] theorem setSat_snd (c : Nat) (x : Bool) : (s.setSat c x).snd = s.snd := rfl
@[simp] theorem setSat_blit (c : Nat) (x : Bool) : (s.setSat c x).blit = s.blit := rfl
@[simp] theorem setSat_int (c : Nat) (x : Bool) : (s.setSat c x).int = s.int := rfl
@[simp] theorem setSat_tdr (c : Nat) (x : Bool) : (s.setSat c x).tdr = s.tdr := rfl
@[simp] theorem setSat_qdHigh (c : Nat) (x : Bool) : (s.setSat c x).qdHigh = s.qdHigh := rfl
@[simp] theorem setSat_prs (c : Nat) (x : Bool) : (s.setSat c x).prs = s.prs := rfl
@[simp] theorem setSat_pwr (c : Nat) (x : Bool) : (s.setSat c x).pwr = s.pwr := rfl
@[simp] theorem setSat_fuse (c : Nat) (x : Bool) : (s.setSat c x).fuse = s.fuse := rfl
@[simp] theorem setSat_pin (c : Nat) (x : Bool) : (s.setSat c x).pin = s.pin := rfl
@[simp] theorem setSat_pio (c : Nat) (x : Bool) : (s.setSat c x).pio = s.pio := rfl
@[simp] theorem setSat_heard (c : Nat) (x : Bool) : (s.setSat c x).heard = s.heard := rfl
@[simp] theorem setSat_dma (c : Nat) (x : Bool) : (s.setSat c x).dma = s.dma := rfl
@[simp] theorem setSat_dmaTurn (c : Nat) (x : Bool) : (s.setSat c x).dmaTurn = s.dmaTurn := rfl
@[simp] theorem setSat_hm (c : Nat) (x : Bool) : (s.setSat c x).hm = s.hm := rfl
@[simp] theorem setSat_resp (c : Nat) (x : Bool) : (s.setSat c x).resp = s.resp := rfl
@[simp] theorem setSat_bw (c : Nat) (x : Bool) : (s.setSat c x).bw = s.bw := rfl
@[simp] theorem setSat_sti (c : Nat) (x : Bool) : (s.setSat c x).sti = s.sti := rfl
@[simp] theorem setSat_rho (c : Nat) (x : Bool) : (s.setSat c x).rho = s.rho := rfl
@[simp] theorem setSat_reg (c : Nat) (x : Bool) (j : Nat) : (s.setSat c x).reg j = s.reg j := rfl
@[simp] theorem setSat_get (c : Nat) (x : Bool) (g : RF) : (s.setSat c x).get g = s.get g := rfl
@[simp] theorem setSat_on (c : Nat) (x : Bool) (g : RF) : (s.setSat c x).on g = s.on g := rfl
@[simp] theorem setSat_cx (c : Nat) (x : Bool) (j : Nat) : (s.setSat c x).cx j = s.cx j := rfl
@[simp] theorem setSat_qu (c : Nat) (x : Bool) (j : Nat) : (s.setSat c x).qu j = s.qu j := rfl
@[simp] theorem setSat_sl (c : Nat) (x : Bool) (j : Nat) : (s.setSat c x).sl j = s.sl j := rfl
@[simp] theorem setSat_bk (c : Nat) (x : Bool) (j : Nat) : (s.setSat c x).bk j = s.bk j := rfl
@[simp] theorem setSat_tm (c : Nat) (x : Bool) (j : Nat) : (s.setSat c x).tm j = s.tm j := rfl
@[simp] theorem setSat_kt (c : Nat) (x : Bool) (j : Nat) : (s.setSat c x).kt j = s.kt j := rfl
@[simp] theorem setSat_pn (c : Nat) (x : Bool) (j : Nat) : (s.setSat c x).pn j = s.pn j := rfl
@[simp] theorem setSat_en (c : Nat) (x : Bool) (j : Nat) : (s.setSat c x).en j = s.en j := rfl
@[simp] theorem setSat_dm (c : Nat) (x : Bool) (j : Nat) : (s.setSat c x).dm j = s.dm j := rfl
@[simp] theorem setSat_sp (c : Nat) (x : Bool) (j : Nat) : (s.setSat c x).sp j = s.sp j := rfl
@[simp] theorem setSat_lpp (c : Nat) (x : Bool) (j : Nat) : (s.setSat c x).lpp j = s.lpp j := rfl
@[simp] theorem setSat_sp8 (c : Nat) (x : Bool) (j : Nat) : (s.setSat c x).sp8 j = s.sp8 j := rfl
@[simp] theorem setSat_offerOf (c : Nat) (x : Bool) (j : Nat) : (s.setSat c x).offerOf j = s.offerOf j := rfl
@[simp] theorem setSat_move (c : Nat) (x : Bool) (j : Nat) : (s.setSat c x).move j = s.move j := rfl
@[simp] theorem setSat_isKept (c : Nat) (x : Bool) (j : Nat) : (s.setSat c x).isKept j = s.isKept j := rfl
@[simp] theorem setSat_domState (c : Nat) (x : Bool) (j : Nat) : (s.setSat c x).domState j = s.domState j := rfl
@[simp] theorem setSat_unitOn (c : Nat) (x : Bool) (j : Nat) : (s.setSat c x).unitOn j = s.unitOn j := rfl
@[simp] theorem setSat_unitKept (c : Nat) (x : Bool) (j : Nat) : (s.setSat c x).unitKept j = s.unitKept j := rfl
@[simp] theorem setSat_pageUp (c : Nat) (x : Bool) (j : Nat) : (s.setSat c x).pageUp j = s.pageUp j := rfl

/-! `setStore` changes `cst` alone. -/

@[simp] theorem setStore_pending (c a : Nat) (x : Stored) : (s.setStore c a x).pending = s.pending := rfl
@[simp] theorem setStore_fclk (c a : Nat) (x : Stored) : (s.setStore c a x).fclk = s.fclk := rfl
@[simp] theorem setStore_freeCtr (c a : Nat) (x : Stored) : (s.setStore c a x).freeCtr = s.freeCtr := rfl
@[simp] theorem setStore_regs (c a : Nat) (x : Stored) : (s.setStore c a x).regs = s.regs := rfl
@[simp] theorem setStore_held (c a : Nat) (x : Stored) : (s.setStore c a x).held = s.held := rfl
@[simp] theorem setStore_mem (c a : Nat) (x : Stored) : (s.setStore c a x).mem = s.mem := rfl
@[simp] theorem setStore_chk (c a : Nat) (x : Stored) : (s.setStore c a x).chk = s.chk := rfl
@[simp] theorem setStore_disp (c a : Nat) (x : Stored) : (s.setStore c a x).disp = s.disp := rfl
@[simp] theorem setStore_snap (c a : Nat) (x : Stored) : (s.setStore c a x).snap = s.snap := rfl
@[simp] theorem setStore_posted (c a : Nat) (x : Stored) : (s.setStore c a x).posted = s.posted := rfl
@[simp] theorem setStore_ctx (c a : Nat) (x : Stored) : (s.setStore c a x).ctx = s.ctx := rfl
@[simp] theorem setStore_qui (c a : Nat) (x : Stored) : (s.setStore c a x).qui = s.qui := rfl
@[simp] theorem setStore_qsl (c a : Nat) (x : Stored) : (s.setStore c a x).qsl = s.qsl := rfl
@[simp] theorem setStore_qdErr (c a : Nat) (x : Stored) : (s.setStore c a x).qdErr = s.qdErr := rfl
@[simp] theorem setStore_bnk (c a : Nat) (x : Stored) : (s.setStore c a x).bnk = s.bnk := rfl
@[simp] theorem setStore_beam (c a : Nat) (x : Stored) : (s.setStore c a x).beam = s.beam := rfl
@[simp] theorem setStore_tmr (c a : Nat) (x : Stored) : (s.setStore c a x).tmr = s.tmr := rfl
@[simp] theorem setStore_keep (c a : Nat) (x : Stored) : (s.setStore c a x).keep = s.keep := rfl
@[simp] theorem setStore_cvtrig (c a : Nat) (x : Stored) : (s.setStore c a x).cvtrig = s.cvtrig := rfl
@[simp] theorem setStore_lp (c a : Nat) (x : Stored) : (s.setStore c a x).lp = s.lp := rfl
@[simp] theorem setStore_snd (c a : Nat) (x : Stored) : (s.setStore c a x).snd = s.snd := rfl
@[simp] theorem setStore_blit (c a : Nat) (x : Stored) : (s.setStore c a x).blit = s.blit := rfl
@[simp] theorem setStore_int (c a : Nat) (x : Stored) : (s.setStore c a x).int = s.int := rfl
@[simp] theorem setStore_tdr (c a : Nat) (x : Stored) : (s.setStore c a x).tdr = s.tdr := rfl
@[simp] theorem setStore_qdHigh (c a : Nat) (x : Stored) : (s.setStore c a x).qdHigh = s.qdHigh := rfl
@[simp] theorem setStore_col (c a : Nat) (x : Stored) : (s.setStore c a x).col = s.col := rfl
@[simp] theorem setStore_prs (c a : Nat) (x : Stored) : (s.setStore c a x).prs = s.prs := rfl
@[simp] theorem setStore_pwr (c a : Nat) (x : Stored) : (s.setStore c a x).pwr = s.pwr := rfl
@[simp] theorem setStore_fuse (c a : Nat) (x : Stored) : (s.setStore c a x).fuse = s.fuse := rfl
@[simp] theorem setStore_pin (c a : Nat) (x : Stored) : (s.setStore c a x).pin = s.pin := rfl
@[simp] theorem setStore_pio (c a : Nat) (x : Stored) : (s.setStore c a x).pio = s.pio := rfl
@[simp] theorem setStore_heard (c a : Nat) (x : Stored) : (s.setStore c a x).heard = s.heard := rfl
@[simp] theorem setStore_dma (c a : Nat) (x : Stored) : (s.setStore c a x).dma = s.dma := rfl
@[simp] theorem setStore_dmaTurn (c a : Nat) (x : Stored) : (s.setStore c a x).dmaTurn = s.dmaTurn := rfl
@[simp] theorem setStore_hm (c a : Nat) (x : Stored) : (s.setStore c a x).hm = s.hm := rfl
@[simp] theorem setStore_resp (c a : Nat) (x : Stored) : (s.setStore c a x).resp = s.resp := rfl
@[simp] theorem setStore_bw (c a : Nat) (x : Stored) : (s.setStore c a x).bw = s.bw := rfl
@[simp] theorem setStore_sti (c a : Nat) (x : Stored) : (s.setStore c a x).sti = s.sti := rfl
@[simp] theorem setStore_rho (c a : Nat) (x : Stored) : (s.setStore c a x).rho = s.rho := rfl
@[simp] theorem setStore_reg (c a : Nat) (x : Stored) (j : Nat) : (s.setStore c a x).reg j = s.reg j := rfl
@[simp] theorem setStore_get (c a : Nat) (x : Stored) (g : RF) : (s.setStore c a x).get g = s.get g := rfl
@[simp] theorem setStore_on (c a : Nat) (x : Stored) (g : RF) : (s.setStore c a x).on g = s.on g := rfl
@[simp] theorem setStore_cx (c a : Nat) (x : Stored) (j : Nat) : (s.setStore c a x).cx j = s.cx j := rfl
@[simp] theorem setStore_qu (c a : Nat) (x : Stored) (j : Nat) : (s.setStore c a x).qu j = s.qu j := rfl
@[simp] theorem setStore_sl (c a : Nat) (x : Stored) (j : Nat) : (s.setStore c a x).sl j = s.sl j := rfl
@[simp] theorem setStore_bk (c a : Nat) (x : Stored) (j : Nat) : (s.setStore c a x).bk j = s.bk j := rfl
@[simp] theorem setStore_tm (c a : Nat) (x : Stored) (j : Nat) : (s.setStore c a x).tm j = s.tm j := rfl
@[simp] theorem setStore_kt (c a : Nat) (x : Stored) (j : Nat) : (s.setStore c a x).kt j = s.kt j := rfl
@[simp] theorem setStore_pn (c a : Nat) (x : Stored) (j : Nat) : (s.setStore c a x).pn j = s.pn j := rfl
@[simp] theorem setStore_en (c a : Nat) (x : Stored) (j : Nat) : (s.setStore c a x).en j = s.en j := rfl
@[simp] theorem setStore_dm (c a : Nat) (x : Stored) (j : Nat) : (s.setStore c a x).dm j = s.dm j := rfl
@[simp] theorem setStore_sp (c a : Nat) (x : Stored) (j : Nat) : (s.setStore c a x).sp j = s.sp j := rfl
@[simp] theorem setStore_lpp (c a : Nat) (x : Stored) (j : Nat) : (s.setStore c a x).lpp j = s.lpp j := rfl
@[simp] theorem setStore_sp8 (c a : Nat) (x : Stored) (j : Nat) : (s.setStore c a x).sp8 j = s.sp8 j := rfl
@[simp] theorem setStore_offerOf (c a : Nat) (x : Stored) (j : Nat) : (s.setStore c a x).offerOf j = s.offerOf j := rfl
@[simp] theorem setStore_move (c a : Nat) (x : Stored) (j : Nat) : (s.setStore c a x).move j = s.move j := rfl
@[simp] theorem setStore_isKept (c a : Nat) (x : Stored) (j : Nat) : (s.setStore c a x).isKept j = s.isKept j := rfl
@[simp] theorem setStore_domState (c a : Nat) (x : Stored) (j : Nat) : (s.setStore c a x).domState j = s.domState j := rfl
@[simp] theorem setStore_unitOn (c a : Nat) (x : Stored) (j : Nat) : (s.setStore c a x).unitOn j = s.unitOn j := rfl
@[simp] theorem setStore_unitKept (c a : Nat) (x : Stored) (j : Nat) : (s.setStore c a x).unitKept j = s.unitKept j := rfl
@[simp] theorem setStore_pageUp (c a : Nat) (x : Stored) (j : Nat) : (s.setStore c a x).pageUp j = s.pageUp j := rfl

/-! `setDisp` changes `disp` alone. -/

@[simp] theorem setDisp_pending (c a : Nat) (x : BitVec 14) : (s.setDisp c a x).pending = s.pending := rfl
@[simp] theorem setDisp_fclk (c a : Nat) (x : BitVec 14) : (s.setDisp c a x).fclk = s.fclk := rfl
@[simp] theorem setDisp_freeCtr (c a : Nat) (x : BitVec 14) : (s.setDisp c a x).freeCtr = s.freeCtr := rfl
@[simp] theorem setDisp_regs (c a : Nat) (x : BitVec 14) : (s.setDisp c a x).regs = s.regs := rfl
@[simp] theorem setDisp_held (c a : Nat) (x : BitVec 14) : (s.setDisp c a x).held = s.held := rfl
@[simp] theorem setDisp_mem (c a : Nat) (x : BitVec 14) : (s.setDisp c a x).mem = s.mem := rfl
@[simp] theorem setDisp_chk (c a : Nat) (x : BitVec 14) : (s.setDisp c a x).chk = s.chk := rfl
@[simp] theorem setDisp_cst (c a : Nat) (x : BitVec 14) : (s.setDisp c a x).cst = s.cst := rfl
@[simp] theorem setDisp_snap (c a : Nat) (x : BitVec 14) : (s.setDisp c a x).snap = s.snap := rfl
@[simp] theorem setDisp_posted (c a : Nat) (x : BitVec 14) : (s.setDisp c a x).posted = s.posted := rfl
@[simp] theorem setDisp_ctx (c a : Nat) (x : BitVec 14) : (s.setDisp c a x).ctx = s.ctx := rfl
@[simp] theorem setDisp_qui (c a : Nat) (x : BitVec 14) : (s.setDisp c a x).qui = s.qui := rfl
@[simp] theorem setDisp_qsl (c a : Nat) (x : BitVec 14) : (s.setDisp c a x).qsl = s.qsl := rfl
@[simp] theorem setDisp_qdErr (c a : Nat) (x : BitVec 14) : (s.setDisp c a x).qdErr = s.qdErr := rfl
@[simp] theorem setDisp_bnk (c a : Nat) (x : BitVec 14) : (s.setDisp c a x).bnk = s.bnk := rfl
@[simp] theorem setDisp_beam (c a : Nat) (x : BitVec 14) : (s.setDisp c a x).beam = s.beam := rfl
@[simp] theorem setDisp_tmr (c a : Nat) (x : BitVec 14) : (s.setDisp c a x).tmr = s.tmr := rfl
@[simp] theorem setDisp_keep (c a : Nat) (x : BitVec 14) : (s.setDisp c a x).keep = s.keep := rfl
@[simp] theorem setDisp_cvtrig (c a : Nat) (x : BitVec 14) : (s.setDisp c a x).cvtrig = s.cvtrig := rfl
@[simp] theorem setDisp_lp (c a : Nat) (x : BitVec 14) : (s.setDisp c a x).lp = s.lp := rfl
@[simp] theorem setDisp_snd (c a : Nat) (x : BitVec 14) : (s.setDisp c a x).snd = s.snd := rfl
@[simp] theorem setDisp_blit (c a : Nat) (x : BitVec 14) : (s.setDisp c a x).blit = s.blit := rfl
@[simp] theorem setDisp_int (c a : Nat) (x : BitVec 14) : (s.setDisp c a x).int = s.int := rfl
@[simp] theorem setDisp_tdr (c a : Nat) (x : BitVec 14) : (s.setDisp c a x).tdr = s.tdr := rfl
@[simp] theorem setDisp_qdHigh (c a : Nat) (x : BitVec 14) : (s.setDisp c a x).qdHigh = s.qdHigh := rfl
@[simp] theorem setDisp_col (c a : Nat) (x : BitVec 14) : (s.setDisp c a x).col = s.col := rfl
@[simp] theorem setDisp_prs (c a : Nat) (x : BitVec 14) : (s.setDisp c a x).prs = s.prs := rfl
@[simp] theorem setDisp_pwr (c a : Nat) (x : BitVec 14) : (s.setDisp c a x).pwr = s.pwr := rfl
@[simp] theorem setDisp_fuse (c a : Nat) (x : BitVec 14) : (s.setDisp c a x).fuse = s.fuse := rfl
@[simp] theorem setDisp_pin (c a : Nat) (x : BitVec 14) : (s.setDisp c a x).pin = s.pin := rfl
@[simp] theorem setDisp_pio (c a : Nat) (x : BitVec 14) : (s.setDisp c a x).pio = s.pio := rfl
@[simp] theorem setDisp_heard (c a : Nat) (x : BitVec 14) : (s.setDisp c a x).heard = s.heard := rfl
@[simp] theorem setDisp_dma (c a : Nat) (x : BitVec 14) : (s.setDisp c a x).dma = s.dma := rfl
@[simp] theorem setDisp_dmaTurn (c a : Nat) (x : BitVec 14) : (s.setDisp c a x).dmaTurn = s.dmaTurn := rfl
@[simp] theorem setDisp_hm (c a : Nat) (x : BitVec 14) : (s.setDisp c a x).hm = s.hm := rfl
@[simp] theorem setDisp_resp (c a : Nat) (x : BitVec 14) : (s.setDisp c a x).resp = s.resp := rfl
@[simp] theorem setDisp_bw (c a : Nat) (x : BitVec 14) : (s.setDisp c a x).bw = s.bw := rfl
@[simp] theorem setDisp_sti (c a : Nat) (x : BitVec 14) : (s.setDisp c a x).sti = s.sti := rfl
@[simp] theorem setDisp_rho (c a : Nat) (x : BitVec 14) : (s.setDisp c a x).rho = s.rho := rfl
@[simp] theorem setDisp_reg (c a : Nat) (x : BitVec 14) (j : Nat) : (s.setDisp c a x).reg j = s.reg j := rfl
@[simp] theorem setDisp_get (c a : Nat) (x : BitVec 14) (g : RF) : (s.setDisp c a x).get g = s.get g := rfl
@[simp] theorem setDisp_on (c a : Nat) (x : BitVec 14) (g : RF) : (s.setDisp c a x).on g = s.on g := rfl
@[simp] theorem setDisp_cx (c a : Nat) (x : BitVec 14) (j : Nat) : (s.setDisp c a x).cx j = s.cx j := rfl
@[simp] theorem setDisp_qu (c a : Nat) (x : BitVec 14) (j : Nat) : (s.setDisp c a x).qu j = s.qu j := rfl
@[simp] theorem setDisp_sl (c a : Nat) (x : BitVec 14) (j : Nat) : (s.setDisp c a x).sl j = s.sl j := rfl
@[simp] theorem setDisp_bk (c a : Nat) (x : BitVec 14) (j : Nat) : (s.setDisp c a x).bk j = s.bk j := rfl
@[simp] theorem setDisp_tm (c a : Nat) (x : BitVec 14) (j : Nat) : (s.setDisp c a x).tm j = s.tm j := rfl
@[simp] theorem setDisp_kt (c a : Nat) (x : BitVec 14) (j : Nat) : (s.setDisp c a x).kt j = s.kt j := rfl
@[simp] theorem setDisp_pn (c a : Nat) (x : BitVec 14) (j : Nat) : (s.setDisp c a x).pn j = s.pn j := rfl
@[simp] theorem setDisp_en (c a : Nat) (x : BitVec 14) (j : Nat) : (s.setDisp c a x).en j = s.en j := rfl
@[simp] theorem setDisp_dm (c a : Nat) (x : BitVec 14) (j : Nat) : (s.setDisp c a x).dm j = s.dm j := rfl
@[simp] theorem setDisp_sp (c a : Nat) (x : BitVec 14) (j : Nat) : (s.setDisp c a x).sp j = s.sp j := rfl
@[simp] theorem setDisp_lpp (c a : Nat) (x : BitVec 14) (j : Nat) : (s.setDisp c a x).lpp j = s.lpp j := rfl
@[simp] theorem setDisp_sp8 (c a : Nat) (x : BitVec 14) (j : Nat) : (s.setDisp c a x).sp8 j = s.sp8 j := rfl
@[simp] theorem setDisp_offerOf (c a : Nat) (x : BitVec 14) (j : Nat) : (s.setDisp c a x).offerOf j = s.offerOf j := rfl
@[simp] theorem setDisp_move (c a : Nat) (x : BitVec 14) (j : Nat) : (s.setDisp c a x).move j = s.move j := rfl
@[simp] theorem setDisp_isKept (c a : Nat) (x : BitVec 14) (j : Nat) : (s.setDisp c a x).isKept j = s.isKept j := rfl
@[simp] theorem setDisp_domState (c a : Nat) (x : BitVec 14) (j : Nat) : (s.setDisp c a x).domState j = s.domState j := rfl
@[simp] theorem setDisp_unitOn (c a : Nat) (x : BitVec 14) (j : Nat) : (s.setDisp c a x).unitOn j = s.unitOn j := rfl
@[simp] theorem setDisp_unitKept (c a : Nat) (x : BitVec 14) (j : Nat) : (s.setDisp c a x).unitKept j = s.unitKept j := rfl
@[simp] theorem setDisp_pageUp (c a : Nat) (x : BitVec 14) (j : Nat) : (s.setDisp c a x).pageUp j = s.pageUp j := rfl

/-! `setSnap` changes `snap` alone. -/

@[simp] theorem setSnap_pending (c a : Nat) (x : Word) : (s.setSnap c a x).pending = s.pending := rfl
@[simp] theorem setSnap_fclk (c a : Nat) (x : Word) : (s.setSnap c a x).fclk = s.fclk := rfl
@[simp] theorem setSnap_freeCtr (c a : Nat) (x : Word) : (s.setSnap c a x).freeCtr = s.freeCtr := rfl
@[simp] theorem setSnap_regs (c a : Nat) (x : Word) : (s.setSnap c a x).regs = s.regs := rfl
@[simp] theorem setSnap_held (c a : Nat) (x : Word) : (s.setSnap c a x).held = s.held := rfl
@[simp] theorem setSnap_mem (c a : Nat) (x : Word) : (s.setSnap c a x).mem = s.mem := rfl
@[simp] theorem setSnap_chk (c a : Nat) (x : Word) : (s.setSnap c a x).chk = s.chk := rfl
@[simp] theorem setSnap_cst (c a : Nat) (x : Word) : (s.setSnap c a x).cst = s.cst := rfl
@[simp] theorem setSnap_disp (c a : Nat) (x : Word) : (s.setSnap c a x).disp = s.disp := rfl
@[simp] theorem setSnap_posted (c a : Nat) (x : Word) : (s.setSnap c a x).posted = s.posted := rfl
@[simp] theorem setSnap_ctx (c a : Nat) (x : Word) : (s.setSnap c a x).ctx = s.ctx := rfl
@[simp] theorem setSnap_qui (c a : Nat) (x : Word) : (s.setSnap c a x).qui = s.qui := rfl
@[simp] theorem setSnap_qsl (c a : Nat) (x : Word) : (s.setSnap c a x).qsl = s.qsl := rfl
@[simp] theorem setSnap_qdErr (c a : Nat) (x : Word) : (s.setSnap c a x).qdErr = s.qdErr := rfl
@[simp] theorem setSnap_bnk (c a : Nat) (x : Word) : (s.setSnap c a x).bnk = s.bnk := rfl
@[simp] theorem setSnap_beam (c a : Nat) (x : Word) : (s.setSnap c a x).beam = s.beam := rfl
@[simp] theorem setSnap_tmr (c a : Nat) (x : Word) : (s.setSnap c a x).tmr = s.tmr := rfl
@[simp] theorem setSnap_keep (c a : Nat) (x : Word) : (s.setSnap c a x).keep = s.keep := rfl
@[simp] theorem setSnap_cvtrig (c a : Nat) (x : Word) : (s.setSnap c a x).cvtrig = s.cvtrig := rfl
@[simp] theorem setSnap_lp (c a : Nat) (x : Word) : (s.setSnap c a x).lp = s.lp := rfl
@[simp] theorem setSnap_snd (c a : Nat) (x : Word) : (s.setSnap c a x).snd = s.snd := rfl
@[simp] theorem setSnap_blit (c a : Nat) (x : Word) : (s.setSnap c a x).blit = s.blit := rfl
@[simp] theorem setSnap_int (c a : Nat) (x : Word) : (s.setSnap c a x).int = s.int := rfl
@[simp] theorem setSnap_tdr (c a : Nat) (x : Word) : (s.setSnap c a x).tdr = s.tdr := rfl
@[simp] theorem setSnap_qdHigh (c a : Nat) (x : Word) : (s.setSnap c a x).qdHigh = s.qdHigh := rfl
@[simp] theorem setSnap_col (c a : Nat) (x : Word) : (s.setSnap c a x).col = s.col := rfl
@[simp] theorem setSnap_prs (c a : Nat) (x : Word) : (s.setSnap c a x).prs = s.prs := rfl
@[simp] theorem setSnap_pwr (c a : Nat) (x : Word) : (s.setSnap c a x).pwr = s.pwr := rfl
@[simp] theorem setSnap_fuse (c a : Nat) (x : Word) : (s.setSnap c a x).fuse = s.fuse := rfl
@[simp] theorem setSnap_pin (c a : Nat) (x : Word) : (s.setSnap c a x).pin = s.pin := rfl
@[simp] theorem setSnap_pio (c a : Nat) (x : Word) : (s.setSnap c a x).pio = s.pio := rfl
@[simp] theorem setSnap_heard (c a : Nat) (x : Word) : (s.setSnap c a x).heard = s.heard := rfl
@[simp] theorem setSnap_dma (c a : Nat) (x : Word) : (s.setSnap c a x).dma = s.dma := rfl
@[simp] theorem setSnap_dmaTurn (c a : Nat) (x : Word) : (s.setSnap c a x).dmaTurn = s.dmaTurn := rfl
@[simp] theorem setSnap_hm (c a : Nat) (x : Word) : (s.setSnap c a x).hm = s.hm := rfl
@[simp] theorem setSnap_resp (c a : Nat) (x : Word) : (s.setSnap c a x).resp = s.resp := rfl
@[simp] theorem setSnap_bw (c a : Nat) (x : Word) : (s.setSnap c a x).bw = s.bw := rfl
@[simp] theorem setSnap_sti (c a : Nat) (x : Word) : (s.setSnap c a x).sti = s.sti := rfl
@[simp] theorem setSnap_rho (c a : Nat) (x : Word) : (s.setSnap c a x).rho = s.rho := rfl
@[simp] theorem setSnap_reg (c a : Nat) (x : Word) (j : Nat) : (s.setSnap c a x).reg j = s.reg j := rfl
@[simp] theorem setSnap_get (c a : Nat) (x : Word) (g : RF) : (s.setSnap c a x).get g = s.get g := rfl
@[simp] theorem setSnap_on (c a : Nat) (x : Word) (g : RF) : (s.setSnap c a x).on g = s.on g := rfl
@[simp] theorem setSnap_cx (c a : Nat) (x : Word) (j : Nat) : (s.setSnap c a x).cx j = s.cx j := rfl
@[simp] theorem setSnap_qu (c a : Nat) (x : Word) (j : Nat) : (s.setSnap c a x).qu j = s.qu j := rfl
@[simp] theorem setSnap_sl (c a : Nat) (x : Word) (j : Nat) : (s.setSnap c a x).sl j = s.sl j := rfl
@[simp] theorem setSnap_bk (c a : Nat) (x : Word) (j : Nat) : (s.setSnap c a x).bk j = s.bk j := rfl
@[simp] theorem setSnap_tm (c a : Nat) (x : Word) (j : Nat) : (s.setSnap c a x).tm j = s.tm j := rfl
@[simp] theorem setSnap_kt (c a : Nat) (x : Word) (j : Nat) : (s.setSnap c a x).kt j = s.kt j := rfl
@[simp] theorem setSnap_pn (c a : Nat) (x : Word) (j : Nat) : (s.setSnap c a x).pn j = s.pn j := rfl
@[simp] theorem setSnap_en (c a : Nat) (x : Word) (j : Nat) : (s.setSnap c a x).en j = s.en j := rfl
@[simp] theorem setSnap_dm (c a : Nat) (x : Word) (j : Nat) : (s.setSnap c a x).dm j = s.dm j := rfl
@[simp] theorem setSnap_sp (c a : Nat) (x : Word) (j : Nat) : (s.setSnap c a x).sp j = s.sp j := rfl
@[simp] theorem setSnap_lpp (c a : Nat) (x : Word) (j : Nat) : (s.setSnap c a x).lpp j = s.lpp j := rfl
@[simp] theorem setSnap_sp8 (c a : Nat) (x : Word) (j : Nat) : (s.setSnap c a x).sp8 j = s.sp8 j := rfl
@[simp] theorem setSnap_offerOf (c a : Nat) (x : Word) (j : Nat) : (s.setSnap c a x).offerOf j = s.offerOf j := rfl
@[simp] theorem setSnap_move (c a : Nat) (x : Word) (j : Nat) : (s.setSnap c a x).move j = s.move j := rfl
@[simp] theorem setSnap_isKept (c a : Nat) (x : Word) (j : Nat) : (s.setSnap c a x).isKept j = s.isKept j := rfl
@[simp] theorem setSnap_domState (c a : Nat) (x : Word) (j : Nat) : (s.setSnap c a x).domState j = s.domState j := rfl
@[simp] theorem setSnap_unitOn (c a : Nat) (x : Word) (j : Nat) : (s.setSnap c a x).unitOn j = s.unitOn j := rfl
@[simp] theorem setSnap_unitKept (c a : Nat) (x : Word) (j : Nat) : (s.setSnap c a x).unitKept j = s.unitKept j := rfl
@[simp] theorem setSnap_pageUp (c a : Nat) (x : Word) (j : Nat) : (s.setSnap c a x).pageUp j = s.pageUp j := rfl

/-! `holdLow` changes `held` alone. -/

@[simp] theorem holdLow_pending (c : Nat) (x : Option (BitVec 32)) : (s.holdLow c x).pending = s.pending := rfl
@[simp] theorem holdLow_fclk (c : Nat) (x : Option (BitVec 32)) : (s.holdLow c x).fclk = s.fclk := rfl
@[simp] theorem holdLow_freeCtr (c : Nat) (x : Option (BitVec 32)) : (s.holdLow c x).freeCtr = s.freeCtr := rfl
@[simp] theorem holdLow_regs (c : Nat) (x : Option (BitVec 32)) : (s.holdLow c x).regs = s.regs := rfl
@[simp] theorem holdLow_mem (c : Nat) (x : Option (BitVec 32)) : (s.holdLow c x).mem = s.mem := rfl
@[simp] theorem holdLow_chk (c : Nat) (x : Option (BitVec 32)) : (s.holdLow c x).chk = s.chk := rfl
@[simp] theorem holdLow_cst (c : Nat) (x : Option (BitVec 32)) : (s.holdLow c x).cst = s.cst := rfl
@[simp] theorem holdLow_disp (c : Nat) (x : Option (BitVec 32)) : (s.holdLow c x).disp = s.disp := rfl
@[simp] theorem holdLow_snap (c : Nat) (x : Option (BitVec 32)) : (s.holdLow c x).snap = s.snap := rfl
@[simp] theorem holdLow_posted (c : Nat) (x : Option (BitVec 32)) : (s.holdLow c x).posted = s.posted := rfl
@[simp] theorem holdLow_ctx (c : Nat) (x : Option (BitVec 32)) : (s.holdLow c x).ctx = s.ctx := rfl
@[simp] theorem holdLow_qui (c : Nat) (x : Option (BitVec 32)) : (s.holdLow c x).qui = s.qui := rfl
@[simp] theorem holdLow_qsl (c : Nat) (x : Option (BitVec 32)) : (s.holdLow c x).qsl = s.qsl := rfl
@[simp] theorem holdLow_qdErr (c : Nat) (x : Option (BitVec 32)) : (s.holdLow c x).qdErr = s.qdErr := rfl
@[simp] theorem holdLow_bnk (c : Nat) (x : Option (BitVec 32)) : (s.holdLow c x).bnk = s.bnk := rfl
@[simp] theorem holdLow_beam (c : Nat) (x : Option (BitVec 32)) : (s.holdLow c x).beam = s.beam := rfl
@[simp] theorem holdLow_tmr (c : Nat) (x : Option (BitVec 32)) : (s.holdLow c x).tmr = s.tmr := rfl
@[simp] theorem holdLow_keep (c : Nat) (x : Option (BitVec 32)) : (s.holdLow c x).keep = s.keep := rfl
@[simp] theorem holdLow_cvtrig (c : Nat) (x : Option (BitVec 32)) : (s.holdLow c x).cvtrig = s.cvtrig := rfl
@[simp] theorem holdLow_lp (c : Nat) (x : Option (BitVec 32)) : (s.holdLow c x).lp = s.lp := rfl
@[simp] theorem holdLow_snd (c : Nat) (x : Option (BitVec 32)) : (s.holdLow c x).snd = s.snd := rfl
@[simp] theorem holdLow_blit (c : Nat) (x : Option (BitVec 32)) : (s.holdLow c x).blit = s.blit := rfl
@[simp] theorem holdLow_int (c : Nat) (x : Option (BitVec 32)) : (s.holdLow c x).int = s.int := rfl
@[simp] theorem holdLow_tdr (c : Nat) (x : Option (BitVec 32)) : (s.holdLow c x).tdr = s.tdr := rfl
@[simp] theorem holdLow_qdHigh (c : Nat) (x : Option (BitVec 32)) : (s.holdLow c x).qdHigh = s.qdHigh := rfl
@[simp] theorem holdLow_col (c : Nat) (x : Option (BitVec 32)) : (s.holdLow c x).col = s.col := rfl
@[simp] theorem holdLow_prs (c : Nat) (x : Option (BitVec 32)) : (s.holdLow c x).prs = s.prs := rfl
@[simp] theorem holdLow_pwr (c : Nat) (x : Option (BitVec 32)) : (s.holdLow c x).pwr = s.pwr := rfl
@[simp] theorem holdLow_fuse (c : Nat) (x : Option (BitVec 32)) : (s.holdLow c x).fuse = s.fuse := rfl
@[simp] theorem holdLow_pin (c : Nat) (x : Option (BitVec 32)) : (s.holdLow c x).pin = s.pin := rfl
@[simp] theorem holdLow_pio (c : Nat) (x : Option (BitVec 32)) : (s.holdLow c x).pio = s.pio := rfl
@[simp] theorem holdLow_heard (c : Nat) (x : Option (BitVec 32)) : (s.holdLow c x).heard = s.heard := rfl
@[simp] theorem holdLow_dma (c : Nat) (x : Option (BitVec 32)) : (s.holdLow c x).dma = s.dma := rfl
@[simp] theorem holdLow_dmaTurn (c : Nat) (x : Option (BitVec 32)) : (s.holdLow c x).dmaTurn = s.dmaTurn := rfl
@[simp] theorem holdLow_hm (c : Nat) (x : Option (BitVec 32)) : (s.holdLow c x).hm = s.hm := rfl
@[simp] theorem holdLow_resp (c : Nat) (x : Option (BitVec 32)) : (s.holdLow c x).resp = s.resp := rfl
@[simp] theorem holdLow_bw (c : Nat) (x : Option (BitVec 32)) : (s.holdLow c x).bw = s.bw := rfl
@[simp] theorem holdLow_sti (c : Nat) (x : Option (BitVec 32)) : (s.holdLow c x).sti = s.sti := rfl
@[simp] theorem holdLow_rho (c : Nat) (x : Option (BitVec 32)) : (s.holdLow c x).rho = s.rho := rfl
@[simp] theorem holdLow_reg (c : Nat) (x : Option (BitVec 32)) (j : Nat) : (s.holdLow c x).reg j = s.reg j := rfl
@[simp] theorem holdLow_get (c : Nat) (x : Option (BitVec 32)) (g : RF) : (s.holdLow c x).get g = s.get g := rfl
@[simp] theorem holdLow_on (c : Nat) (x : Option (BitVec 32)) (g : RF) : (s.holdLow c x).on g = s.on g := rfl
@[simp] theorem holdLow_cx (c : Nat) (x : Option (BitVec 32)) (j : Nat) : (s.holdLow c x).cx j = s.cx j := rfl
@[simp] theorem holdLow_qu (c : Nat) (x : Option (BitVec 32)) (j : Nat) : (s.holdLow c x).qu j = s.qu j := rfl
@[simp] theorem holdLow_sl (c : Nat) (x : Option (BitVec 32)) (j : Nat) : (s.holdLow c x).sl j = s.sl j := rfl
@[simp] theorem holdLow_bk (c : Nat) (x : Option (BitVec 32)) (j : Nat) : (s.holdLow c x).bk j = s.bk j := rfl
@[simp] theorem holdLow_tm (c : Nat) (x : Option (BitVec 32)) (j : Nat) : (s.holdLow c x).tm j = s.tm j := rfl
@[simp] theorem holdLow_kt (c : Nat) (x : Option (BitVec 32)) (j : Nat) : (s.holdLow c x).kt j = s.kt j := rfl
@[simp] theorem holdLow_pn (c : Nat) (x : Option (BitVec 32)) (j : Nat) : (s.holdLow c x).pn j = s.pn j := rfl
@[simp] theorem holdLow_en (c : Nat) (x : Option (BitVec 32)) (j : Nat) : (s.holdLow c x).en j = s.en j := rfl
@[simp] theorem holdLow_dm (c : Nat) (x : Option (BitVec 32)) (j : Nat) : (s.holdLow c x).dm j = s.dm j := rfl
@[simp] theorem holdLow_sp (c : Nat) (x : Option (BitVec 32)) (j : Nat) : (s.holdLow c x).sp j = s.sp j := rfl
@[simp] theorem holdLow_lpp (c : Nat) (x : Option (BitVec 32)) (j : Nat) : (s.holdLow c x).lpp j = s.lpp j := rfl
@[simp] theorem holdLow_sp8 (c : Nat) (x : Option (BitVec 32)) (j : Nat) : (s.holdLow c x).sp8 j = s.sp8 j := rfl
@[simp] theorem holdLow_offerOf (c : Nat) (x : Option (BitVec 32)) (j : Nat) : (s.holdLow c x).offerOf j = s.offerOf j := rfl
@[simp] theorem holdLow_move (c : Nat) (x : Option (BitVec 32)) (j : Nat) : (s.holdLow c x).move j = s.move j := rfl
@[simp] theorem holdLow_isKept (c : Nat) (x : Option (BitVec 32)) (j : Nat) : (s.holdLow c x).isKept j = s.isKept j := rfl
@[simp] theorem holdLow_domState (c : Nat) (x : Option (BitVec 32)) (j : Nat) : (s.holdLow c x).domState j = s.domState j := rfl
@[simp] theorem holdLow_unitOn (c : Nat) (x : Option (BitVec 32)) (j : Nat) : (s.holdLow c x).unitOn j = s.unitOn j := rfl
@[simp] theorem holdLow_unitKept (c : Nat) (x : Option (BitVec 32)) (j : Nat) : (s.holdLow c x).unitKept j = s.unitKept j := rfl
@[simp] theorem holdLow_pageUp (c : Nat) (x : Option (BitVec 32)) (j : Nat) : (s.holdLow c x).pageUp j = s.pageUp j := rfl

/-! `okResponse` changes `resp` alone. -/

@[simp] theorem okResponse_pending (x : BitVec 32) : (s.okResponse x).pending = s.pending := rfl
@[simp] theorem okResponse_fclk (x : BitVec 32) : (s.okResponse x).fclk = s.fclk := rfl
@[simp] theorem okResponse_freeCtr (x : BitVec 32) : (s.okResponse x).freeCtr = s.freeCtr := rfl
@[simp] theorem okResponse_regs (x : BitVec 32) : (s.okResponse x).regs = s.regs := rfl
@[simp] theorem okResponse_held (x : BitVec 32) : (s.okResponse x).held = s.held := rfl
@[simp] theorem okResponse_mem (x : BitVec 32) : (s.okResponse x).mem = s.mem := rfl
@[simp] theorem okResponse_chk (x : BitVec 32) : (s.okResponse x).chk = s.chk := rfl
@[simp] theorem okResponse_cst (x : BitVec 32) : (s.okResponse x).cst = s.cst := rfl
@[simp] theorem okResponse_disp (x : BitVec 32) : (s.okResponse x).disp = s.disp := rfl
@[simp] theorem okResponse_snap (x : BitVec 32) : (s.okResponse x).snap = s.snap := rfl
@[simp] theorem okResponse_posted (x : BitVec 32) : (s.okResponse x).posted = s.posted := rfl
@[simp] theorem okResponse_ctx (x : BitVec 32) : (s.okResponse x).ctx = s.ctx := rfl
@[simp] theorem okResponse_qui (x : BitVec 32) : (s.okResponse x).qui = s.qui := rfl
@[simp] theorem okResponse_qsl (x : BitVec 32) : (s.okResponse x).qsl = s.qsl := rfl
@[simp] theorem okResponse_qdErr (x : BitVec 32) : (s.okResponse x).qdErr = s.qdErr := rfl
@[simp] theorem okResponse_bnk (x : BitVec 32) : (s.okResponse x).bnk = s.bnk := rfl
@[simp] theorem okResponse_beam (x : BitVec 32) : (s.okResponse x).beam = s.beam := rfl
@[simp] theorem okResponse_tmr (x : BitVec 32) : (s.okResponse x).tmr = s.tmr := rfl
@[simp] theorem okResponse_keep (x : BitVec 32) : (s.okResponse x).keep = s.keep := rfl
@[simp] theorem okResponse_cvtrig (x : BitVec 32) : (s.okResponse x).cvtrig = s.cvtrig := rfl
@[simp] theorem okResponse_lp (x : BitVec 32) : (s.okResponse x).lp = s.lp := rfl
@[simp] theorem okResponse_snd (x : BitVec 32) : (s.okResponse x).snd = s.snd := rfl
@[simp] theorem okResponse_blit (x : BitVec 32) : (s.okResponse x).blit = s.blit := rfl
@[simp] theorem okResponse_int (x : BitVec 32) : (s.okResponse x).int = s.int := rfl
@[simp] theorem okResponse_tdr (x : BitVec 32) : (s.okResponse x).tdr = s.tdr := rfl
@[simp] theorem okResponse_qdHigh (x : BitVec 32) : (s.okResponse x).qdHigh = s.qdHigh := rfl
@[simp] theorem okResponse_col (x : BitVec 32) : (s.okResponse x).col = s.col := rfl
@[simp] theorem okResponse_prs (x : BitVec 32) : (s.okResponse x).prs = s.prs := rfl
@[simp] theorem okResponse_pwr (x : BitVec 32) : (s.okResponse x).pwr = s.pwr := rfl
@[simp] theorem okResponse_fuse (x : BitVec 32) : (s.okResponse x).fuse = s.fuse := rfl
@[simp] theorem okResponse_pin (x : BitVec 32) : (s.okResponse x).pin = s.pin := rfl
@[simp] theorem okResponse_pio (x : BitVec 32) : (s.okResponse x).pio = s.pio := rfl
@[simp] theorem okResponse_heard (x : BitVec 32) : (s.okResponse x).heard = s.heard := rfl
@[simp] theorem okResponse_dma (x : BitVec 32) : (s.okResponse x).dma = s.dma := rfl
@[simp] theorem okResponse_dmaTurn (x : BitVec 32) : (s.okResponse x).dmaTurn = s.dmaTurn := rfl
@[simp] theorem okResponse_hm (x : BitVec 32) : (s.okResponse x).hm = s.hm := rfl
@[simp] theorem okResponse_bw (x : BitVec 32) : (s.okResponse x).bw = s.bw := rfl
@[simp] theorem okResponse_sti (x : BitVec 32) : (s.okResponse x).sti = s.sti := rfl
@[simp] theorem okResponse_rho (x : BitVec 32) : (s.okResponse x).rho = s.rho := rfl
@[simp] theorem okResponse_reg (x : BitVec 32) (j : Nat) : (s.okResponse x).reg j = s.reg j := rfl
@[simp] theorem okResponse_get (x : BitVec 32) (g : RF) : (s.okResponse x).get g = s.get g := rfl
@[simp] theorem okResponse_on (x : BitVec 32) (g : RF) : (s.okResponse x).on g = s.on g := rfl
@[simp] theorem okResponse_cx (x : BitVec 32) (j : Nat) : (s.okResponse x).cx j = s.cx j := rfl
@[simp] theorem okResponse_qu (x : BitVec 32) (j : Nat) : (s.okResponse x).qu j = s.qu j := rfl
@[simp] theorem okResponse_sl (x : BitVec 32) (j : Nat) : (s.okResponse x).sl j = s.sl j := rfl
@[simp] theorem okResponse_bk (x : BitVec 32) (j : Nat) : (s.okResponse x).bk j = s.bk j := rfl
@[simp] theorem okResponse_tm (x : BitVec 32) (j : Nat) : (s.okResponse x).tm j = s.tm j := rfl
@[simp] theorem okResponse_kt (x : BitVec 32) (j : Nat) : (s.okResponse x).kt j = s.kt j := rfl
@[simp] theorem okResponse_pn (x : BitVec 32) (j : Nat) : (s.okResponse x).pn j = s.pn j := rfl
@[simp] theorem okResponse_en (x : BitVec 32) (j : Nat) : (s.okResponse x).en j = s.en j := rfl
@[simp] theorem okResponse_dm (x : BitVec 32) (j : Nat) : (s.okResponse x).dm j = s.dm j := rfl
@[simp] theorem okResponse_sp (x : BitVec 32) (j : Nat) : (s.okResponse x).sp j = s.sp j := rfl
@[simp] theorem okResponse_lpp (x : BitVec 32) (j : Nat) : (s.okResponse x).lpp j = s.lpp j := rfl
@[simp] theorem okResponse_sp8 (x : BitVec 32) (j : Nat) : (s.okResponse x).sp8 j = s.sp8 j := rfl
@[simp] theorem okResponse_offerOf (x : BitVec 32) (j : Nat) : (s.okResponse x).offerOf j = s.offerOf j := rfl
@[simp] theorem okResponse_move (x : BitVec 32) (j : Nat) : (s.okResponse x).move j = s.move j := rfl
@[simp] theorem okResponse_isKept (x : BitVec 32) (j : Nat) : (s.okResponse x).isKept j = s.isKept j := rfl
@[simp] theorem okResponse_domState (x : BitVec 32) (j : Nat) : (s.okResponse x).domState j = s.domState j := rfl
@[simp] theorem okResponse_unitOn (x : BitVec 32) (j : Nat) : (s.okResponse x).unitOn j = s.unitOn j := rfl
@[simp] theorem okResponse_unitKept (x : BitVec 32) (j : Nat) : (s.okResponse x).unitKept j = s.unitKept j := rfl
@[simp] theorem okResponse_pageUp (x : BitVec 32) (j : Nat) : (s.okResponse x).pageUp j = s.pageUp j := rfl

/-! `okWindow` changes `resp` alone. -/

@[simp] theorem okWindow_pending (x : BitVec 32) : (s.okWindow x).pending = s.pending := rfl
@[simp] theorem okWindow_fclk (x : BitVec 32) : (s.okWindow x).fclk = s.fclk := rfl
@[simp] theorem okWindow_freeCtr (x : BitVec 32) : (s.okWindow x).freeCtr = s.freeCtr := rfl
@[simp] theorem okWindow_regs (x : BitVec 32) : (s.okWindow x).regs = s.regs := rfl
@[simp] theorem okWindow_held (x : BitVec 32) : (s.okWindow x).held = s.held := rfl
@[simp] theorem okWindow_mem (x : BitVec 32) : (s.okWindow x).mem = s.mem := rfl
@[simp] theorem okWindow_chk (x : BitVec 32) : (s.okWindow x).chk = s.chk := rfl
@[simp] theorem okWindow_cst (x : BitVec 32) : (s.okWindow x).cst = s.cst := rfl
@[simp] theorem okWindow_disp (x : BitVec 32) : (s.okWindow x).disp = s.disp := rfl
@[simp] theorem okWindow_snap (x : BitVec 32) : (s.okWindow x).snap = s.snap := rfl
@[simp] theorem okWindow_posted (x : BitVec 32) : (s.okWindow x).posted = s.posted := rfl
@[simp] theorem okWindow_ctx (x : BitVec 32) : (s.okWindow x).ctx = s.ctx := rfl
@[simp] theorem okWindow_qui (x : BitVec 32) : (s.okWindow x).qui = s.qui := rfl
@[simp] theorem okWindow_qsl (x : BitVec 32) : (s.okWindow x).qsl = s.qsl := rfl
@[simp] theorem okWindow_qdErr (x : BitVec 32) : (s.okWindow x).qdErr = s.qdErr := rfl
@[simp] theorem okWindow_bnk (x : BitVec 32) : (s.okWindow x).bnk = s.bnk := rfl
@[simp] theorem okWindow_beam (x : BitVec 32) : (s.okWindow x).beam = s.beam := rfl
@[simp] theorem okWindow_tmr (x : BitVec 32) : (s.okWindow x).tmr = s.tmr := rfl
@[simp] theorem okWindow_keep (x : BitVec 32) : (s.okWindow x).keep = s.keep := rfl
@[simp] theorem okWindow_cvtrig (x : BitVec 32) : (s.okWindow x).cvtrig = s.cvtrig := rfl
@[simp] theorem okWindow_lp (x : BitVec 32) : (s.okWindow x).lp = s.lp := rfl
@[simp] theorem okWindow_snd (x : BitVec 32) : (s.okWindow x).snd = s.snd := rfl
@[simp] theorem okWindow_blit (x : BitVec 32) : (s.okWindow x).blit = s.blit := rfl
@[simp] theorem okWindow_int (x : BitVec 32) : (s.okWindow x).int = s.int := rfl
@[simp] theorem okWindow_tdr (x : BitVec 32) : (s.okWindow x).tdr = s.tdr := rfl
@[simp] theorem okWindow_qdHigh (x : BitVec 32) : (s.okWindow x).qdHigh = s.qdHigh := rfl
@[simp] theorem okWindow_col (x : BitVec 32) : (s.okWindow x).col = s.col := rfl
@[simp] theorem okWindow_prs (x : BitVec 32) : (s.okWindow x).prs = s.prs := rfl
@[simp] theorem okWindow_pwr (x : BitVec 32) : (s.okWindow x).pwr = s.pwr := rfl
@[simp] theorem okWindow_fuse (x : BitVec 32) : (s.okWindow x).fuse = s.fuse := rfl
@[simp] theorem okWindow_pin (x : BitVec 32) : (s.okWindow x).pin = s.pin := rfl
@[simp] theorem okWindow_pio (x : BitVec 32) : (s.okWindow x).pio = s.pio := rfl
@[simp] theorem okWindow_heard (x : BitVec 32) : (s.okWindow x).heard = s.heard := rfl
@[simp] theorem okWindow_dma (x : BitVec 32) : (s.okWindow x).dma = s.dma := rfl
@[simp] theorem okWindow_dmaTurn (x : BitVec 32) : (s.okWindow x).dmaTurn = s.dmaTurn := rfl
@[simp] theorem okWindow_hm (x : BitVec 32) : (s.okWindow x).hm = s.hm := rfl
@[simp] theorem okWindow_bw (x : BitVec 32) : (s.okWindow x).bw = s.bw := rfl
@[simp] theorem okWindow_sti (x : BitVec 32) : (s.okWindow x).sti = s.sti := rfl
@[simp] theorem okWindow_rho (x : BitVec 32) : (s.okWindow x).rho = s.rho := rfl
@[simp] theorem okWindow_reg (x : BitVec 32) (j : Nat) : (s.okWindow x).reg j = s.reg j := rfl
@[simp] theorem okWindow_get (x : BitVec 32) (g : RF) : (s.okWindow x).get g = s.get g := rfl
@[simp] theorem okWindow_on (x : BitVec 32) (g : RF) : (s.okWindow x).on g = s.on g := rfl
@[simp] theorem okWindow_cx (x : BitVec 32) (j : Nat) : (s.okWindow x).cx j = s.cx j := rfl
@[simp] theorem okWindow_qu (x : BitVec 32) (j : Nat) : (s.okWindow x).qu j = s.qu j := rfl
@[simp] theorem okWindow_sl (x : BitVec 32) (j : Nat) : (s.okWindow x).sl j = s.sl j := rfl
@[simp] theorem okWindow_bk (x : BitVec 32) (j : Nat) : (s.okWindow x).bk j = s.bk j := rfl
@[simp] theorem okWindow_tm (x : BitVec 32) (j : Nat) : (s.okWindow x).tm j = s.tm j := rfl
@[simp] theorem okWindow_kt (x : BitVec 32) (j : Nat) : (s.okWindow x).kt j = s.kt j := rfl
@[simp] theorem okWindow_pn (x : BitVec 32) (j : Nat) : (s.okWindow x).pn j = s.pn j := rfl
@[simp] theorem okWindow_en (x : BitVec 32) (j : Nat) : (s.okWindow x).en j = s.en j := rfl
@[simp] theorem okWindow_dm (x : BitVec 32) (j : Nat) : (s.okWindow x).dm j = s.dm j := rfl
@[simp] theorem okWindow_sp (x : BitVec 32) (j : Nat) : (s.okWindow x).sp j = s.sp j := rfl
@[simp] theorem okWindow_lpp (x : BitVec 32) (j : Nat) : (s.okWindow x).lpp j = s.lpp j := rfl
@[simp] theorem okWindow_sp8 (x : BitVec 32) (j : Nat) : (s.okWindow x).sp8 j = s.sp8 j := rfl
@[simp] theorem okWindow_offerOf (x : BitVec 32) (j : Nat) : (s.okWindow x).offerOf j = s.offerOf j := rfl
@[simp] theorem okWindow_move (x : BitVec 32) (j : Nat) : (s.okWindow x).move j = s.move j := rfl
@[simp] theorem okWindow_isKept (x : BitVec 32) (j : Nat) : (s.okWindow x).isKept j = s.isKept j := rfl
@[simp] theorem okWindow_domState (x : BitVec 32) (j : Nat) : (s.okWindow x).domState j = s.domState j := rfl
@[simp] theorem okWindow_unitOn (x : BitVec 32) (j : Nat) : (s.okWindow x).unitOn j = s.unitOn j := rfl
@[simp] theorem okWindow_unitKept (x : BitVec 32) (j : Nat) : (s.okWindow x).unitKept j = s.unitKept j := rfl
@[simp] theorem okWindow_pageUp (x : BitVec 32) (j : Nat) : (s.okWindow x).pageUp j = s.pageUp j := rfl

/-! `askFclk` changes `pwr` alone. -/

@[simp] theorem askFclk_pending : (s.askFclk).pending = s.pending := rfl
@[simp] theorem askFclk_fclk : (s.askFclk).fclk = s.fclk := rfl
@[simp] theorem askFclk_freeCtr : (s.askFclk).freeCtr = s.freeCtr := rfl
@[simp] theorem askFclk_regs : (s.askFclk).regs = s.regs := rfl
@[simp] theorem askFclk_held : (s.askFclk).held = s.held := rfl
@[simp] theorem askFclk_mem : (s.askFclk).mem = s.mem := rfl
@[simp] theorem askFclk_chk : (s.askFclk).chk = s.chk := rfl
@[simp] theorem askFclk_cst : (s.askFclk).cst = s.cst := rfl
@[simp] theorem askFclk_disp : (s.askFclk).disp = s.disp := rfl
@[simp] theorem askFclk_snap : (s.askFclk).snap = s.snap := rfl
@[simp] theorem askFclk_posted : (s.askFclk).posted = s.posted := rfl
@[simp] theorem askFclk_ctx : (s.askFclk).ctx = s.ctx := rfl
@[simp] theorem askFclk_qui : (s.askFclk).qui = s.qui := rfl
@[simp] theorem askFclk_qsl : (s.askFclk).qsl = s.qsl := rfl
@[simp] theorem askFclk_qdErr : (s.askFclk).qdErr = s.qdErr := rfl
@[simp] theorem askFclk_bnk : (s.askFclk).bnk = s.bnk := rfl
@[simp] theorem askFclk_beam : (s.askFclk).beam = s.beam := rfl
@[simp] theorem askFclk_tmr : (s.askFclk).tmr = s.tmr := rfl
@[simp] theorem askFclk_keep : (s.askFclk).keep = s.keep := rfl
@[simp] theorem askFclk_cvtrig : (s.askFclk).cvtrig = s.cvtrig := rfl
@[simp] theorem askFclk_lp : (s.askFclk).lp = s.lp := rfl
@[simp] theorem askFclk_snd : (s.askFclk).snd = s.snd := rfl
@[simp] theorem askFclk_blit : (s.askFclk).blit = s.blit := rfl
@[simp] theorem askFclk_int : (s.askFclk).int = s.int := rfl
@[simp] theorem askFclk_tdr : (s.askFclk).tdr = s.tdr := rfl
@[simp] theorem askFclk_qdHigh : (s.askFclk).qdHigh = s.qdHigh := rfl
@[simp] theorem askFclk_col : (s.askFclk).col = s.col := rfl
@[simp] theorem askFclk_prs : (s.askFclk).prs = s.prs := rfl
@[simp] theorem askFclk_fuse : (s.askFclk).fuse = s.fuse := rfl
@[simp] theorem askFclk_pin : (s.askFclk).pin = s.pin := rfl
@[simp] theorem askFclk_pio : (s.askFclk).pio = s.pio := rfl
@[simp] theorem askFclk_heard : (s.askFclk).heard = s.heard := rfl
@[simp] theorem askFclk_dma : (s.askFclk).dma = s.dma := rfl
@[simp] theorem askFclk_dmaTurn : (s.askFclk).dmaTurn = s.dmaTurn := rfl
@[simp] theorem askFclk_hm : (s.askFclk).hm = s.hm := rfl
@[simp] theorem askFclk_resp : (s.askFclk).resp = s.resp := rfl
@[simp] theorem askFclk_bw : (s.askFclk).bw = s.bw := rfl
@[simp] theorem askFclk_sti : (s.askFclk).sti = s.sti := rfl
@[simp] theorem askFclk_rho : (s.askFclk).rho = s.rho := rfl
@[simp] theorem askFclk_reg (j : Nat) : (s.askFclk).reg j = s.reg j := rfl
@[simp] theorem askFclk_get (g : RF) : (s.askFclk).get g = s.get g := rfl
@[simp] theorem askFclk_on (g : RF) : (s.askFclk).on g = s.on g := rfl
@[simp] theorem askFclk_cx (j : Nat) : (s.askFclk).cx j = s.cx j := rfl
@[simp] theorem askFclk_qu (j : Nat) : (s.askFclk).qu j = s.qu j := rfl
@[simp] theorem askFclk_sl (j : Nat) : (s.askFclk).sl j = s.sl j := rfl
@[simp] theorem askFclk_bk (j : Nat) : (s.askFclk).bk j = s.bk j := rfl
@[simp] theorem askFclk_tm (j : Nat) : (s.askFclk).tm j = s.tm j := rfl
@[simp] theorem askFclk_kt (j : Nat) : (s.askFclk).kt j = s.kt j := rfl
@[simp] theorem askFclk_pn (j : Nat) : (s.askFclk).pn j = s.pn j := rfl
@[simp] theorem askFclk_en (j : Nat) : (s.askFclk).en j = s.en j := rfl
@[simp] theorem askFclk_dm (j : Nat) : (s.askFclk).dm j = s.dm j := rfl
@[simp] theorem askFclk_sp (j : Nat) : (s.askFclk).sp j = s.sp j := rfl
@[simp] theorem askFclk_lpp (j : Nat) : (s.askFclk).lpp j = s.lpp j := rfl
@[simp] theorem askFclk_sp8 (j : Nat) : (s.askFclk).sp8 j = s.sp8 j := rfl
@[simp] theorem askFclk_offerOf (j : Nat) : (s.askFclk).offerOf j = s.offerOf j := rfl
@[simp] theorem askFclk_move (j : Nat) : (s.askFclk).move j = s.move j := rfl
@[simp] theorem askFclk_isKept (j : Nat) : (s.askFclk).isKept j = s.isKept j := rfl
@[simp] theorem askFclk_domState (j : Nat) : (s.askFclk).domState j = s.domState j := rfl
@[simp] theorem askFclk_unitOn (j : Nat) : (s.askFclk).unitOn j = s.unitOn j := rfl
@[simp] theorem askFclk_unitKept (j : Nat) : (s.askFclk).unitKept j = s.unitKept j := rfl
@[simp] theorem askFclk_pageUp (j : Nat) : (s.askFclk).pageUp j = s.pageUp j := rfl

/-! Typed state read after it is replaced. -/

@[simp] theorem cx_setCx_self (c : Nat) (x : Ctx) : (s.setCx c x).cx c = x := tget_tset_self _ _ _
@[simp] theorem cx_setCx_ne {c j : Nat} (x : Ctx) (h : j ≠ c) : (s.setCx c x).cx j = s.cx j := tget_tset_ne _ _ h
@[simp] theorem qu_setQu_self (c : Nat) (x : Quire) : (s.setQu c x).qu c = x := tget_tset_self _ _ _
@[simp] theorem qu_setQu_ne {c j : Nat} (x : Quire) (h : j ≠ c) : (s.setQu c x).qu j = s.qu j := tget_tset_ne _ _ h
@[simp] theorem sl_setSl_self (c : Nat) (x : Slice) : (s.setSl c x).sl c = x := tget_tset_self _ _ _
@[simp] theorem sl_setSl_ne {c j : Nat} (x : Slice) (h : j ≠ c) : (s.setSl c x).sl j = s.sl j := tget_tset_ne _ _ h
@[simp] theorem bk_setBk_self (c : Nat) (x : Bank) : (s.setBk c x).bk c = x := tget_tset_self _ _ _
@[simp] theorem bk_setBk_ne {c j : Nat} (x : Bank) (h : j ≠ c) : (s.setBk c x).bk j = s.bk j := tget_tset_ne _ _ h
@[simp] theorem tm_setTm_self (c : Nat) (x : Timer) : (s.setTm c x).tm c = x := tget_tset_self _ _ _
@[simp] theorem tm_setTm_ne {c j : Nat} (x : Timer) (h : j ≠ c) : (s.setTm c x).tm j = s.tm j := tget_tset_ne _ _ h
@[simp] theorem kt_setKt_self (c : Nat) (x : Keeper) : (s.setKt c x).kt c = x := tget_tset_self _ _ _
@[simp] theorem kt_setKt_ne {c j : Nat} (x : Keeper) (h : j ≠ c) : (s.setKt c x).kt j = s.kt j := tget_tset_ne _ _ h
@[simp] theorem pn_setPn_self (c : Nat) (x : Pin) : (s.setPn c x).pn c = x := tget_tset_self _ _ _
@[simp] theorem pn_setPn_ne {c j : Nat} (x : Pin) (h : j ≠ c) : (s.setPn c x).pn j = s.pn j := tget_tset_ne _ _ h
@[simp] theorem en_setEn_self (c : Nat) (x : Engine) : (s.setEn c x).en c = x := tget_tset_self _ _ _
@[simp] theorem en_setEn_ne {c j : Nat} (x : Engine) (h : j ≠ c) : (s.setEn c x).en j = s.en j := tget_tset_ne _ _ h
@[simp] theorem dm_setDm_self (c : Nat) (x : Dma) : (s.setDm c x).dm c = x := tget_tset_self _ _ _
@[simp] theorem dm_setDm_ne {c j : Nat} (x : Dma) (h : j ≠ c) : (s.setDm c x).dm j = s.dm j := tget_tset_ne _ _ h
@[simp] theorem sp_setSp_self (c : Nat) (x : Stitch) : (s.setSp c x).sp c = x := tget_tset_self _ _ _
@[simp] theorem sp_setSp_ne {c j : Nat} (x : Stitch) (h : j ≠ c) : (s.setSp c x).sp j = s.sp j := tget_tset_ne _ _ h
@[simp] theorem lpp_setLp_self (c : Nat) (x : LpPort) : (s.setLp c x).lpp c = x := tget_tset_self _ _ _
@[simp] theorem lpp_setLp_ne {c j : Nat} (x : LpPort) (h : j ≠ c) : (s.setLp c x).lpp j = s.lpp j := tget_tset_ne _ _ h
@[simp] theorem sp8_setSnd_self (c : Nat) (x : SoundPort) : (s.setSnd c x).sp8 c = x := tget_tset_self _ _ _
@[simp] theorem sp8_setSnd_ne {c j : Nat} (x : SoundPort) (h : j ≠ c) : (s.setSnd c x).sp8 j = s.sp8 j := tget_tset_ne _ _ h

end Sys2Proof.Machine
end

