-- ==== Sys2Proof/Laws/Micro.lean ====
section
/-! SUPPORT. What a row of one operation does (log entry 3): the word of the row issues and commits, and everything it can do is here. -/

namespace Sys2Proof.Machine

/-- A context written over a context with a word in flight (every other write of it is lost). -/
theorem setCx_setCx {s : State} {c : Nat} (x : Ctx) {y : Ctx} (hy : y.st ≠ .idle) : (s.setCx c y).setCx c x = s.setCx c x := by
  have : y ≠ Ctx.reset := fun h => hy (by rw [h]; rfl)
  simp only [State.setCx]
  rw [tset_tset (d := fun _ => Ctx.reset) x s.ctx this]

/-- A context free to issue, with a word that nothing of R60 holds back, can issue it. -/
theorem canIssue_of_free {s : State} {c : Nat} {w : Micro} (h : s.ctxFree c) (hb : s.wordBlocked c (.good w) = false) :
    s.canIssue c (.good w) = true := by
  obtain ⟨h1, h2, h3, _, _, h6, h7, _⟩ := h
  rcases h1 with h1 | h1 <;> simp [State.canIssue, h1, h2, h3, h6, h7, hb]

/-- A context that cannot issue the word is left as it is. -/
theorem runMicro_of_blocked {s : State} {c : Nat} {w : Micro} (h : s.canIssue c (.good w) = false) : s.runMicro c w = s := by
  simp [State.runMicro, h]

/-- A word without POLL is no safe point (R57). -/
theorem diverts_of_noPoll {s : State} {c : Nat} {w : Micro} (hp : mPoll w = false) : s.diverts c (.good w) = false := by
  simp [State.diverts, WordReg.polls, hp]

theorem skips_of_noPoll {s : State} {c : Nat} {w : Micro} (hp : mPoll w = false) : s.skips c (.good w) = false := by
  simp [State.skips, diverts_of_noPoll hp]

theorem starving_of_free {s : State} {c : Nat} {w : Micro} (h : s.ctxFree c) : s.starving c (.good w) = false := by
  have := h.2.2.2.2.2.2.2
  simp [State.starving, this]

/-- A word that is no DISP word enters the datapath (R58, R111). -/
theorem startWord_plain {s : State} {c : Nat} {w : Micro} (h : s.ctxFree c) (hp : mPoll w = false) (hd : mSeq w ≠ 7) :
    s.startWord c (.good w) = s.setCx c ((s.cx c).enter false (s.issued c (.good w))) := by
  simp [State.startWord, starving_of_free h, WordReg.polls, hp, WordReg.isDisp, hd]

/-- A plain word that issues and commits (R58): no fault of R114 stands before its issue. -/
theorem runMicro_plain {s : State} {c : Nat} {w : Micro} (h : s.ctxFree c) (hb : s.wordBlocked c (.good w) = false)
    (hp : mPoll w = false) (hd : mSeq w ≠ 7) (hdiv : s.divTraps c w (s.operandB c w) = false)
    (ho : s.overflows c (.good w) = none) :
    s.runMicro c w =
      (s.setCx c ((s.cx c).enter false (s.issued c (.good w)))).commitMicro c w (s.issued c (.good w)) := by
  have h9 := h.2.2.2.1
  have hf : s.issueFault c (.good w) = none := by
    simp [State.issueFault, h9, starving_of_free h, ho, State.olupoTraps, WordReg.isDisp, hd, WordReg.micro, hdiv]
  have hl : s.liveWord c (.good w) = .good w := rfl
  simp only [State.runMicro, canIssue_of_free h hb, if_true, State.issueWord, hl, hf, Option.getD_none, startWord_plain h hp hd,
    State.commitWord, cx_setCx_self]
  rfl

/-- No push, no overflow (R30). -/
@[simp] theorem firstOverflow_nil (n : Nat) : firstOverflow n [] = none := by simp [firstOverflow]

/-- A word without POLL pushes what its own sequencing pushes (R30). -/
theorem pushesOf_noPoll {s : State} {c : Nat} {w : Micro} (hp : mPoll w = false) :
    s.pushesOf c (.good w) = (s.ownPlan c (.good w)).pushes := by
  simp [State.pushesOf, State.plan, skips_of_noPoll hp, diverts_of_noPoll hp]

/-- A word that pushes nothing cannot overflow the micro return stack (R30). -/
theorem overflows_none {s : State} {c : Nat} {w : Micro} (hp : mPoll w = false) (h : (s.ownPlan c (.good w)).pushes = []) :
    s.overflows c (.good w) = none := by
  simp [State.overflows, pushesOf_noPoll hp, h]

/-- What a word without POLL is issued with (R58). -/
theorem issued_noPoll {s : State} {c : Nat} {w : Micro} (hp : mPoll w = false) :
    s.issued c (.good w) =
      { addr := (s.cx c).maddr, word := .good w, a := s.g c (mAreg w), b := s.operandB c w
        eff := s.effCond c w && !condReserved (mCond w)
        psetVal := if 2 ≤ mPset w ∧ !condReserved (mCond w) then some (s.effCond c w != (mPset w % 2 == 1)) else none
        guardOk := s.guardOk c w, next := (s.ownPlan c (.good w)).next, cont := (s.ownPlan c (.good w)).cont
        pushes := (s.ownPlan c (.good w)).pushes, popped := (s.ownPlan c (.good w)).popped
        underflow := (s.ownPlan c (.good w)).underflow, divert := none, handover := false } := by
  have hg : s.wordGuard c (.good w) = s.guardOk c w := rfl
  simp [State.issued, skips_of_noPoll hp, diverts_of_noPoll hp, pushesOf_noPoll hp, State.plan, WordReg.micro, hg]

/-- A context that awaits its next word, no STOP and no class 9 fault pending, is in STALL (R60, R87). -/
theorem followOn_cont {s : State} {c : Nat} (h : (s.cx c).word = .empty) : s.followOn c .cont = s.setCx c { s.cx c with st := .stall } := by
  simp [State.followOn, State.settle, State.stalled, h, State.wordBlocked]

/-- EVLAST changes at the commit of a WAIT word only (R104). -/
@[simp] theorem noteMet_cont {s : State} {c : Nat} : s.noteMet c .cont = s := by simp [State.noteMet]
@[simp] theorem noteMet_park {s : State} {c : Nat} : s.noteMet c .park = s := by simp [State.noteMet]

/-- An empty word register asks for no decode (R131). -/
@[simp] theorem liveWord_empty {s : State} {c : Nat} : s.liveWord c .empty = .empty := rfl

/-- The end of a commit that goes on (R58, R60). -/
theorem endCommit_cont {s : State} {c : Nat} (hw : (s.cx c).word = .empty) (hs : (s.cx c).stopPend = false)
    (h9 : (s.cx c).pend9 = none) : s.endCommit c none .cont = s.setCx c { s.cx c with st := .stall } := by
  simp [State.endCommit, hs, followOn_cont hw, State.take9, h9, State.wantDecode, WordReg.isDisp, hw]

/-- The end of a PARK word's commit (R35). -/
theorem endCommit_park {s : State} {c : Nat} (hw : (s.cx c).word = .empty) (hs : (s.cx c).stopPend = false)
    (h9 : (s.cx c).pend9 = none) : s.endCommit c none .park = s.setCx c { s.cx c with st := .parked } := by
  simp [State.endCommit, hs, State.followOn, State.take9, h9, State.wantDecode, WordReg.isDisp, hw]

/-- A commit without stack work, WAIT, PARK or hold (R58): the effects, and the context goes on at the next address. -/
theorem commitMicro_cont {s : State} {c : Nat} {w : Micro} {i : Issued} (h7 : mSeq w ≠ 7) (h9 : mSeq w ≠ 9)
    (hst : ((s.wordEffects c w i).cx c).st ≠ .faulted) (hpop : i.popped = false) (hu : i.underflow = false) (hpu : i.pushes = [])
    (hd : i.divert = none) (hf : i.follow w = .cont) (hw : ((s.wordEffects c w i).cx c).word = .empty)
    (hs : ((s.wordEffects c w i).cx c).stopPend = false) (hp9 : ((s.wordEffects c w i).cx c).pend9 = none)
    (hh : holdOf (s.cx c) ((s.wordEffects c w i).cx c) (s.opt c 6) (s.opt c 8) .cont = none) :
    s.commitMicro c w i =
      ((s.wordEffects c w i).setCx c ((s.leaving c ((s.wordEffects c w i).cx c) i none (mPoll w)).goOn i.next i.cont)).setCx c
        { (s.leaving c ((s.wordEffects c w i).cx c) i none (mPoll w)).goOn i.next i.cont with st := .stall } := by
  simp only [State.commitMicro, h7, if_false, hst, State.loopDec, h9, State.stackWork, hpop, hu, hpu, hd, List.foldl_nil,
    Bool.false_eq_true, hf, hh]
  rw [endCommit_cont] <;> simp [State.leaving, Ctx.goOn, hw, hs, hp9]

/-- A word that carries sequencing alone: every other field at its no-action value (R25). -/
structure SeqOnly (w : Micro) : Prop where
  guard : mGuard w = 0
  alu : mAluop w = 0
  dsel : mDsel w = 0
  shop : mShop w = 0
  flagw : mFlagw w = 0
  mdu : mMduop w = 0
  mem : mMemop w = 0
  amod : mAmod w = 0
  qop : mQop w = 0
  evop : mEvop w = 0
  xop : mXop w = 0
  lcop : mLcop w = 0
  pset : mPset w = 0
  bsel : mBsel w = 0
  mbz : mMbz w = 0

theorem SeqOnly.guardOk {w : Micro} (h : SeqOnly w) (s : State) (c : Nat) : s.guardOk c w = true := by
  simp [State.guardOk, h.guard, State.pred]

theorem SeqOnly.divTraps {w : Micro} (h : SeqOnly w) (s : State) (c : Nat) (b : Word) : s.divTraps c w b = false := by
  simp [State.divTraps, h.mdu]

theorem SeqOnly.nameRefused {w : Micro} (h : SeqOnly w) (b : Word) : nameRefused w b = false := by
  simp [Sys2Proof.Machine.nameRefused, h.evop, h.xop, evRefused, evBase]

theorem SeqOnly.opRefused {w : Micro} (h : SeqOnly w) (b : Word) : opRefused w b = false := by
  simp [Sys2Proof.Machine.opRefused, h.dsel, h.nameRefused]

theorem SeqOnly.wordWrites {w : Micro} (h : SeqOnly w) (s : State) (c : Nat) {i : Issued} (hi : i.psetVal = none) :
    s.wordWrites c w i = s := by
  simp [State.wordWrites, h.mdu, h.amod, h.dsel, h.flagw, h.lcop, hi, State.writeDest, State.writeFlag, State.setSticky, State.lcop,
    State.wordResult, State.writeResult, datapath, Machine.alu, h.alu, h.shop]

theorem SeqOnly.wordActions {w : Micro} (h : SeqOnly w) (s s0 : State) (c : Nat) (i : Issued) : s.wordActions s0 c w i = s := by
  simp [State.wordActions, h.mem, h.qop, h.evop, h.xop, memActs, memFills, memIsLoad, memIsStore, memIsAtomic, evBase, State.evApply,
    evRefused]

/-- A word of sequencing alone has no effect but the count of a reserved encoding (R26). -/
theorem SeqOnly.wordEffects {w : Micro} (h : SeqOnly w) (s : State) (c : Nat) {i : Issued} (hi : i.psetVal = none) :
    s.wordEffects c w i = if encReserved w = true then s.countReserved (quireOf c) i.addr else s := by
  simp only [State.wordEffects, h.opRefused, h.nameRefused, h.wordWrites _ _ hi, h.wordActions,
    Bool.and_false, Bool.or_false, ite_self]

/-- What holds back a word of sequencing alone (R60): a condition that waits. -/
theorem SeqOnly.wordBlocked {w : Micro} (h : SeqOnly w) {s : State} {c : Nat} (h7 : mSeq w ≠ 7)
    (hc : seqUsesCond (mSeq w) = true → s.condReady c (BitVec.ofNat 6 (mCond w))) : s.wordBlocked c (.good w) = false := by
  have hm : mCond w < 64 := fld_lt _ _ _
  simp only [State.wordBlocked, h.bsel, h.mdu, mUsesCond, h.pset]
  by_cases hs : seqUsesCond (mSeq w) = true
  · obtain ⟨h1, h2⟩ := hc hs
    have e : ∀ n, n < 64 → (BitVec.ofNat 6 (mCond w) = BitVec.ofNat 6 n ↔ mCond w = n) := by
      intro n hn
      constructor
      · intro he
        have := congrArg BitVec.toNat he
        simp only [BitVec.toNat_ofNat] at this
        omega
      · rintro rfl; rfl
    have h1' : mCond w = 14 → (s.cx c).qops = [] := fun he => h1 ((e 14 (by omega)).2 he)
    have h2' : mCond w = 15 ∨ mCond w = 16 ∨ mCond w = 27 → (s.cx c).ops = [] := fun he =>
      h2 (by rcases he with he | he | he
             · exact .inl ((e 15 (by omega)).2 he)
             · exact .inr (.inl ((e 16 (by omega)).2 he))
             · exact .inr (.inr ((e 27 (by omega)).2 he)))
    simp only [hs]
    by_cases a : mCond w = 14
    · simp [a, h1' a, h7]
    · by_cases b : mCond w = 15 ∨ mCond w = 16 ∨ mCond w = 27
      · simp [h2' b, a, h7]
      · have : mCond w ≠ 15 ∧ mCond w ≠ 16 ∧ mCond w ≠ 27 := by omega
        simp [a, this, h7]
  · simp [hs, h7]

/-- A word of sequencing alone that neither pushes nor pops nor waits: the whole of what it does (R28, R58). -/
theorem runMicro_seq {s : State} {c : Nat} {w : Micro} (h : s.ctxFree c) (hq : SeqOnly w) (hp : mPoll w = false) (h7 : mSeq w ≠ 7)
    (h9 : mSeq w ≠ 9) (hr : encReserved w = false) (hc : seqUsesCond (mSeq w) = true → s.condReady c (BitVec.ofNat 6 (mCond w)))
    (hf : (s.issued c (.good w)).follow w = .cont) {a : BitVec 14} (ha : s.ownPlan c (.good w) = ⟨a, none, [], false, false⟩) :
    s.runMicro c w = s.setCx c (s.after c (s.cx c) a) := by
  have hi := issued_noPoll (s := s) (c := c) hp
  obtain ⟨i, hie⟩ : ∃ i, i = s.issued c (.good w) := ⟨_, rfl⟩
  rw [runMicro_plain h (hq.wordBlocked h7 hc) hp h7 (hq.divTraps ..) (overflows_none hp (by rw [ha]))]
  rw [← hie] at hi hf ⊢
  have e : (s.setCx c ((s.cx c).enter false i)).wordEffects c w i = s.setCx c ((s.cx c).enter false i) := by
    rw [hq.wordEffects _ _ (i := i) (by rw [hi]; simp [hq.pset]), hr]; rfl
  obtain ⟨-, -, h3, h4, h5, -⟩ := h
  rw [commitMicro_cont h7 h9 (hf := hf)] <;> try simp only [e, cx_setCx_self]
  · rw [setCx_setCx _ (by simp [State.leaving, Ctx.goOn, Ctx.enter]), setCx_setCx _ (by simp [Ctx.enter])]
    congr 1
    simp only [State.after, State.leaving, Ctx.goOn, Ctx.enter, pollNext, hi, ha, hp, Bool.false_eq_true, if_false]
    rfl
  all_goals simp [hi, ha, Ctx.enter, pollNext, h4, h5, holdOf]

end Sys2Proof.Machine
end

