-- ==== Sys2Proof/WellFormed.lean ====
section
/-! DEFINITION. Well-formed commands: the terms whose operands name what the command's row acts on. The types of the operands
already bound units and widths; what is left are the checks below. Every term has a meaning in `exec`; one that is not well formed is
not the command of its row, and changes nothing beyond what its docstring says (log entry 3). -/

namespace Sys2Proof

/-- A frame's payload is as long as its LEN says and no longer than 512 bytes, and its data blocks hold header, payload, CRC and padding
(R297, R298). -/
def Frame.wf (f : Frame) : Bool :=
  decide (f.payload.length ≤ 512) && Machine.fld f.word0 8 10 == f.payload.length && f.blocks == (27 + f.payload.length) / 8

/-- A frame of the row's TYPE (R298). -/
def Frame.wfType (type : Nat) (f : Frame) : Bool := f.wf && Machine.fld f.word0 0 4 == type

/-- Each user of Port B presents at most one access in a BCLK (R174). -/
def PortBRequest.wf (rs : List PortBRequest) : Bool := (rs.map (·.user)).eraseDups.length == rs.length

/-- The line of a command that names a spine event is not reserved (R98). -/
def lineOk (event : BitVec 12) : Bool := decide (event.toNat < 0xC80)

/-- A command's operands name what its row acts on. -/
def Instr.wf : Instr → Bool
  | .portBAccess _ presented => PortBRequest.wf presented
  | .spineAssertion line => lineOk line
  | .startBlock _ frame => frame.wf
  | .write _ frame => frame.wfType 1
  | .qpush _ frame => frame.wfType 2
  | .event _ frame => frame.wfType 3
  | .lineahead _ frame => frame.wfType 4
  | .pressFrame _ frame => frame.wfType 5
  | .pairedLowHalfWrite addr _ => Machine.pairedAt (8 * addr.toNat)
  | .unlistedPageAccess access isWrite => !isWrite || !Machine.pageListed (access.addr.toNat / 1024)
  | _ => true

end Sys2Proof
end

