-- ==== Sys2Proof/Tests/Slice0.lean ====
section
/-! SUPPORT. Tests of one step each, their expected results taken from the spec's examples and tables; the well-formedness checks, each with a
term it refuses; and, for every statement with hypotheses, states and operands that meet them, clause by clause. -/

-- one theorem after another: theorems that wait for one another would each hold a thread
set_option Elab.async false

namespace Sys2Proof.Tests

open Sys2Proof Sys2Proof.Machine

/-- The reset state with context `c` ready to issue. -/
def rdy (c : Nat) (x : Ctx) : State := (State.reset.setCx c { x with st := .ready }).put (F.CTX_CTXCFG_POLLLIM c) 5
/-- A context whose micro return stack holds `n` entries. -/
def stk (n : Nat) : Ctx := { Ctx.reset with mstk := (List.range n).map (fun i => ⟨BitVec.ofNat 14 (i + 7), false, none⟩) }
/-- A context with pending events: 5 waited for, 7 urgent. -/
def evs : Ctx := { Ctx.reset with et := [(0, ⟨5, true, false, true⟩), (1, ⟨7, false, true, true⟩)] }
/-- The reset state with context `c` in STALL. -/
def stl (c : Nat) (x : Ctx) : State := (State.reset.setCx c { x with st := .stall }).put (F.CTX_CTXCFG_POLLLIM c) 5
/-- A bank operation that has not reached its bank. -/
def opQ (memop : BitVec 4) (addr : BitVec 32) (strict : Bool) : BankOp := ⟨memop, addr, 0x1122334455667788, 9, strict, .requested⟩
/-- A context of quire 0 with a bank operation, bank `n` owned by `owner`. -/
def asks (n owner : Nat) (o : BankOp) : State :=
  (State.reset.setCx 0 { Ctx.reset with st := .stall, ops := [o] }).put (F.BNK_OWN_OWNER n) owner
/-- A request of context 0 at its quire's port for queue `n`, and the operation awaiting it. -/
def qreq (qop n : Nat) : QReq := ⟨0, qop, n, 0x55, .ctx 0 0, 9, false, 0⟩
def qop0 (qop : BitVec 4) : CtxQop := ⟨0, qop, none⟩
/-- The reset state with queue `n` enabled, of 8 elements in bank 127, unowned. -/
def qOn (n : Nat) : State :=
  State.reset.setReg (R.QD_CFG n) (BitVec.ofNat 64 (127 * 32768 + 6 * 2 ^ 24 + 63 * 2 ^ 32 + 3 * 2 ^ 40 + 2 ^ 63))
/-- The same with an operation of context 0 granted, or accepted at element `i`. -/
def granted (n qop : Nat) : State :=
  ((qOn n).setSl (n % 16) { Slice.reset with granted := [(qreq qop n, true)] }).setCx 0 { Ctx.reset with qops := [qop0 (BitVec.ofNat 4 qop)] }
def accepted (n qop i : Nat) : State :=
  ((qOn n).setSl (n % 16) { Slice.reset with accesses := [⟨qreq qop n, i⟩] }).setCx 0 { Ctx.reset with qEmpty := true, qops := [qop0 (BitVec.ofNat 4 qop)] }
/-- The beam running at (`line`, `tick`) in frame `frame`, 16 ticks to a line and 2 lines to a frame. -/
def beamAt (frame line tick : Nat) : State :=
  let s := ((State.reset.put F.BEAM_CTRL_RUN 1).put F.BEAM_GEOM_HTOT 15).put F.BEAM_GEOM_VTOT 1
  { s with beam := { s.beam with tick := tick, line := line, frame := frame } }
/-- A general timer that runs. -/
def timerOn (t : Nat) : State := ((State.reset.put (F.TMR_CFG_EN t) 1).put (F.TMR_TOP_TOP t) 9).put (F.TMR_CMP_CMP t) 5
/-- Channel `n` in state `st` with `remain` bytes left from `src` to `dst`, its set's CTL `ctl`. -/
def chan (n st remain : Nat) (src dst ctl : Word) : State :=
  let s := (((State.reset.setReg (R.DMA_CURSRC n) src).setReg (R.DMA_CURDST n) dst).put (F.DMA_REMAIN_REMAIN n) remain).setReg (R.DMA_CTL n 0) ctl
  (s.put (F.DMA_STATUS_STATE n) st).setDm n { Dma.reset with stepLeft := remain }
/-- A channel with a burst at the host master port. -/
def atHost (n st : Nat) (write : Bool) : State :=
  { (chan n st 16 (2 ^ 63) (2 ^ 63 + 64) 1).setDm n { Dma.reset with stepLeft := 16, burst := some ⟨8, [], [], 0, some 3⟩ } with
    hm := ⟨1, [⟨3, n, write, 64, 8, [], false⟩], 0⟩ }
/-- A channel whose queue operation waits, for a burst of one element to queue 5. -/
def qWaits : State :=
  let s := (chan 0 2 16 (2 ^ 63) (2 ^ 32 + 40) 1).setDm 0 { Dma.reset with stepLeft := 16, burst := some ⟨8, [], List.replicate 8 7, 0, none⟩, qwait := true }
  s.setReg (R.QD_CFG 5) (BitVec.ofNat 64 (127 * 32768 + 6 * 2 ^ 24 + 63 * 2 ^ 32 + 2 ^ 63))
/-- Engine `e` enabled, its divider at 2.5 clocks, in typed state `x`, its SHIFTCFG `cfg`. -/
def engine (e : Nat) (x : Engine) (cfg : Nat) : State :=
  ((((State.reset.put (F.PIO_CTRL_EN e) 1).put (F.PIO_CLKDIV_INT e) 2).put (F.PIO_CLKDIV_FRAC e) 128).setReg (R.PIO_SHIFTCFG e) (BitVec.ofNat 64 cfg)).setEn e x
/-- The same with pins 4 to 7 owned by the engine, and mapped. -/
def enginePins (e : Nat) (x : Engine) (cfg : Nat) : State :=
  let s := (engine e x cfg).setReg (R.PIO_PINMAP e) (BitVec.ofNat 64 (126 + 6 * 2 ^ 8 + 126 * 2 ^ 16 + 126 * 2 ^ 24 + 7 * 2 ^ 32 + 4 * 2 ^ 48))
  ((s.setReg (R.PIN_CFG 3 31) (BitVec.ofNat 64 (1 + e * 16))).setReg (R.PIN_CFG 0 0) (BitVec.ofNat 64 (1 + e * 16))).setPn 126 { Pin.reset with ext := true }
/-- Stitch port `p` enabled, its link in state `st`, in typed state `x`. -/
def port (p st : Nat) (x : Stitch) : State := ((State.reset.put (F.STI_CTRL_EN p) 1).put (F.STI_STATUS_LSTATE p) st).setSp p x
/-- A frame of `type` with header fields and a matching length. -/
def frm (type len hmode dest : Nat) (arg : Word) : Frame := mkFrame type len hmode dest 9 arg (List.replicate len 0xA5)
/-- A frame being received. -/
def rxd (f : Frame) : Stitch := { Stitch.reset with rx := some ⟨f, 1, [], [], none, false, false, false⟩ }
/-- A device of a wall: port 3 UP as its upstream, in `role`, beam of 16 by 2. -/
def wall (role up : Nat) : State :=
  let s := ((((beamAt 0 0 0).put (F.STI_STATUS_LSTATE 3) 3).put F.RHO_CTRL_RHOEN 1).put F.RHO_STATUS_ROLE role).put F.RHO_SIG_EPOCH 7
  (s.put F.RHO_SIG_UPPORT 3).put F.RHO_SIG_UPVALID up
/-- Queue `n` enabled, of 8 elements in bank 127, with stitch port 3 UP. -/
def portQ (n : Nat) (x : Stitch) : State := (((qOn n).put (F.STI_CTRL_EN 3) 1).put (F.STI_STATUS_LSTATE 3) 3).setSp 3 x
/-- A decoded instruction of one byte 0. -/
def d0 : Decoded := match decodeAt [⟨0, 0, false⟩] 0 (State.reset.free.1) with
  | .done d => d
  | _ => ⟨0,0,0,0⟩
/-- Engine `e` with its bank feeds set, bank 127 of owner `owner`. -/
def feed (e owner : Nat) (x : Engine) : State :=
  let r := BitVec.ofNat 64 (127 * 32768 + 6 * 2 ^ 22 + 2 ^ 27 + 60 * 2 ^ 32)
  (((State.reset.setReg (R.PIO_TXFEED e) r).setReg (R.PIO_RXFEED e) r).put (F.BNK_OWN_OWNER 127) owner).setEn e x
/-- Pin `n` with CFG `cfg`. -/
def pin (n cfg : Nat) (x : Pin) : State := (State.reset.setReg (R.PIN_CFG (n / 32) (n % 32)) (BitVec.ofNat 64 cfg)).setPn n x
/-- Interrupt source `i` pending. -/
def pend (i lvl tgt : Nat) : State :=
  ((State.reset.setReg (R.INTSRC_SRC i) (BitVec.ofNat 64 (lvl * 2 ^ 40 + tgt * 2 ^ 32 + 0xABCD + 2 ^ 48))).put F.INT_CTRL_EN 1)
/-- The last source pending for core 7, at level 15. -/
def lvl : State :=
  (List.range 8).foldl (fun s k => s.put (F.INTK_CTRL_EN k) 1) ((((State.reset.put (F.INTSRC_SRC_PEND 2047) 1).put (F.INTSRC_SRC_LEVEL 2047) 15).put (F.INTSRC_SRC_TARGET 2047) 128).put F.INT_CTRL_EN 1)
/-- Queue `n` with `k` elements. -/
def qElems (n k : Nat) (v : Nat) : State :=
  (qOn n).put (F.QD_PTR_TAIL n) (k + v - v)
/-- Sound port 7 with a record that begins with `e`. -/
def sndQ (now : Nat) (e : Word) : State := ((qElems (soundQueue 7) 1 0xABCD).put F.BND_CTRL_SNDEN 0x80).put (F.BND_SCNT_SCNT 7) now |>.setSnd 7 ⟨some e, none⟩
/-- A BLITGO of context 1023 that waits, its queues holding a command. -/
def bltHeld (ok : Bool) : State :=
  let s := [16280, 16281, 16282, 16283].foldl (fun s n => ((s.setReg (R.QD_CFG n) ((qOn n).reg (R.QD_CFG n))).put (F.QD_PTR_TAIL n) 1)) State.reset
  { s.put F.BND_CTRL_BLTEN (b2n ok) with blit := { Blit.reset with waiting := [⟨1023, 5, 4, false⟩] } }
/-- An occurrence of code `code`. -/
def occ (code : Nat) : Occ := ⟨code, 0x5F0, false, 1, 2, 3, 4, true⟩
/-- The colophon based, at sequence `seq`, pushed up to `push`, with `l` in its intake. -/
def based (seq push : Nat) (l : List Occ) : State :=
  let s := (((State.reset.put F.COL_STATUS_BASED 1).put F.COL_SEQ_SEQ seq).put F.COL_PUSHSEQ_PUSHSEQ push).put F.COL_FLSEQ_FLSEQ push
  { s with col := { s.col with intake := l, live := 4096 } }
/-- A freeze to be ended. -/
def thawable : State := { based 5 5 [] with col := { Colophon.reset with freezing := true, frzLow := 3, live := 5 } }
/-- A freeze of an unbased colophon. -/
def frozenIn : State := { State.reset with col := { Colophon.reset with freezing := true } }
/-- Queue 16,348 with `k` elements, a flush of `rest` and a transfer of `part` begun. -/
def flQ (rest part : List Word) (k : Nat) : State :=
  let q := ((based 5 5 []).setReg (R.QD_CFG 16348) ((qOn 16348).reg (R.QD_CFG 16348))).put (F.QD_PTR_TAIL 16348) k
  { q with col := { q.col with pushRest := rest, portPart := part } }
/-- FCLK stopped, its restart begun. -/
def stopped : State := { State.reset with pwr := { State.reset.pwr with running := false, starting := true } }
/-- An FCLK change pending. -/
def fsw (now lock : Nat) : State := let s := ((State.reset.put F.PWR_STATUS_FSWPEND 1).put F.PWR_FSW_NOW now).put F.PWR_STATUS_FLOCKED lock; { s with pwr := { s.pwr with idle := some 160 } }
/-- A wake entry for bank 127 at stitch port 3, the bank in RET. -/
def wk (v : Nat) : State := (((State.reset.setDom 160 2).setDom (domStitch 3) 1).put (domRF (domStitch 3) 0 2) 1).setReg (R.PWR_WAKE 63) (BitVec.ofNat 64 (5 + v + 160 * 2 ^ 8 + 2 ^ 16 + 3 * 2 ^ 36))
/-- Every domain in RET. -/
def allRet : State := (List.range 195).foldl (fun s i => s.setDom (i + 1) 2) (State.reset.put F.PWR_CTRL_FAUTOSTOP 1)
/-- Reset asserted. -/
def low (k r cold : Bool) : State := { State.reset.resetAsserted true with pwr := { State.reset.pwr with krstLow := k, rstLow := r, running := false, cold := cold } }
/-- Context 33 ready with a word of POLL `poll` and SEQ `seq`. -/
def pw (poll seq : Nat) (x : Ctx) : State :=
  rdy 33 { x with word := .good (mwd [(164, 1, poll), (188, 4, seq), (167, 14, 77), (160, 4, 3), (181, 1, 1)]) }
/-- The colophon takes an occurrence of code `k` as it comes. -/
def recs (s : State) (k : Nat) : State := (s.put F.COL_STATUS_BASED 1).setReg (R.COL_RATE (k / 4)) 0
/-- Context 0 at a decoded instruction of word `w`, its source operand `src`, its first data register `r`. -/
def olu (w : Nat) (src r : Word) : State :=
  (rdy 0 { Ctx.reset with cur := some ⟨BitVec.ofNat 64 w, 0, 0x1000, 0x11223344⟩, olatch := src, blatch := 0x8877665544332211, qlatch := 7 }).setG 0 0 r


/-- The state one command leads to. -/
def after (i : Instr) (s : State) : State := match exec i s with | .next t => t | _ => s

/-! Well-formedness: a term that each check refuses, and one that it takes. -/

theorem test_wf_port_b_one_access_per_user :
    Instr.wf (.portBAccess 0 [⟨.dma, 0, false, 0, 0⟩, ⟨.dma, 1, true, 0, 0⟩]) = false ∧
    Instr.wf (.portBAccess 0 [⟨.dma, 0, false, 0, 0⟩, ⟨.hostWindow, 1, false, 0, 0⟩]) = true := by decide +kernel

theorem test_wf_spine_line_not_reserved :
    Instr.wf (.spineAssertion 0xC80) = false ∧ Instr.wf (.spineAssertion 0xC7F) = true := by decide +kernel

theorem test_wf_frame_length_and_blocks :
    Instr.wf (.startBlock 0 { frm 1 8 0 5 0 with blocks := 6 }) = false ∧
    Instr.wf (.startBlock 0 { frm 1 8 0 5 0 with payload := [] }) = false ∧ Instr.wf (.startBlock 0 (frm 1 8 0 5 0)) = true := by decide +kernel

theorem test_wf_frame_type_of_row :
    (Instr.wf (.write 0 (frm 2 8 0 5 0)) = false ∧ Instr.wf (.qpush 0 (frm 1 8 0 5 0)) = false ∧ Instr.wf (.event 0 (frm 1 0 0 5 0)) = false ∧
      Instr.wf (.lineahead 0 (frm 1 8 0 5 0)) = false ∧ Instr.wf (.pressFrame 0 (frm 1 0 0 5 0)) = false) ∧
    Instr.wf (.write 0 (frm 1 8 0 5 0)) = true := by decide +kernel

theorem test_wf_low_half_of_a_paired_register :
    Instr.wf (.pairedLowHalfWrite (BitVec.ofNat 21 (R.PRS_EVEN / 8)) 0) = false ∧
    Instr.wf (.pairedLowHalfWrite (BitVec.ofNat 21 (R.DMA_COUNT 12 0 / 8)) 0) = true := by decide +kernel

theorem test_wf_unlisted_page : Instr.wf (.unlistedPageAccess ⟨0, 15⟩ true) = false ∧ Instr.wf (.unlistedPageAccess ⟨0, 15⟩ false) = true ∧
    Instr.wf (.unlistedPageAccess ⟨0x3FFFFF, 15⟩ true) = true := by decide +kernel

/-! Results taken from the spec's tables and examples. -/

/-- 03_datapath.md, table of shift examples on 0x8000_0000_0000_0001 (R71). -/
theorem test_shift_examples :
    let x := 0x8000000000000001
    shifter 6 x 0 1 64 0 = (0x4000000000000000, some true) ∧ shifter 6 x 0 0x101 64 0 = (0x4000000000000000, some true) ∧
    shifter 5 x 0 64 64 0 = (0, some true) ∧ shifter 5 x 0 65 64 0 = (0, some false) ∧
    shifter 7 x 0 64 64 0 = (0xFFFFFFFFFFFFFFFF, some true) ∧ shifter 7 x 0 200 64 0 = (0xFFFFFFFFFFFFFFFF, some false) ∧
    shifter 8 x 0 64 64 0 = (0x8000000000000001, some true) ∧ shifter 8 x 0 65 64 0 = (0xC000000000000000, some false) ∧
    shifter 2 x 0 0 64 0 = (0x8000000000000001, none) := by decide +kernel

/-- 03_datapath.md, table of bit-field examples and the INS example (R72). -/
theorem test_bit_field_examples :
    let x := 0xF000000000000000
    (shifter 9 x 60 0 4 0).1 = 0xF ∧ (shifter 10 x 60 0 4 0).1 = 0xFFFFFFFFFFFFFFFF ∧ (shifter 10 x 60 0 8 0).1 = 0xF ∧
    (shifter 9 x 0 0 64 0).1 = x ∧ (shifter 11 0xAB 60 0 8 0).1 = 0xB000000000000000 := by decide +kernel

/-- 03_datapath.md, "A divide hidden behind line work": 65,536,000,000 / 3,000. -/
theorem test_divide_example : divide true 0xF42400000 0xBB8 = (0x14D5555, 0x3E8) := by decide +kernel

/-- 05_olupo_code.md, table of a modulo sequence: A2 from 0x4_0018, a 32-byte block, 4-byte accesses (R49). -/
theorem test_modulo_sequence :
    amodAddr 4 0x40018 4 5 0 = 0x4001C ∧ amodAddr 4 0x4001C 4 5 0 = 0x40000 ∧ amodAddr 4 0x40000 4 5 0 = 0x40004 ∧
    amodAddr 5 0x40004 4 5 0 = 0x40000 ∧ amodAddr 5 0x40000 4 5 0 = 0x4001C := by decide +kernel

/-- 05_olupo_code.md, table of a bit-reversed sequence: M3 holds MLOG = 5 with BREV = 1 (R147). -/
theorem test_bit_reversed_sequence :
    amodAddr 6 0x80000 4 0x25 0 = 0x80010 ∧ amodAddr 6 0x80010 4 0x25 0 = 0x80008 ∧ amodAddr 6 0x80008 4 0x25 0 = 0x80018 ∧
    amodAddr 6 0x80018 4 0x25 0 = 0x80004 ∧ amodAddr 6 0x80004 4 0x25 0 = 0x80014 ∧ amodAddr 6 0x80014 4 0x25 0 = 0x8000C ∧
    amodAddr 6 0x8000C 4 0x25 0 = 0x8001C ∧ amodAddr 6 0x8001C 4 0x25 0 = 0x80000 := by decide +kernel

/-- 15_register_pages.md, table of example addresses (R406). -/
theorem test_register_addresses :
    R.CTX_G 517 3 = 0x605098 ∧ R.DMA_COUNT 12 0 = 0x0CC110 ∧ R.QUI_SLOT 3 40 = 0x023340 ∧ R.TMR_COUNT 20 = 0x1820A0 ∧
    R.QD_PTR 300 = 0x0812C8 := by decide +kernel

/-- 15_register_pages.md, the paired write of DMA[12].A.COUNT: 0x2000, then 0 to the high half. -/
theorem test_paired_write_commits :
    (after (.registerWrite (BitVec.ofNat 22 (0x0CC114 / 4)) 15 0) (after (.pairedLowHalfWrite (BitVec.ofNat 21 (0x0CC110 / 8)) 0x2000)
      State.reset)).get (F.DMA_COUNT_COUNT 12 0) = 0x2000 := by decide +kernel

/-- The same with set A current and the channel ACTIVE: rejected as a whole, REJCNT counts one, the held half is discarded (R246). -/
theorem test_paired_write_rejected :
    let s := ((State.reset.put (F.DMA_STATUS_STATE 12) 2).put (F.DMA_CTL_RUN 12 0) 1).put (F.DMA_COUNT_COUNT 12 0) 9
    let t := after (.registerWrite (BitVec.ofNat 22 (0x0CC114 / 4)) 15 0) (after (.pairedLowHalfWrite (BitVec.ofNat 21 (0x0CC110 / 8)) 0x2000) s)
    t.get (F.DMA_COUNT_COUNT 12 0) = 9 ∧ t.get (rejcnt 0x0CC) = 1 ∧ t.held = [] := by decide +kernel

/-- 06_banks.md, the injection example: CFLIP 0, DBIT 5, DEN, ARM, then 0 stored at word 0 of bank 12 (R191). -/
theorem test_injection_example :
    let s := after (.injWrite 12 (5 * 2 ^ 8 + 2 ^ 14 + 2 ^ 15)) State.reset
    let t := s.storeFor (12 * 32768) 0
    t.arrWord (12 * 32768) = 0x20 ∧ secSyndrome (t.arrWord (12 * 32768)) = 0x15 ∧ t.get (F.BNK_INJ_ARM 12) = 0 ∧
    secDecode 0x20 0x15 = (0, .corrected) := by decide +kernel

/-- 06_banks.md, the handover example: OWNER reads 0x08 and PEND is set at once; PEND clears when no step remains (R183). -/
theorem test_handover_example :
    let s := after (.ownershipHandover 40 0x08) State.reset
    s.get (F.BNK_OWN_OWNER 40) = 8 ∧ s.get (F.BNK_OWN_PEND 40) = 1 ∧ (after (.handoverComplete 40) s).get (F.BNK_OWN_PEND 40) = 0 := by decide +kernel

/-- 09_dma.md, the paced double buffer: the CTL value of set A starts channel 0, which waits for its first request. -/
theorem test_dma_worked_example :
    let s := ((State.reset.setReg (R.DMA_SRC 0 0) 0x8000000040000000).setReg (R.DMA_DST 0 0) 0xA00000).put (F.DMA_COUNT_COUNT 0 0) 0x2000
    let t := after (.dmaSetStart 0 false (0x7D + BitVec.ofNat 64 (13 * 2 ^ 8 + 2 ^ 16 + 4 * 2 ^ 18 + 9 * 2 ^ 30 + 3 * 2 ^ 35))) s
    t.reg (R.DMA_CTL 0 0) = 0x1A40110D7D ∧ t.dmaState 0 = 1 ∧ t.dRemain 0 = 8192 := by decide +kernel

/-- 08_beam_and_timers.md, the worked setup: INT 7, FRAC 0x93_64D9 (R215). -/
theorem test_tickdiv_example :
    let t := after (.tickdivWrite 0x079364D9) State.reset
    t.get F.BEAM_TICKDIV_INT = 7 ∧ t.get F.BEAM_TICKDIV_FRAC = 0x9364D9 := by decide +kernel

/-- The same period from an empty accumulator: the first tick comes at the 8th FCLK, with 8 FCLK less the period left over (R215). -/
theorem test_divider_example : accAfter 0 0x079364D9 = 8 * 2 ^ 24 - 0x079364D9 := by decide +kernel

/-- R32: a counter of 2 counts to 1 and branches, a counter of 1 counts to 0 and falls through, a counter of 0 stays. -/
theorem test_loop_counts :
    let s := fun n => (rdy 0 { Ctx.reset with maddr := 0x100 }).put (F.CTX_LC_LC0 0) n
    let t := fun n => after (.loop 0 false 0x80) (s n)
    ((t 2).get (F.CTX_LC_LC0 0) = 1 ∧ ((t 2).cx 0).maddr = 0x80) ∧ ((t 1).get (F.CTX_LC_LC0 0) = 0 ∧ ((t 1).cx 0).maddr = 0x101) ∧
    ((t 0).get (F.CTX_LC_LC0 0) = 0 ∧ ((t 0).cx 0).maddr = 0x101) := by decide +kernel

/-- R68: CMP of 3 with 5 borrows, so C is clear, N is set; the destination keeps its value. -/
theorem test_cmp_flags :
    let t := after (.aluOperation 0 15 1 0 2 1 3 15 0) (((rdy 0 .reset).setReg (R.CTX_G 0 1) 3).setReg (R.CTX_G 0 2) 5)
    t.on (flagRF 0 3) = true ∧ t.on (flagRF 0 2) = false ∧ t.on (flagRF 0 1) = false ∧ t.on (flagRF 0 0) = false ∧ t.g 0 3 = 0 := by decide +kernel

/-- R103: a second record of an event before CONSUME merges with the first, and is counted. -/
theorem test_event_merge :
    let t := (State.reset.setCx 0 { evs with st := .wait }).etAssert 0 5
    t.get (F.CTX_EVMERGE_EVMERGE 0) = 1 ∧ ((t.cx 0).etAt 0).p = true := by decide +kernel

/-- R98: host doorbell 5 is line 0xC05. -/
theorem test_doorbell_line : (after (.hostDoorbell 5) State.reset).posted = [(0, 0xC05)] := by decide +kernel

/-- R272: a loop closed by JCNT with X = 2 jumps twice and then falls through. -/
theorem test_jcnt_falls_through :
    let t := fun x => (after (.jcnt 0 false 9) (engine 0 { Engine.reset with x := x, pc := 4 } 0)).en 0
    ((t 2).pc = 9 ∧ (t 2).x = 1) ∧ ((t 0).pc = 5 ∧ (t 0).x = 0) := by decide +kernel

/-- R352: an acknowledgement with no offer up does nothing and is counted. -/
theorem test_stray_acknowledgement : (after (.ivAck 3) State.reset).get (errcnt intPage) = 1 := by decide +kernel

/-- R399, R388: the record of code 0x002 is the first of the base. -/
theorem test_first_record :
    let t := after (.seqbaseWrite 0x123456789A) State.reset
    t.colSeq = 0x123456789B ∧ fld (t.ringAt 0x123456789A) 32 10 = 2 := by decide +kernel

/-- R376: STARTUP goes to SERVICE and not to RECOVERY. -/
theorem test_mode_table :
    (after (.modeWrite 1) State.reset).get F.BLK_MODE_MODE = 1 ∧ (after (.modeWrite 2) State.reset).get F.BLK_MODE_MODE = 0 ∧
    (after (.modeWrite 2) State.reset).get (rejcnt blkPage) = 1 := by decide +kernel

/-- R349: SCANTDR acts only under TEST_MODE; there the block's state is destroyed, and its inputs stay. -/
theorem test_scan_needs_test_mode :
    let s := { State.reset with pwr := { State.reset.pwr with testMode := true } }
    exec .scantdrUpdate State.reset = .next State.reset ∧ exec .scantdrUpdate s = .next s.scanned := ⟨rfl, rfl⟩

/-- R294: an IDLE block whose check is wrong is counted in CTLERR; 0x1E has the CRC-8 of its seven bytes. -/
theorem test_control_block_check :
    let s := port 3 3 Stitch.reset
    (after (.idleBlock ⟨3, ctlBlock 0x1E 0 ^^^ 0x100⟩) s).get (F.STI_CTLERR_CTLERR 3) = 1 ∧
    (after (.idleBlock ⟨3, ctlBlock 0x1E 0⟩) s).get (F.STI_CTLERR_CTLERR 3) = 0 := by decide +kernel

/-- R297: the CRC-32 is that of the check string "123456789" of its standard. -/
theorem test_crc32_check_value : crc32 ([0x31, 0x32, 0x33, 0x34, 0x35, 0x36, 0x37, 0x38, 0x39]) = 0xCBF43926 := by decide +kernel

/-- R297: a frame of 8 payload bytes has 4 data blocks, and a wrong count of them is an error of length. -/
theorem test_frame_blocks :
    (frm 1 8 0 5 0).blocks = 4 ∧
    (after (.idleBlock ⟨3, ctlBlock 0x1E 0⟩) (port 3 3 (rxd { frm 1 8 0 5 0 with blocks := 5 }))).get (F.STI_RXERR_LENERR 3) = 1 := by decide +kernel

/-- A command placed at the front is run next. -/
theorem test_front_command :
    step { State.reset with pending := [.beamTick, .pressArm] } = exec .beamTick { State.reset with pending := [.pressArm] } := rfl

/-! The hypotheses of every statement are met: each conjunct is one clause's hypotheses on a concrete state. -/

theorem witness_SequencingForms :
    (let s := rdy 1023 .reset; let c : Fin 1024 := 1023; s.ctxFree ↑c) ∧
    (let s := rdy 0 .reset; let c : Fin 1024 := 0; let cond : BitVec 6 := 1; s.ctxFree ↑c ∧ s.condReady (↑c) cond ∧ condReserved cond.toNat = false) ∧
    (let s := rdy 0 .reset; let c : Fin 1024 := 0; let cond : BitVec 6 := 62; let cpol : Bool := false; let target : BitVec 14 := 5; let i : Instr := Instr.brt 0 (62#6) false 5#14; s.ctxFree ↑c ∧ condReserved cond.toNat = true ∧ (i = Instr.brt c cond cpol target ∨ i = Instr.brf c cond cpol target ∨ i = Instr.callc c cond cpol target ∨ i = Instr.ret c cond cpol ∨ i = Instr.wait c cond cpol false target)) ∧
    (let s := rdy 0 .reset; let c : Fin 1024 := 0; s.ctxFree ↑c) ∧
    (let s := rdy 0 .reset; let c : Fin 1024 := 0; s.ctxFree ↑c) ∧
    ((let n : Nat := 63; 58 ≤ n) ∧
     (let n : Nat := 1; 1 ≤ n ∧ n ≤ 7) ∧
     (let s := rdy 0 { evs with cur := some ⟨0x2000, 1, 2, 3⟩ }; let c : Nat := 0; let w : Micro := mwd [(109, 3, 4), (114, 4, 1)]; let addr : Nat := s.get (aRF c (mMemar w)); addr < 2 ^ 25) ∧
     (let s := rdy 0 { evs with cur := some ⟨0x2000, 1, 2, 3⟩ }; let c : Nat := 0; s.opt c 9 = false) ∧
     (let s := rdy 0 { evs with cur := some ⟨0x2000, 1, 2, 3⟩ }; let c : Nat := 0; let x : Ctx := s.cx c; let d : Decoded := { word := 8192, imm := 1, addr := 2, bytes := 3 }; x.cur = some d) ∧
     (let w : Micro := mwd [(109, 3, 4), (114, 4, 1)]; mAmod w = 4)) ∧
    ((let s := (rdy 0 evs).put (F.CTX_CTXCFG_WMODE 0) 1; let c : Nat := 0; s.opt c 9 = true) ∧
     (let s := (rdy 0 evs).put (F.CTX_CTXCFG_WMODE 0) 1; let c : Nat := 0; let x : Ctx := s.cx c; x.cur = none) ∧
     (let w : Micro := mwd [(109, 3, 5), (114, 4, 1)]; mAmod w = 5) ∧
     (let s := rdy 0 evs; let c : Nat := 0; let w : Micro := mwd [(109, 3, 6), (114, 4, 1)]; let m : Nat := s.get (mRF c (mMemar w)); mAmod w = 6 ∧ (m % 32 = 0 ∨ m.testBit 5 = false)) ∧
     (let s := ((rdy 0 evs).put (mRF 0 0) 0x25).put (aRF 0 0) 0x80000; let c : Nat := 0; let w : Micro := mwd [(109, 3, 6), (114, 4, 1)]; let size : Nat := memSize (mMemop w); let m : Nat := s.get (mRF c (mMemar w)); mAmod w = 6 ∧ m.testBit 5 = true ∧ size.log2 < m % 32) ∧
     (let w : Micro := 0; ¬mAmod w ∈ [4, 5, 6])) :=
  by refine ⟨?_, ?_, ?_, ?_, ?_, ?_, ?_⟩ <;> decide +kernel

theorem witness_MicroReturnStack :
    ((let s := rdy 1023 (stk 3); let c : Fin 1024 := 1023; let cond : BitVec 6 := 0; let x : Ctx := s.cx ↑c; s.ctxFree ↑c ∧ s.condReady (↑c) cond ∧ condReserved cond.toNat = false ∧ x.mstk.length < 4) ∧
     (let s := rdy 1023 (stk 3); let c : Fin 1024 := 1023; let cond : BitVec 6 := 0; let x : Ctx := s.cx ↑c; let e : MEntry := (fun i => { addr := BitVec.ofNat 14 (i + 7), urgent := false, cont := none }) 0; let rest : List MEntry := List.map (fun i => { addr := BitVec.ofNat 14 (i + 7), urgent := false, cont := none }) [1, 2]; s.ctxFree ↑c ∧ s.condReady (↑c) cond ∧ condReserved cond.toNat = false ∧ x.mstk = e :: rest)) ∧
    ((let s := rdy 0 (stk 4); let c : Fin 1024 := 0; s.ctxFree ↑c ∧ (s.cx ↑c).mstk.length = 4 ∧ s.opt (↑c) 3 = false) ∧
     (let s := (rdy 0 (stk 4)).put (F.CTX_CTXCFG_MSTRAP 0) 1; let c : Fin 1024 := 0; s.ctxFree ↑c ∧ (s.cx ↑c).mstk.length = 4 ∧ s.opt (↑c) 3 = true)) ∧
    (let s := rdy 0 .reset; let c : Fin 1024 := 0; let cond : BitVec 6 := 0; let cpol : Bool := false; s.ctxFree ↑c ∧ s.condReady (↑c) cond ∧ condReserved cond.toNat = false ∧ (s.cx ↑c).mstk = [] ∧ (s.plainCond (↑c) cond != cpol) = true) :=
  by refine ⟨?_, ?_, ?_⟩ <;> decide +kernel

theorem witness_WaitsAndUrgentEvents :
    (let s := rdy 33 evs; let c : Fin 1024 := 33; let cond : BitVec 6 := 0; s.ctxFree ↑c ∧ s.condReady (↑c) cond ∧ condReserved cond.toNat = false) ∧
    (let s := rdy 33 evs; let c : Fin 1024 := 33; let cond : BitVec 6 := 0; s.ctxFree ↑c ∧ s.condReady (↑c) cond ∧ condReserved cond.toNat = false ∧ (s.cx ↑c).mstk.length < 4 ∧ (s.cx ↑c).urg = false ∧ (s.cx ↑c).urgentMet = true ∧ (s.cx ↑c).routine = none) :=
  by refine ⟨?_, ?_⟩ <;> decide +kernel

theorem witness_AluResults :
    (let n : Nat := 64; n = 64 ∨ n = 32) ∧
    (let n : Nat := 64; n = 64 ∨ n = 32) ∧
    ((let n : Nat := 64; n = 64 ∨ n = 32) ∧
     (let n : Nat := 64; let k : Nat := 0; (n = 64 ∨ n = 32) ∧ (k = 0 ∨ 29 ≤ k % 32)) ∧
     (let n : Nat := 32; (n = 64 ∨ n = 32) ∧ n = 32)) :=
  by refine ⟨?_, ?_, ?_⟩ <;> decide +kernel

theorem witness_ShifterResults :
    ((let p : Nat := 0; p < 64) ∧
     (let p : Nat := 0; let k : Nat := 1; p < 64 ∧ p = 0 ∧ k ∈ [1, 2, 3, 4]) ∧
     (let b : Word := 63; let p : Nat := 0; let k : Nat := 5; p < 64 ∧ fld b 0 8 < 64 ∧ k ∈ [5, 6, 7, 8]) ∧
     (let p : Nat := 63; p < 64 ∧ 1 ≤ p) ∧
     (let b : Word := 64; let p : Nat := 63; p < 64 ∧ fld b 0 8 = 64) ∧
     (let b : Word := 65; let p : Nat := 1; p < 64 ∧ 64 < fld b 0 8)) ∧
    ((let p : Nat := 63; let w : Nat := 64; p < 64 ∧ 1 ≤ w ∧ w ≤ 64) ∧
     (let p : Nat := 63; let w : Nat := 64; let k : Nat := 0; p < 64 ∧ 1 ≤ w ∧ w ≤ 64 ∧ k < 64) ∧
     (let p : Nat := 63; let w : Nat := 64; let k : Nat := 0; p < 64 ∧ 1 ≤ w ∧ w ≤ 64 ∧ k < 8)) :=
  by refine ⟨?_, ?_⟩ <;> decide +kernel

theorem witness_Multiplies :
    ((let s := rdy 0 .reset; let c : Fin 1024 := 0; let bsel : BitVec 3 := 2; s.ctxFree ↑c ∧ s.bReady (↑c) bsel) ∧
     (let s := rdy 0 .reset; let c : Fin 1024 := 0; s.ctxFree ↑c ∧ (s.cx ↑c).div = none) ∧
     (let s := rdy 0 .reset; let c : Fin 1024 := 0; s.ctxFree ↑c)) :=
  by decide +kernel

theorem witness_Divides :
    (let b : Word := 0xFFFFFFFFFFFFFFFF; b ≠ 0) ∧
    ((let s := rdy 0 .reset; let c : Fin 1024 := 0; let bsel : BitVec 3 := 1; let breg : BitVec 4 := 3; let imm : Word := 0; let b : Word := s.plainB (↑c) bsel breg imm; s.ctxFree ↑c ∧ s.bReady (↑c) bsel ∧ (s.cx ↑c).div = none ∧ (b = 0 → s.opt (↑c) 5 = false)) ∧
     (let s := rdy 0 { Ctx.reset with div := some ⟨true, -7, 2⟩ }; let c : Fin 1024 := 0; let d : DivOp := { signed := true, a := -7, b := 2 }; (s.cx ↑c).div = some d ∧ s.unitOn (domQuire (quireOf ↑c)) = true)) ∧
    (let s := (rdy 0 .reset).put (F.CTX_CTXCFG_DZTRAP 0) 1; let c : Fin 1024 := 0; let bsel : BitVec 3 := 1; let breg : BitVec 4 := 3; let imm : Word := 0; s.ctxFree ↑c ∧ s.bReady (↑c) bsel ∧ (s.cx ↑c).div = none ∧ s.opt (↑c) 5 = true ∧ s.plainB (↑c) bsel breg imm = 0) :=
  by refine ⟨?_, ?_, ?_⟩ <;> decide +kernel

theorem witness_OperandsAndDestinations :
    ((let c : Nat := 0; let breg : BitVec 4 := 0; breg = 0 ∧ c < 2 ^ 64) ∧
     (let breg : BitVec 4 := 2; breg = 2) ∧
     (let breg : BitVec 4 := 9; breg = 9) ∧
     (let breg : BitVec 4 := 9; let n : Nat := 1; breg = 9 ∧ 1 ≤ n ∧ n ≤ 7) ∧
     (let breg : BitVec 4 := 12; breg = 12) ∧
     (let breg : BitVec 4 := 15; breg = 15)) ∧
    ((let dreg : Nat := 15; dreg < 16) ∧
     (let c : Nat := 0; let dreg : Nat := 15; let k : Nat := 0; dreg < 16 ∧ k ≠ R.CTX_G c dreg) ∧
     (let dreg : Nat := 15; let n : Nat := 0; dreg < 16 ∧ n < 4 ∧ n ≠ dreg % 4) ∧
     (let c : Nat := 0; let dreg : Nat := 15; let k : Nat := 0; dreg < 16 ∧ k ≠ (aRF c (dreg % 4)).key)) ∧
    ((let n : Nat := 0; n ∈ [0, 12, 13, 14, 15]) ∧
     (let n : Nat := 1; 1 ≤ n ∧ n ≤ 7) ∧
     (let v : Word := 63; let n : Nat := 0; n < 4 ∧ mlogReserved (fld v 0 16) = true) ∧
     (let v : Word := 6; let n : Nat := 0; n < 4 ∧ mlogReserved (fld v 0 16) = false)) :=
  by refine ⟨?_, ?_, ?_⟩ <;> decide +kernel

theorem witness_DatapathWordsRun :
    (let s := rdy 0 .reset; let c : Fin 1024 := 0; let bsel : BitVec 3 := 2; s.ctxFree ↑c ∧ s.bReady (↑c) bsel) ∧
    (let s := rdy 0 .reset; let c : Fin 1024 := 0; let bsel : BitVec 3 := 3; s.ctxFree ↑c ∧ s.bReady (↑c) bsel) ∧
    (let i : Nat := 4; 4 ≤ i ∧ i < 64) ∧
    (let s := rdy 0 .reset; let c : Fin 1024 := 0; let cond : BitVec 6 := 14; s.ctxFree ↑c ∧ s.condReady (↑c) cond) :=
  by refine ⟨?_, ?_, ?_, ?_⟩ <;> decide +kernel

theorem witness_BankOperationWords :
    (let s := (rdy 0 .reset).setReg (R.CTX_AREG01 0) 0x1FFFFFD; let c : Fin 1024 := 0; s.ctxFree ↑c) ∧
    (let op : Nat := 2; 1 ≤ op ∧ op ≤ 13) ∧
    ((let op : Nat := 13; let m : Nat := 0x20; 1 ≤ op ∧ op ≤ 13 ∧ m < 2 ^ 16) ∧
     (let op : Nat := 13; let m : Nat := 0x20; 1 ≤ op ∧ op ≤ 13 ∧ m < 2 ^ 16 ∧ m % 32 = 0) ∧
     (let op : Nat := 1; let m : Nat := 31; 1 ≤ op ∧ op ≤ 13 ∧ m < 2 ^ 16 ∧ m.testBit 5 = false) ∧
     (let op : Nat := 1; let m : Nat := 31; 1 ≤ op ∧ op ≤ 13 ∧ m < 2 ^ 16 ∧ m % 32 ≠ 0)) :=
  by refine ⟨?_, ?_, ?_⟩ <;> decide +kernel

theorem witness_EventOperationsAndSpine :
    (let s := rdy 0 evs; let c : Fin 1024 := 0; s.ctxFree ↑c) ∧
    ((let s := rdy 0 evs; let c : Nat := 0; let e : BitVec 12 := 5; let x : Ctx := s.cx c; let i : Nat := 0; e.toNat < 3200 ∧ x.findEt e = some i) ∧
     (let e : BitVec 12 := 5; let i : Nat := 0; e.toNat < 3200 ∧ i < 16) ∧
     (let s := rdy 0 evs; let c : Nat := 0; let e : BitVec 12 := 0x400; let x : Ctx := s.cx c; let i : Nat := 2; e.toNat < 3200 ∧ x.findEt e = none ∧ x.freeEt = some i) ∧
     (let s := rdy 0 evs; let c : Nat := 0; let e : BitVec 12 := 0x400; let x : Ctx := s.cx c; e.toNat < 3200 ∧ x.findEt e = none) ∧
     (let e : BitVec 12 := 0x400; e.toNat < 3200 ∧ 1024 ≤ e.toNat ∧ e.toNat ≤ 2047) ∧
     (let s := rdy 0 { Ctx.reset with et := (List.range 16).map (fun i => (i, ⟨BitVec.ofNat 12 (i + 1), true, false, true⟩)) }; let c : Nat := 0; let e : BitVec 12 := 0x7FF; let x : Ctx := s.cx c; let op : Nat := 2; let urgent : Word := 0#64; e.toNat < 3200 ∧ x.findEt e = none ∧ x.freeEt = none ∧ (op = 2 ∧ urgent = 0 ∨ op = 5 ∧ urgent = 1))) ∧
    (let s := recs (rdy 0 { Ctx.reset with et := (List.range 16).map (fun i => (i, ⟨BitVec.ofNat 12 (i + 1), true, false, true⟩)) }) 0x1B; let c : Nat := 0; let e : BitVec 12 := 0x7FF; let x : Ctx := s.cx c; let op : Nat := 2; let urgent : Word := 0#64; e.toNat < 3200 ∧ x.findEt e = none ∧ x.freeEt = none ∧ (op = 2 ∧ urgent = 0 ∨ op = 5 ∧ urgent = 1) ∧ s.records 27) ∧
    ((let s := rdy 0 evs; let line : BitVec 12 := 0xC7F; let n : Nat := line.toNat; let posted : Bool := s.posted.any fun p => p.snd == n; s.pwr.running = true ∧ posted = false) ∧
     (let s := rdy 0 evs; s.pwr.running = true ∧ s.wf = true) ∧
     (let s := rdy 0 evs; let p : Nat := 0; s.pwr.running = true ∧ p < 128) ∧
     (let s : State := { rdy 0 evs with posted := [(3, 5)] }; let line : BitVec 12 := 5; let n : Nat := line.toNat; let posted : Bool := s.posted.any fun p => p.snd == n; s.pwr.running = true ∧ posted = true) ∧
     (let s : State := { ((rdy 0 evs).setReg (R.DMA_CTL 63 0) (BitVec.ofNat 64 (2 ^ 16 + 5 * 2 ^ 18))) with posted := [(3, 5)] }; let line : BitVec 12 := 5; let n : Nat := line.toNat; let c : Nat := 63; s.pwr.running = true ∧ s.dmaState c ≠ 1 ∧ c < 64 ∧ s.dPace c = 1 ∧ fld (s.dCtl c) 18 12 = n ∧ s.get (F.DMA_STATUS_PREQ c) < 15)) ∧
    ((let s := rdy 33 evs; let c : Nat := 33; let i : Nat := 0; let line : BitVec 12 := 5; c < 1024 ∧ (s.cx c).st ≠ CtxSt.idle ∧ s.unitKept (domQuire (quireOf c)) = true ∧ (s.cx c).findEt line = some i) ∧
     (let s := rdy 33 evs; let c : Nat := 33; let i : Nat := 0; let line : BitVec 12 := 5; let j : Nat := 1; c < 1024 ∧ (s.cx c).st ≠ CtxSt.idle ∧ s.unitKept (domQuire (quireOf c)) = true ∧ (s.cx c).findEt line = some i ∧ j ≠ i) ∧
     (let s := State.reset.setCx 33 { Ctx.reset with st := .wait, et := [(0, ⟨5, true, false, false⟩)] }; let c : Nat := 33; let i : Nat := 0; let line : BitVec 12 := 5; let x : Ctx := s.cx c; let e : EtEntry := x.etAt i; c < 1024 ∧ (s.cx c).st ≠ CtxSt.idle ∧ s.unitKept (domQuire (quireOf c)) = true ∧ (s.cx c).findEt line = some i ∧ x.st = CtxSt.wait ∧ x.word = WordReg.empty ∧ x.waitAll = false ∧ e.w = true ∧ (∀ (d : EtEntry), d ∈ x.entries → d.w = true → d.p = false) ∧ twf (fun x => EtEntry.reset) x.et = true ∧ s.unitOn (domQuire (quireOf c)) = true) ∧
     (let s := State.reset.setCx 33 { Ctx.reset with st := .wait, waitPoll := true, et := [(15, ⟨7, false, true, false⟩)] }; let c : Nat := 33; let i : Nat := 15; let line : BitVec 12 := 7; let x : Ctx := s.cx c; let e : EtEntry := x.etAt i; c < 1024 ∧ (s.cx c).st ≠ CtxSt.idle ∧ s.unitKept (domQuire (quireOf c)) = true ∧ (s.cx c).findEt line = some i ∧ x.st = CtxSt.wait ∧ x.waitPoll = true ∧ x.urg = false ∧ x.waitAll = false ∧ e.w = false ∧ e.u = true ∧ (∀ (d : EtEntry), d ∈ x.entries → d.w = true → d.p = false) ∧ x.mstk.length < 4 ∧ s.unitOn (domQuire (quireOf c)) = true ∧ twf (fun x => EtEntry.reset) x.et = true) ∧
     (let s := (State.reset.setCx 33 { Ctx.reset with st := .wait, et := [(0, ⟨5, true, false, false⟩)] }).setDom 2 2; let c : Nat := 33; let i : Nat := 0; let line : BitVec 12 := 5; let x : Ctx := s.cx c; let e : EtEntry := x.etAt i; c < 1024 ∧ (s.cx c).st ≠ CtxSt.idle ∧ s.unitKept (domQuire (quireOf c)) = true ∧ (s.cx c).findEt line = some i ∧ x.st = CtxSt.wait ∧ x.waitAll = false ∧ e.w = true ∧ (∀ (d : EtEntry), d ∈ x.entries → d.w = true → d.p = false) ∧ x.wantsWake = false ∧ s.domState (domQuire (quireOf c)) = 2 ∧ s.move (domQuire (quireOf c)) = none ∧ s.pwr.running = true ∧ twf (fun x => EtEntry.reset) x.et = true)) :=
  by refine ⟨?_, ?_, ?_, ?_, ?_⟩ <;> decide +kernel

theorem witness_ActionsAndDispatch :
    ((let s := (rdy 0 .reset).put F.BND_CTRL_BLTEN 1; let c : Fin 1024 := 0; s.ctxFree ↑c) ∧
     (let s := (rdy 0 .reset).put F.BND_CTRL_BLTEN 1; let c : Fin 1024 := 0; s.ctxFree ↑c ∧ s.on F.BND_CTRL_BLTEN = true ∧ s.blit.waiting.length < 8 ∧ s.unitKept domBnd = true)) ∧
    (let s := rdy 0 .reset; let c : Fin 1024 := 0; s.ctxFree ↑c ∧ (s.on F.BND_CTRL_BLTEN = false ∨ 8 ≤ s.blit.waiting.length)) ∧
    ((let s := rdy 0 .reset; let c : Fin 1024 := 0; let cls : BitVec 4 := 3; s.ctxFree ↑c ∧ (cls = 2 ∨ cls = 3)) ∧
     (let s := rdy 0 .reset; let c : Fin 1024 := 0; let cls : BitVec 4 := 4; s.ctxFree ↑c ∧ cls ≠ 2 ∧ cls ≠ 3)) ∧
    ((let s := rdy 0 .reset; let c : Fin 1024 := 0; let bsel : BitVec 3 := 1; s.ctxFree ↑c ∧ s.bReady (↑c) bsel) ∧
     (let s := rdy 0 .reset; let c : Fin 1024 := 0; s.ctxFree ↑c)) ∧
    (let s := rdy 0 { Ctx.reset with nxt := some ⟨0, 1, 2, 3⟩ }; let c : Fin 1024 := 0; let d : Decoded := ⟨0, 1, 2, 3⟩; s.ctxFree ↑c ∧ (s.cx ↑c).nxt = some d ∧ isCall d.word = false ∧ isRet d.word = false) :=
  by refine ⟨?_, ?_, ?_, ?_, ?_⟩ <;> decide +kernel

theorem witness_IssueAndCommit :
    (let s := ((State.reset.setCx 33 { Ctx.reset with st := .ready, word := .good 0 }).put (F.QUI_SLOT_KIND 1 63) 1).put (F.QUI_SLOT_CTX 1 63) 1; let q : Nat := 1; let pos : Nat := 63; let kind : Nat → Nat := fun p => s.get (F.QUI_SLOT_KIND q p); let own : Nat := 32 * q + s.get (F.QUI_SLOT_CTX q pos); let takes : Prop := s.readyNow own = true ∧ s.fits q own pos = true; pos < 64 ∧ kind pos = 1 ∧ takes) ∧
    (let s := ((State.reset.setCx 33 { Ctx.reset with st := .ready, word := .good 0 }).put (F.QUI_SLOT_KIND 1 63) 1).put (F.QUI_SLOT_FALL 1 63) 1; let q : Nat := 1; let pos : Nat := 63; let kind : Nat → Nat := fun p => s.get (F.QUI_SLOT_KIND q p); let own : Nat := 32 * q + s.get (F.QUI_SLOT_CTX q pos); let takes : Prop := s.readyNow own = true ∧ s.fits q own pos = true; pos < 64 ∧ kind pos = 1 ∧ ¬takes ∧ s.on (F.QUI_SLOT_FALL q pos) = true) ∧
    (let s := ((State.reset.setCx 33 { Ctx.reset with st := .ready, word := .good 0 }).put (F.QUI_SLOT_KIND 1 63) 1).put (F.QUI_SLOT_FALL 1 63) 1; let q : Nat := 1; let pos : Nat := 63; let c : Nat := 33; let kind : Nat → Nat := fun p => s.get (F.QUI_SLOT_KIND q p); let own : Nat := 32 * q + s.get (F.QUI_SLOT_CTX q pos); let takes : Prop := s.readyNow own = true ∧ s.fits q own pos = true; pos < 64 ∧ kind pos = 1 ∧ ¬takes ∧ s.on (F.QUI_SLOT_FALL q pos) = true ∧ s.chooseCtx q pos = some c) ∧
    (let s := (((State.reset.setCx 33 { Ctx.reset with st := .idle, word := .good 0 }).put (F.QUI_SLOT_KIND 1 63) 1).put (F.QUI_SLOT_FALL 1 63) 0).put (F.QUI_SLOT_CTX 1 63) 1; let q : Nat := 1; let pos : Nat := 63; let kind : Nat → Nat := fun p => s.get (F.QUI_SLOT_KIND q p); let own : Nat := 32 * q + s.get (F.QUI_SLOT_CTX q pos); let takes : Prop := s.readyNow own = true ∧ s.fits q own pos = true; pos < 64 ∧ kind pos = 1 ∧ ¬takes ∧ s.on (F.QUI_SLOT_FALL q pos) = false) ∧
    ((let s := (State.reset.setCx 33 { Ctx.reset with st := .ready, word := .good 0 }).put (F.CTX_CTXCFG_POLLLIM 33) 5; let q : Nat := 1; let pos : Nat := 63; let kind : Nat → Nat := fun p => s.get (F.QUI_SLOT_KIND q p); pos < 64 ∧ (kind pos = 0 ∨ kind pos = 3)) ∧
     (let s := (State.reset.setCx 33 { Ctx.reset with st := .ready, word := .good 0 }).put (F.CTX_CTXCFG_POLLLIM 33) 5; let q : Nat := 1; let pos : Nat := 63; let c : Nat := 33; let kind : Nat → Nat := fun p => s.get (F.QUI_SLOT_KIND q p); pos < 64 ∧ (kind pos = 0 ∨ kind pos = 3) ∧ s.chooseCtx q pos = some c) ∧
     (let pos : Nat := 63; pos < 64) ∧
     (let s := (State.reset.setCx 33 { Ctx.reset with st := .ready, word := .good 0 }).put (F.CTX_CTXCFG_POLLLIM 33) 5; let pos : Nat := 63; let c : Nat := 33; let w : Micro := 0; pos < 64 ∧ (s.cx c).word = WordReg.good w) ∧
     (let s := (State.reset.setCx 33 { Ctx.reset with st := .ready, word := .good 0 }).put (F.QUI_SLOT_KIND 1 63) 2; let q : Nat := 1; let pos : Nat := 63; let kind : Nat → Nat := fun p => s.get (F.QUI_SLOT_KIND q p); pos < 64 ∧ kind pos = 2)) ∧
    ((let s := State.reset; let q : Fin 32 := 31; s.unitOn (domQuire q) = true ∧ s.chooseCtx q (s.qu q).slotPos = none) ∧
     (let s := rdy 33 { Ctx.reset with word := .good 0 }; let q : Fin 32 := 1; let c : Fin 1024 := 33; let w : Micro := 0; s.unitOn (domQuire q) = true ∧ s.chooseCtx q (s.qu q).slotPos = some c.val ∧ s.ctxFree c ∧ (s.cx c).word = .good w ∧ mPoll w = false ∧ mSeq w ≠ 7 ∧ s.overflows c (.good w) = none ∧ s.divTraps c w (s.operandB c w) = false) ∧
     (let s := (pw 0 4 (stk 4)).setQu 1 { Quire.reset with slotPos := 63 }; let q : Fin 32 := 1; let c : Nat := 33; let w : Micro := mwd [(164, 1, 0), (188, 4, 4), (167, 14, 77), (160, 4, 3), (181, 1, 1)]; s.unitOn (domQuire q) = true ∧ s.chooseCtx q (s.qu q).slotPos = some c ∧ s.ctxFree c ∧ (s.cx c).word = .good w ∧ mPoll w = false ∧ mSeq w ≠ 7 ∧ s.overflows c (.good w) = none ∧ s.divTraps c w (s.operandB c w) = false)) ∧
    ((let s := State.reset.setCx 0 { Ctx.reset with st := .run, inflight := some ⟨0, .good 0, 0, 0, true, none, true, 1, none, [], false, false, none, false⟩ }; let c : Fin 1024 := 0; let w : Micro := 0; let i : Issued := ⟨0, .good 0, 0, 0, true, none, true, 1, none, [], false, false, none, false⟩; s.unitOn (domQuire (quireOf ↑c)) = true ∧ (s.cx ↑c).st = CtxSt.run ∧ (s.cx ↑c).inflight = some i ∧ (s.cx ↑c).word = WordReg.empty ∧ (s.cx ↑c).pend9 = none ∧ (s.cx ↑c).hold = none ∧ i.word = WordReg.good w ∧ i.guardOk = true ∧ i.handover = false ∧ i.psetVal = none ∧ i.popped = false ∧ i.underflow = false ∧ mSeq w ≤ 1 ∧ mMduop w = 0 ∧ mMemop w = 0 ∧ mAmod w = 0 ∧ mQop w = 0 ∧ mEvop w = 0 ∧ mXop w = 0 ∧ mLcop w = 0 ∧ encReserved w = false ∧ opRefused w i.b = false ∧ i.divert = none ∧ i.pushes = []) ∧
     (let s := State.reset.setCx 0 { evs with st := .run, inflight := some ⟨0, .good 0, 0, 0, true, none, true, 1, none, [⟨5, true, none⟩], false, false, some 7, false⟩ }; let c : Fin 1024 := 0; let w : Micro := 0; let i : Issued := ⟨0, .good 0, 0, 0, true, none, true, 1, none, [⟨5, true, none⟩], false, false, some 7, false⟩; let x : Ctx := s.cx ↑c; let ev : BitVec 12 := 7; let e : MEntry := { addr := 5, urgent := true, cont := none }; s.unitOn (domQuire (quireOf ↑c)) = true ∧ (s.cx ↑c).st = CtxSt.run ∧ (s.cx ↑c).inflight = some i ∧ (s.cx ↑c).word = WordReg.empty ∧ (s.cx ↑c).pend9 = none ∧ (s.cx ↑c).hold = none ∧ i.word = WordReg.good w ∧ i.guardOk = true ∧ i.handover = false ∧ i.psetVal = none ∧ i.popped = false ∧ i.underflow = false ∧ mSeq w ≤ 1 ∧ mMduop w = 0 ∧ mMemop w = 0 ∧ mAmod w = 0 ∧ mQop w = 0 ∧ mEvop w = 0 ∧ mXop w = 0 ∧ mLcop w = 0 ∧ encReserved w = false ∧ opRefused w i.b = false ∧ i.divert = some ev ∧ i.pushes = [e] ∧ x.mstk.length < 4 ∧ x.urgentMet = true)) ∧
    ((let s := stl 0 .reset; let c : Fin 1024 := 0; (s.cx ↑c).st = CtxSt.stall ∧ s.unitOn (domQuire (quireOf ↑c)) = true ∧ s.stalled ↑c = true) ∧
     (let s := stl 0 { Ctx.reset with word := .good 0 }; let c : Fin 1024 := 0; let w : Micro := 0; (s.cx ↑c).st = CtxSt.stall ∧ s.unitOn (domQuire (quireOf ↑c)) = true ∧ s.stalled ↑c = false ∧ (s.cx ↑c).word = WordReg.good w) ∧
     (let s := stl 0 { Ctx.reset with word := .bad 3 false }; let c : Fin 1024 := 0; let syn : BitVec 16 := 3; let rel : Bool := false; (s.cx ↑c).st = CtxSt.stall ∧ s.unitOn (domQuire (quireOf ↑c)) = true ∧ s.stalled ↑c = false ∧ (s.cx ↑c).word = WordReg.bad syn rel)) ∧
    ((let s := pw 1 1 evs; let q : Fin 32 := 1; let c : Nat := 33; let w : Micro := mwd [(164, 1, 1), (188, 4, 1), (167, 14, 77), (160, 4, 3), (181, 1, 1)]; let x : Ctx := s.cx c; s.unitOn (domQuire ↑q) = true ∧ s.chooseCtx (↑q) (s.qu ↑q).slotPos = some c ∧ (s.cx c).word = WordReg.good w ∧ (s.cx c).st = CtxSt.ready ∧ (s.cx c).inflight = none ∧ (s.cx c).hold = none ∧ (s.cx c).pend9 = none ∧ (s.cx c).stopPend = false ∧ mSeq w ≤ 1 ∧ (s.cx c).mstk.length < 4 ∧ s.divTraps c w (s.operandB c w) = false ∧ mPoll w = true ∧ x.urgentMet = true ∧ x.urg = false) ∧
     (let s := pw 1 0 .reset; let q : Fin 32 := 1; let c : Nat := 33; let w : Micro := mwd [(164, 1, 1), (188, 4, 0), (167, 14, 77), (160, 4, 3), (181, 1, 1)]; let x : Ctx := s.cx c; s.unitOn (domQuire ↑q) = true ∧ s.chooseCtx (↑q) (s.qu ↑q).slotPos = some c ∧ (s.cx c).word = WordReg.good w ∧ (s.cx c).st = CtxSt.ready ∧ (s.cx c).inflight = none ∧ (s.cx c).hold = none ∧ (s.cx c).pend9 = none ∧ (s.cx c).stopPend = false ∧ mSeq w ≤ 1 ∧ (s.cx c).mstk.length < 4 ∧ s.divTraps c w (s.operandB c w) = false ∧ mPoll w = true ∧ (x.urgentMet = false ∨ x.urg = true)) ∧
     (let s := recs (pw 0 1 { Ctx.reset with pollcnt := 5 }) 0x1A; let q : Fin 32 := 1; let c : Nat := 33; let w : Micro := mwd [(164, 1, 0), (188, 4, 1), (167, 14, 77), (160, 4, 3), (181, 1, 1)]; let x : Ctx := s.cx c; s.unitOn (domQuire ↑q) = true ∧ s.chooseCtx (↑q) (s.qu ↑q).slotPos = some c ∧ (s.cx c).word = WordReg.good w ∧ (s.cx c).st = CtxSt.ready ∧ (s.cx c).inflight = none ∧ (s.cx c).hold = none ∧ (s.cx c).pend9 = none ∧ (s.cx c).stopPend = false ∧ mSeq w ≤ 1 ∧ (s.cx c).mstk.length < 4 ∧ s.divTraps c w (s.operandB c w) = false ∧ mPoll w = false ∧ x.pollcnt = s.get (F.CTX_CTXCFG_POLLLIM c) ∧ s.opt c 7 = false ∧ x.starved = false) ∧
     (let s := recs ((pw 0 1 { Ctx.reset with pollcnt := 5 }).put (F.CTX_CTXCFG_STPOLL 33) 1) 0x17; let q : Fin 32 := 1; let c : Nat := 33; let w : Micro := mwd [(164, 1, 0), (188, 4, 1), (167, 14, 77), (160, 4, 3), (181, 1, 1)]; let x : Ctx := s.cx c; s.unitOn (domQuire ↑q) = true ∧ s.chooseCtx (↑q) (s.qu ↑q).slotPos = some c ∧ (s.cx c).word = WordReg.good w ∧ (s.cx c).st = CtxSt.ready ∧ (s.cx c).inflight = none ∧ (s.cx c).hold = none ∧ (s.cx c).pend9 = none ∧ (s.cx c).stopPend = false ∧ mSeq w ≤ 1 ∧ (s.cx c).mstk.length < 4 ∧ s.divTraps c w (s.operandB c w) = false ∧ mPoll w = false ∧ x.pollcnt = s.get (F.CTX_CTXCFG_POLLLIM c) ∧ s.opt c 7 = true)) :=
  by refine ⟨?_, ?_, ?_, ?_, ?_, ?_, ?_, ?_, ?_⟩ <;> decide +kernel

theorem witness_ControlStoreCodeCorrectsOne :
    (let i : Nat := 207; i < 208) :=
  by decide +kernel

theorem witness_ControlStoreCodeCorrectsTwo :
    (let i : Nat := 206; let j : Nat := 207; i < j ∧ j < 208) :=
  by decide +kernel

theorem witness_FetchAndDecode :
    ((let s := State.reset.setCx 0 { Ctx.reset with st := .ready, maddr := 0x1000 }; let c : Fin 1024 := 0; let q : Nat := quireOf ↑c; let a : Nat := (s.cx ↑c).fetchAddr.toNat; let v : Stored := 0#208; let fixed : Bool := false; (s.cx ↑c).word = WordReg.empty ∧ (s.cx ↑c).st ≠ CtxSt.idle ∧ (s.cx ↑c).st ≠ CtxSt.faulted ∧ s.unitOn (domQuire (quireOf ↑c)) = true ∧ s.folioBusy (quireOf ↑c) (s.cx ↑c).fetchAddr = false ∧ (s.cx ↑c).fetchRoutine = none ∧ bchDecode (s.storeWord q a) = some (v, fixed)) ∧
     (let s := (State.reset.setCx 0 { Ctx.reset with st := .ready, maddr := 0x3FFF }).setStore 0 0x3FFF 0x123456; let c : Fin 1024 := 0; let q : Nat := quireOf ↑c; let a : Nat := (s.cx ↑c).fetchAddr.toNat; (s.cx ↑c).word = WordReg.empty ∧ (s.cx ↑c).st ≠ CtxSt.idle ∧ (s.cx ↑c).st ≠ CtxSt.faulted ∧ s.unitOn (domQuire (quireOf ↑c)) = true ∧ s.folioBusy (quireOf ↑c) (s.cx ↑c).fetchAddr = false ∧ (s.cx ↑c).fetchRoutine = none ∧ bchDecode (s.storeWord q a) = none)) ∧
    (let s := (rdy 0 { Ctx.reset with lines := [⟨0, 0, false⟩] }).setQu 0 { Quire.reset with dq := [0] }; let c : Fin 1024 := 0; let d : Decoded := d0; s.unitOn (domQuire (quireOf ↑c)) = true ∧ s.decodeHead (quireOf ↑c) = some c.val ∧ decodeAt (s.cx ↑c).lines (s.get (F.CTX_OPC_OPC ↑c)) s.free.fst = Decode.done d) ∧
    ((let s := (rdy 0 .reset).setQu 0 { Quire.reset with dq := [0] }; let c : Fin 1024 := 0; let i : Nat := 0; let q : Nat := quireOf ↑c; let line : Nat := (s.get (F.CTX_OPC_OPC ↑c) + i) % 2 ^ 32 / 16; s.unitOn (domQuire (quireOf ↑c)) = true ∧ s.decodeHead (quireOf ↑c) = some c.val ∧ decodeAt (s.cx ↑c).lines (s.get (F.CTX_OPC_OPC ↑c)) 0 = Decode.missing i ∧ inSpace (16 * line) = true ∧ s.portAGate (bankOf (16 * line)) q = PortAGate.refused) ∧
     (let s := ((rdy 0 .reset).setQu 0 { Quire.reset with dq := [0] }).put (F.BNK_OWN_OWNER 0) 0; let c : Fin 1024 := 0; let i : Nat := 0; let q : Nat := quireOf ↑c; let line : Nat := (s.get (F.CTX_OPC_OPC ↑c) + i) % 2 ^ 32 / 16; s.unitOn (domQuire (quireOf ↑c)) = true ∧ s.decodeHead (quireOf ↑c) = some c.val ∧ decodeAt (s.cx ↑c).lines (s.get (F.CTX_OPC_OPC ↑c)) 0 = Decode.missing i ∧ inSpace (16 * line) = true ∧ s.portAGate (bankOf (16 * line)) q = PortAGate.accepted) ∧
     (let s := ((rdy 0 .reset).setQu 0 { Quire.reset with dq := [0] }).put (F.CTX_OPC_OPC 0) 0x2000000; let c : Fin 1024 := 0; let i : Nat := 0; let line : Nat := (s.get (F.CTX_OPC_OPC ↑c) + i) % 2 ^ 32 / 16; s.unitOn (domQuire (quireOf ↑c)) = true ∧ s.decodeHead (quireOf ↑c) = some c.val ∧ decodeAt (s.cx ↑c).lines (s.get (F.CTX_OPC_OPC ↑c)) 0 = Decode.missing i ∧ inSpace (16 * line) = false) ∧
     (let s := ((rdy 0 .reset).setQu 0 { Quire.reset with dq := [0] }).setDom (domBank 0) 1; let c : Fin 1024 := 0; let i : Nat := 0; let q : Nat := quireOf ↑c; let line : Nat := (s.get (F.CTX_OPC_OPC ↑c) + i) % 2 ^ 32 / 16; s.unitOn (domQuire (quireOf ↑c)) = true ∧ s.decodeHead (quireOf ↑c) = some c.val ∧ decodeAt (s.cx ↑c).lines (s.get (F.CTX_OPC_OPC ↑c)) 0 = Decode.missing i ∧ inSpace (16 * line) = true ∧ s.portAGate (bankOf (16 * line)) q = PortAGate.held)) ∧
    (let pre := [0xF0, 0xEF]; let esc := true; let op := 2; let tl := [0x80, 1, 2, 3, 0xFF]; let lines : List FetchLine := [⟨0x100, 0xFF03020180_02F8EFF0, false⟩]; let pc := 0x1000; let bytes : Nat → Nat := fun i => (pre ++ (if esc then [0xF8] else []) ++ op :: tl).getD i 0 % 256; (∀ i, bytes i < 256) ∧ (∀ b ∈ pre, 0xE0 ≤ b ∧ b ≤ 0xF4) ∧ op < 256 ∧ (esc = false → op < 0xE0 ∨ 0xF5 ≤ op ∧ op ≠ 0xF8) ∧ (∀ i, i < pre.length → pre[i]? = some (bytes i)) ∧ bytes (pre.length + if esc = true then 1 else 0) = op ∧ (∀ i, i < 9 → lineByte lines pc i = some (some (bytes i)))) ∧
    (let pre := List.replicate 12 0xF0; let esc := false; let op := 0x70; let tl := [0]; let lines : List FetchLine := [⟨0x100, 0x70F0F0F0F0F0F0F0F0F0F0F0F0, false⟩]; let pc := 0x1000; let bytes : Nat → Nat := fun i => (pre ++ (if esc then [0xF8] else []) ++ op :: tl).getD i 0 % 256; (∀ i, bytes i < 256) ∧ (∀ b ∈ pre, 0xE0 ≤ b ∧ b ≤ 0xF4) ∧ op < 256 ∧ (esc = false → op < 0xE0 ∨ 0xF5 ≤ op ∧ op ≠ 0xF8) ∧ (∀ i, i < pre.length → pre[i]? = some (bytes i)) ∧ bytes (pre.length + if esc = true then 1 else 0) = op ∧ (∀ i, i < 14 → lineByte lines pc i = some (some (bytes i)))) ∧
    (let pre := [0xF0]; let esc := false; let op := 0x70; let tl := [1, 2]; let lines : List FetchLine := [⟨0x100, 0x020170F0000000000000000000000000, false⟩, ⟨0x101, 0, true⟩]; let pc := 0x100C; let bytes : Nat → Nat := fun i => (pre ++ (if esc then [0xF8] else []) ++ op :: tl).getD i 0 % 256; (∀ i, bytes i < 256) ∧ (∀ b ∈ pre, 0xE0 ≤ b ∧ b ≤ 0xF4) ∧ op < 256 ∧ (esc = false → op < 0xE0 ∨ 0xF5 ≤ op ∧ op ≠ 0xF8) ∧ (∀ i, i < pre.length → pre[i]? = some (bytes i)) ∧ bytes (pre.length + if esc = true then 1 else 0) = op ∧ (∀ i, i < 4 → lineByte lines pc i = some (some (bytes i))) ∧ lineByte lines pc 4 = some none) ∧
    (let pre := [0xF0]; let esc := false; let op := 0x70; let tl := [1, 2]; let lines : List FetchLine := [⟨0x100, 0x020170F0000000000000000000000000, false⟩]; let pc := 0x100C; let bytes : Nat → Nat := fun i => (pre ++ (if esc then [0xF8] else []) ++ op :: tl).getD i 0 % 256; (∀ i, bytes i < 256) ∧ (∀ b ∈ pre, 0xE0 ≤ b ∧ b ≤ 0xF4) ∧ op < 256 ∧ (esc = false → op < 0xE0 ∨ 0xF5 ≤ op ∧ op ≠ 0xF8) ∧ (∀ i, i < pre.length → pre[i]? = some (bytes i)) ∧ bytes (pre.length + if esc = true then 1 else 0) = op ∧ (∀ i, i < 4 → lineByte lines pc i = some (some (bytes i))) ∧ lineByte lines pc 4 = none) :=
  by
    refine ⟨?_, ?_, ?_, ⟨fun i => Nat.mod_lt _ (by decide), by decide +kernel⟩, ⟨fun i => Nat.mod_lt _ (by decide), by decide +kernel⟩, ⟨fun i => Nat.mod_lt _ (by decide), by decide +kernel⟩, ⟨fun i => Nat.mod_lt _ (by decide), by decide +kernel⟩⟩ <;> decide +kernel

theorem witness_ContextCommands :
    ((let s := State.reset; let c : Fin 1024 := 1023; s.pageUp (domQuire (quireOf ↑c)) = true ∧ (s.cx ↑c).st = CtxSt.idle) ∧
     (let s := rdy 1023 .reset; let c : Fin 1024 := 1023; s.pageUp (domQuire (quireOf ↑c)) = true ∧ (s.cx ↑c).st ≠ CtxSt.idle)) ∧
    ((let s := State.reset.setCx 0 { Ctx.reset with st := .parked }; let c : Fin 1024 := 0; let x : Ctx := s.cx ↑c; s.pageUp (domQuire (quireOf ↑c)) = true ∧ (x.st = CtxSt.parked ∨ x.st = CtxSt.faulted)) ∧
     (let s := State.reset.setCx 0 { Ctx.reset with st := .parked }; let c : Fin 1024 := 0; let x : Ctx := s.cx ↑c; s.pageUp (domQuire (quireOf ↑c)) = true ∧ x.st ≠ CtxSt.run ∧ x.st ≠ CtxSt.idle) ∧
     (let s := State.reset.setCx 0 { Ctx.reset with st := .run }; let c : Fin 1024 := 0; let x : Ctx := s.cx ↑c; s.pageUp (domQuire (quireOf ↑c)) = true ∧ x.st ≠ CtxSt.parked ∧ x.st ≠ CtxSt.faulted) ∧
     (let s := State.reset.setCx 0 { Ctx.reset with st := .run }; let c : Fin 1024 := 0; let x : Ctx := s.cx ↑c; s.pageUp (domQuire (quireOf ↑c)) = true ∧ x.st = CtxSt.run) ∧
     (let s := State.reset; let c : Fin 1024 := 0; let x : Ctx := s.cx ↑c; s.pageUp (domQuire (quireOf ↑c)) = true ∧ x.st = CtxSt.idle)) ∧
    ((let s := State.reset; let c : Fin 1024 := 0; s.pageUp (domQuire (quireOf ↑c)) = true ∧ s.ctxWritable ↑c = true) ∧
     (let s := rdy 0 .reset; let c : Fin 1024 := 0; s.pageUp (domQuire (quireOf ↑c)) = true ∧ s.ctxWritable ↑c = false)) :=
  by refine ⟨?_, ?_, ?_⟩ <;> decide +kernel

theorem witness_ControlStoreLoading :
    ((let s := State.reset; let q : Fin 32 := 31; s.unitOn (domQuire ↑q) = true ∧ (s.qu ↑q).wback = []) ∧
     (let s := State.reset; let q : Fin 32 := 31; s.unitOn (domQuire ↑q) = true ∧ s.on (F.CST_CTRL_SCEN ↑q) = false) ∧
     (let s := State.reset.setQu 31 { Quire.reset with wback := [(0x1000, 5)] }; let q : Fin 32 := 31; let b : Nat := 4096; let w : Stored := 5; let rest : List (Nat × Stored) := []; s.unitOn (domQuire ↑q) = true ∧ (s.qu ↑q).wback = (b, w) :: rest ∧ 4096 ≤ b ∧ b < 16384) ∧
     (let s := (State.reset.put (F.CST_CTRL_SCEN 31) 1).put (F.CST_SCRUB_POS 31) 0x3FFF; let q : Fin 32 := 31; let a : Nat := s.get (F.CST_SCRUB_POS ↑q); s.unitOn (domQuire ↑q) = true ∧ s.on (F.CST_CTRL_SCEN ↑q) = true ∧ s.folioBusy (↑q) (BitVec.ofNat 14 a) = false ∧ bchSyndrome (s.storeWord (↑q) a) = 0) ∧
     (let s := (((State.reset.setReg (R.CST_SCRUB 0) 0).put (F.CST_CTRL_SCEN 0) 1).put (F.CST_SCRUB_POS 0) 0x1000).setStore 0 0x1000 4; let q : Fin 32 := 0; let a : Nat := s.get (F.CST_SCRUB_POS ↑q); let v : Stored := 0#208; s.unitOn (domQuire ↑q) = true ∧ s.on (F.CST_CTRL_SCEN ↑q) = true ∧ s.folioBusy (↑q) (BitVec.ofNat 14 a) = false ∧ bchDecode (s.storeWord (↑q) a) = some (v, true) ∧ 4096 ≤ a ∧ (s.qu ↑q).wback = [])) ∧
    (let s := State.reset.put (F.CST_ADDR_ADDR 31) 0x3FFF; let q : Fin 32 := 31; s.pageUp (domQuire ↑q) = true) ∧
    ((let s := State.reset; let q : Fin 32 := 31; s.unitOn (domQuire q) = true ∧ (s.qu q).load = none ∧ (s.qu q).reload = none) ∧
     (let s := (State.reset.put (F.CST_IMG_FIRST 0) 8).put (F.CST_IMG_NFOL 0) 24; (s.qu 0).load = none ∧ (s.qu 0).reload = none ∧ s.on (F.CST_LOCK_CS 0) = false ∧ 8 ≤ s.get (F.CST_IMG_FIRST 0) ∧ 1 ≤ s.get (F.CST_IMG_NFOL 0) ∧ s.get (F.CST_IMG_FIRST 0) + s.get (F.CST_IMG_NFOL 0) ≤ 32) ∧
     (let s := (State.reset.put (F.BNK_OWN_OWNER 0) 0).setQu 0 { Quire.reset with load := some ⟨8, 9, 0, 8⟩, reload := some ⟨8, 8, 0, 8⟩ }; (s.qu 0).load = some ⟨8, 9, 0, 8⟩ ∧ (s.qu 0).reload = some ⟨8, 8, 0, 8⟩ ∧ (s.copyWords 0 8 0 8 512).1 = .done ∧ (s.qu 0).reloadReq = [])) :=
  by refine ⟨?_, ?_, ?_⟩ <;> decide +kernel

theorem witness_BankWords :
    ((let i : Nat := 0; i < 72) ∧
     (let i : Nat := 0; let j : Nat := 1; i < j ∧ j < 72)) ∧
    ((let w : Nat := 4194303; let u : Nat := 0; u ≠ w) ∧
     (let i : Nat := 0; i < 8) ∧
     (let s := State.reset; Memory.wf s.mem = true) ∧
     (let s := State.reset; Memory.wf s.chk = true)) :=
  by refine ⟨?_, ?_⟩ <;> decide +kernel

theorem witness_PortAAccesses :
    (let s := (asks 127 0 (opQ 1 0x1FFFFF8 false)).setDom (domBank 127) 1; let c : Fin 1024 := 0; let op : BankOp := opQ 1 0x1FFFFF8 false; let rest : List BankOp := .nil; let q : Nat := quireOf ↑c; let n : Nat := bankOf op.addr.toNat; let kept : Prop := s.unitOn (domBank n) = false ∨ s.get (F.BNK_OWN_OWNER n) = q ∧ s.on (F.BNK_OWN_PEND n) = true; (s.cx ↑c).ops = op :: rest ∧ op.phase = BankPhase.requested ∧ (s.cx ↑c).hold = none ∧ s.unitOn (domQuire (quireOf ↑c)) = true ∧ op.addr.toNat < 2 ^ 25 ∧ kept ∧ ∀ (o : BankOp), o ∈ rest → o.phase ≠ BankPhase.requested) ∧
    (let s := ((asks 127 0 (opQ 1 0x1FFFFF8 false)).put (F.BNK_OWN_PEND 127) 1).put (F.BNK_OWN_OWNER 0) 0 |> (·.setCx 0 { Ctx.reset with st := .stall, ops := [opQ 1 0x1FFFFF8 false, opQ 7 3 false] }); let c : Fin 1024 := 0; let op : BankOp := opQ 1 0x1FFFFF8 false; let rest : List BankOp := [opQ 7 3 false]; let q : Nat := quireOf ↑c; let n : Nat := bankOf op.addr.toNat; let kept : Prop := s.unitOn (domBank n) = false ∨ s.get (F.BNK_OWN_OWNER n) = q ∧ s.on (F.BNK_OWN_PEND n) = true; let takes : Nat → Prop := fun n => s.unitOn (domBank n) = true ∧ s.get (F.BNK_OWN_OWNER n) = q ∧ s.on (F.BNK_OWN_PEND n) = false; let o : BankOp := opQ 7 3 false; let more : List BankOp := .nil; (s.cx ↑c).ops = op :: rest ∧ op.phase = BankPhase.requested ∧ (s.cx ↑c).hold = none ∧ s.unitOn (domQuire (quireOf ↑c)) = true ∧ op.addr.toNat < 2 ^ 25 ∧ kept ∧ rest = o :: more ∧ o ≠ op ∧ o.phase = BankPhase.requested ∧ 1 ≤ o.memop.toNat ∧ o.memop.toNat ≤ 7 ∧ o.addr.toNat < 2 ^ 25 ∧ takes (bankOf o.addr.toNat) ∧ secSyndrome (s.portAWord (o.addr.toNat / 8)) = 0) ∧
    ((let s := asks 127 0 (opQ 7 0x1FFFFFF true); let c : Fin 1024 := 0; let op : BankOp := opQ 7 0x1FFFFFF true; let rest : List BankOp := .nil; let q : Nat := quireOf ↑c; let n : Nat := bankOf op.addr.toNat; let w : Nat := op.addr.toNat / 8; let takes : Nat → Prop := fun n => s.unitOn (domBank n) = true ∧ s.get (F.BNK_OWN_OWNER n) = q ∧ s.on (F.BNK_OWN_PEND n) = false; (s.cx ↑c).ops = op :: rest ∧ op.phase = BankPhase.requested ∧ (s.cx ↑c).hold = none ∧ s.unitOn (domQuire (quireOf ↑c)) = true ∧ op.addr.toNat < 2 ^ 25 ∧ takes n ∧ 1 ≤ op.memop.toNat ∧ op.memop.toNat ≤ 7 ∧ secSyndrome (s.portAWord w) = 0) ∧
     (let s := asks 127 0 (opQ 8 0x1FFFFF8 false); let c : Fin 1024 := 0; let op : BankOp := opQ 8 0x1FFFFF8 false; let rest : List BankOp := .nil; let q : Nat := quireOf ↑c; let n : Nat := bankOf op.addr.toNat; let takes : Nat → Prop := fun n => s.unitOn (domBank n) = true ∧ s.get (F.BNK_OWN_OWNER n) = q ∧ s.on (F.BNK_OWN_PEND n) = false; (s.cx ↑c).ops = op :: rest ∧ op.phase = BankPhase.requested ∧ (s.cx ↑c).hold = none ∧ s.unitOn (domQuire (quireOf ↑c)) = true ∧ op.addr.toNat < 2 ^ 25 ∧ takes n ∧ op.memop = 8 ∧ op.addr.toNat % 8 = 0) ∧
     (let s := asks 127 0 (opQ 9 0x1FFFFFC false); let c : Fin 1024 := 0; let op : BankOp := opQ 9 0x1FFFFFC false; let rest : List BankOp := .nil; let q : Nat := quireOf ↑c; let n : Nat := bankOf op.addr.toNat; let w : Nat := op.addr.toNat / 8; let takes : Nat → Prop := fun n => s.unitOn (domBank n) = true ∧ s.get (F.BNK_OWN_OWNER n) = q ∧ s.on (F.BNK_OWN_PEND n) = false; (s.cx ↑c).ops = op :: rest ∧ op.phase = BankPhase.requested ∧ (s.cx ↑c).hold = none ∧ s.unitOn (domQuire (quireOf ↑c)) = true ∧ op.addr.toNat < 2 ^ 25 ∧ takes n ∧ 9 ≤ op.memop.toNat ∧ op.memop.toNat ≤ 11 ∧ op.addr.toNat % memSize op.memop.toNat = 0 ∧ secSyndrome (s.portAWord w) = 0)) ∧
    ((let s := asks 0 0 (opQ 12 8 false); let c : Fin 1024 := 0; let op : BankOp := opQ 12 8 false; let rest : List BankOp := .nil; let w : Nat := op.addr.toNat / 8; let v : BitVec 72 := s.portAWord w; let n : Nat := bankOf op.addr.toNat; (s.cx ↑c).ops = op :: rest ∧ (op.memop = 12 ∨ op.memop = 13) ∧ op.addr.toNat % 8 = 0 ∧ (s.cx ↑c).hold = none ∧ s.unitOn (domQuire (quireOf ↑c)) = true ∧ op.addr.toNat < 2 ^ 25 ∧ op.phase = BankPhase.requested ∧ s.portAGate n (quireOf ↑c) = PortAGate.accepted ∧ secSyndrome v = 0) ∧
     (let s := (asks 0 0 (opQ 12 8 false)).setArrWord 1 3; let c : Fin 1024 := 0; let op : BankOp := opQ 12 8 false; let rest : List BankOp := .nil; let w : Nat := op.addr.toNat / 8; let v : BitVec 72 := s.portAWord w; let n : Nat := bankOf op.addr.toNat; (s.cx ↑c).ops = op :: rest ∧ (op.memop = 12 ∨ op.memop = 13) ∧ op.addr.toNat % 8 = 0 ∧ (s.cx ↑c).hold = none ∧ s.unitOn (domQuire (quireOf ↑c)) = true ∧ op.addr.toNat < 2 ^ 25 ∧ op.phase = BankPhase.requested ∧ s.portAGate n (quireOf ↑c) = PortAGate.accepted ∧ (secDecode (BitVec.setWidth 64 v) (secSyndrome v)).snd = SecOut.poisoned ∧ op.memop = 12) ∧
     (let s := State.reset.setCx 0 { Ctx.reset with ops := [{ opQ 12 8 false with phase := .delivered (0 - 0x1122334455667788) 0 }] }; let c : Fin 1024 := 0; let op : BankOp := { opQ 12 8 false with phase := .delivered (0 - 0x1122334455667788) 0 }; let rest : List BankOp := .nil; let d : Word := 0 - 0x1122334455667788; (s.cx ↑c).ops = op :: rest ∧ (op.memop = 12 ∨ op.memop = 13) ∧ op.addr.toNat % 8 = 0 ∧ (s.cx ↑c).hold = none ∧ s.unitOn (domQuire (quireOf ↑c)) = true ∧ op.addr.toNat < 2 ^ 25 ∧ op.phase = BankPhase.delivered d 0 ∧ s.pwr.running = true)) ∧
    ((let s := State.reset.setBk 127 { Bank.reset with wsteps := [⟨4194303, 5, 255, none, 0, false, none, none⟩] }; let n : Fin 128 := 127; let p : WStep := ⟨4194303, 5, 255, none, 0, false, none, none⟩; let rest : List WStep := .nil; s.unitOn (domBank ↑n) = true ∧ (s.bk ↑n).wsteps = p :: rest ∧ p.word / 32768 = ↑n ∧ (s.bk ↑n).march = none ∧ p.drop = none ∧ p.mask ≠ 0 ∧ s.on (F.BNK_INJ_ARM ↑n) = false) ∧
     (let s := recs (State.reset.setBk 127 { Bank.reset with wsteps := [⟨4194303, 5, 255, some 9, 0, false, none, none⟩] }) 0x32; let n : Fin 128 := 127; let p : WStep := ⟨4194303, 5, 255, some 9, 0, false, none, none⟩; let rest : List WStep := .nil; let syn : BitVec 8 := 9; s.unitOn (domBank ↑n) = true ∧ (s.bk ↑n).wsteps = p :: rest ∧ p.word / 32768 = ↑n ∧ (s.bk ↑n).march = none ∧ p.drop = some syn)) ∧
    ((let s := State.reset.setCx 0 { Ctx.reset with ops := [{ opQ 7 3 false with phase := .delivered 0xFF00000000 0 }] }; let c : Fin 1024 := 0; let op : BankOp := { opQ 7 3 false with phase := .delivered 0xFF00000000 0 }; let rest : List BankOp := .nil; let w : Word := 0xFF00000000; let syn : BitVec 8 := 0; s.pwr.running = true ∧ (s.cx ↑c).ops = op :: rest ∧ op.phase = BankPhase.delivered w syn ∧ 1 ≤ op.memop.toNat ∧ op.memop.toNat ≤ 7 ∧ syn = 0) ∧
     (let s := State.reset.setCx 0 { Ctx.reset with ops := [{ opQ 7 3 false with phase := .delivered 0xFF00000000 0 }] }; let c : Fin 1024 := 0; let op : BankOp := { opQ 7 3 false with phase := .delivered 0xFF00000000 0 }; let rest : List BankOp := .nil; let w : Word := 0xFF00000000; let syn : BitVec 8 := 0; s.pwr.running = true ∧ (s.cx ↑c).ops = op :: rest ∧ op.phase = BankPhase.delivered w syn ∧ 1 ≤ op.memop.toNat ∧ op.memop.toNat ≤ 7) ∧
     (let s := State.reset.setCx 0 { Ctx.reset with ops := [{ opQ 1 8 false with phase := .delivered 1 (secSyndrome 1) }] }; let c : Fin 1024 := 0; let op : BankOp := { opQ 1 8 false with phase := .delivered 1 (secSyndrome 1) }; let rest : List BankOp := .nil; let w : Word := 1; let syn : BitVec 8 := secSyndrome 1; let d : Word := 0; s.pwr.running = true ∧ (s.cx ↑c).ops = op :: rest ∧ op.phase = BankPhase.delivered w syn ∧ 1 ≤ op.memop.toNat ∧ op.memop.toNat ≤ 7 ∧ op.addr.toNat < 2 ^ 25 ∧ secDecode w syn = (d, SecOut.corrected)) ∧
     (let s := recs (State.reset.setCx 0 { Ctx.reset with ops := [{ opQ 1 8 false with phase := .delivered 3 (secSyndrome 3) }] }) 0x31; let c : Fin 1024 := 0; let op : BankOp := { opQ 1 8 false with phase := .delivered 3 (secSyndrome 3) }; let rest : List BankOp := .nil; let w : Word := 3; let syn : BitVec 8 := secSyndrome 3; s.pwr.running = true ∧ (s.cx ↑c).ops = op :: rest ∧ op.phase = BankPhase.delivered w syn ∧ 1 ≤ op.memop.toNat ∧ op.memop.toNat ≤ 7 ∧ op.addr.toNat < 2 ^ 25 ∧ (secDecode w syn).snd = SecOut.poisoned)) ∧
    ((let s := recs (asks 127 1 (opQ 1 0x1FFFFF8 false)) 0x30; let c : Fin 1024 := 0; let op : BankOp := opQ 1 0x1FFFFF8 false; let rest : List BankOp := .nil; let q : Nat := quireOf ↑c; let n : Nat := bankOf op.addr.toNat; let x : Ctx := s.cx ↑c; (s.cx ↑c).ops = op :: rest ∧ op.phase = BankPhase.requested ∧ s.unitOn (domQuire (quireOf ↑c)) = true ∧ op.addr.toNat < 2 ^ 25 ∧ s.unitOn (domBank n) = true ∧ s.get (F.BNK_OWN_OWNER n) ≠ q ∧ op.strict = false ∧ x.hold = none) ∧
     (let s := recs (recs ((asks 0 0x3F (opQ 12 8 true)).setCx 0 { Ctx.reset with st := .stall, ops := [opQ 12 8 true], hold := some ⟨true, true, .cont⟩ }) 0x30) 0x16; let c : Fin 1024 := 0; let op : BankOp := opQ 12 8 true; let rest : List BankOp := .nil; let q : Nat := quireOf ↑c; let n : Nat := bankOf op.addr.toNat; let x : Ctx := s.cx ↑c; let b : Bool := true; (s.cx ↑c).ops = op :: rest ∧ op.phase = BankPhase.requested ∧ s.unitOn (domQuire (quireOf ↑c)) = true ∧ op.addr.toNat < 2 ^ 25 ∧ s.unitOn (domBank n) = true ∧ s.get (F.BNK_OWN_OWNER n) ≠ q ∧ op.strict = true ∧ x.hold = some { bank := true, queue := b, follow := Follow.cont } ∧ x.st ≠ CtxSt.idle ∧ x.st ≠ CtxSt.faulted)) :=
  by refine ⟨?_, ?_, ?_, ?_, ?_, ?_, ?_⟩ <;> decide +kernel

theorem witness_PortBAndOwnership :
    (let s := State.reset; let n : Fin 128 := 127; let r : PortBRequest := ⟨.dma, 0x3FFF, true, 0xFFFF, 0x1234567890ABCDEF1234567890ABCDEE⟩; let free : Prop := (s.bk ↑n).march = none ∧ s.portBWaits (↑n) r.user (lineWords (↑n) r) = false; s.unitOn (domBank ↑n) = true ∧ r.user ≠ PortBUser.march ∧ s.get (F.BNK_OWN_OWNER ↑n) ≠ portBCode r.user ∧ free ∧ r.isWrite = true ∧ r.enables = BitVec.allOnes 16 ∧ s.on (F.BNK_INJ_ARM ↑n) = false) ∧
    (let s := State.reset.setArrWord 4194302 (secEncode 77); let n : Fin 128 := 127; let r : PortBRequest := ⟨.hostWindow, 0x3FFF, false, 0xFFFF, 0⟩; let w : Nat := ↑n * 32768 + 2 * r.line.toNat; let free : Prop := (s.bk ↑n).march = none ∧ s.portBWaits (↑n) r.user (lineWords (↑n) r) = false; s.unitOn (domBank ↑n) = true ∧ r.user ≠ PortBUser.march ∧ s.get (F.BNK_OWN_OWNER ↑n) ≠ portBCode r.user ∧ free ∧ r.isWrite = false ∧ secSyndrome (s.arrWord w) = 0 ∧ secSyndrome (s.arrWord (w + 1)) = 0) ∧
    (let s := State.reset; let n : Fin 128 := 127; let r : PortBRequest := ⟨.dma, 0x3FFF, true, 1, 0x1234567890ABCDEF1234567890ABCDEE⟩; let w : Nat := ↑n * 32768 + 2 * r.line.toNat; let free : Prop := (s.bk ↑n).march = none ∧ s.portBWaits (↑n) r.user (lineWords (↑n) r) = false; s.unitOn (domBank ↑n) = true ∧ r.user ≠ PortBUser.march ∧ s.get (F.BNK_OWN_OWNER ↑n) ≠ portBCode r.user ∧ free ∧ r.isWrite = true ∧ r.enables = 1 ∧ secSyndrome (s.arrWord w) = 0 ∧ s.on (F.BNK_INJ_ARM ↑n) = false) ∧
    (let s := State.reset; let n : Fin 128 := 127; let r : PortBRequest := ⟨.dma, 0x3FFF, true, 1, 0x1234567890ABCDEF1234567890ABCDEE⟩; let free : Prop := (s.bk ↑n).march = none ∧ s.portBWaits (↑n) r.user (lineWords (↑n) r) = false; let o : PortBRequest := ⟨.hostWindow, 0x3FFF, true, 1, 0⟩; s.unitOn (domBank ↑n) = true ∧ r.user ≠ PortBUser.march ∧ s.get (F.BNK_OWN_OWNER ↑n) ≠ portBCode r.user ∧ free ∧ r.user = PortBUser.dma ∧ o.user = PortBUser.hostWindow ∧ s.get (F.BNK_OWN_OWNER ↑n) ≠ portBCode PortBUser.hostWindow) ∧
    ((let s := State.reset.setBk 127 { Bank.reset with busyB := 9 }; let n : Fin 128 := 127; let r : PortBRequest := ⟨.queueManager, 0x3FFF, true, 1, 0x1234567890ABCDEF1234567890ABCDEE⟩; s.unitOn (domBank ↑n) = true ∧ r.user ≠ PortBUser.march ∧ s.get (F.BNK_OWN_OWNER ↑n) ≠ portBCode r.user ∧ s.portBWaits (↑n) r.user (lineWords (↑n) r) = true) ∧
     (let m : March := ⟨false, 5, 0, [], false⟩; let s := State.reset.setBk 127 { Bank.reset with march := some m }; let n : Fin 128 := 127; let r : PortBRequest := ⟨.dma, 0x3FFF, false, 1, 0⟩; s.unitOn (domBank n) = true ∧ r.user ≠ .march ∧ s.get (F.BNK_OWN_OWNER n) ≠ portBCode r.user ∧ (s.bk n).march = some m ∧ m.preserving = false ∧ r.isWrite = false)) ∧
    (let s := (State.reset.setBk 0 { Bank.reset with wb := [5] }).setArrWord 5 1; let n : Fin 128 := 0; let w : Nat := 5; let rest : List Nat := .nil; let d : Word := 0; s.unitOn (domBank ↑n) = true ∧ (s.bk ↑n).march = none ∧ (s.bk ↑n).wb = w :: rest ∧ (s.bk ↑n).busyB < s.bclk ∧ w / 32768 = ↑n ∧ secDecode (BitVec.setWidth 64 (s.arrWord w)) (secSyndrome (s.arrWord w)) = (d, SecOut.corrected)) ∧
    (let s := State.reset; let n : Fin 128 := 127; let owner : BitVec 6 := 0x23; let bad : Prop := s.on (F.BNK_LOCK_OWN ↑n) = true ∨ s.on (F.BNK_OWN_PEND ↑n) = true ∨ ¬(owner.toNat ≤ 35 ∨ owner.toNat = 63) ∨ s.marchRefuses ↑n = true; s.pageUp (domBank ↑n) = true ∧ ¬bad ∧ s.get (F.BNK_OWN_OWNER ↑n) ≠ owner.toNat) ∧
    (let s := State.reset; let n : Fin 128 := 127; let owner : BitVec 6 := 0x24; let bad : Prop := s.on (F.BNK_LOCK_OWN ↑n) = true ∨ s.on (F.BNK_OWN_PEND ↑n) = true ∨ ¬(owner.toNat ≤ 35 ∨ owner.toNat = 63) ∨ s.marchRefuses ↑n = true; s.pageUp (domBank ↑n) = true ∧ bad) ∧
    (let s := State.reset; let n : Fin 128 := 127; let owner : BitVec 6 := 0x3F; let bad : Prop := s.on (F.BNK_LOCK_OWN ↑n) = true ∨ s.on (F.BNK_OWN_PEND ↑n) = true ∨ ¬(owner.toNat ≤ 35 ∨ owner.toNat = 63) ∨ s.marchRefuses ↑n = true; s.pageUp (domBank ↑n) = true ∧ ¬bad ∧ s.get (F.BNK_OWN_OWNER ↑n) = owner.toNat) ∧
    (let s := ((State.reset.put (F.BNK_OWN_PEND 0) 1).put (F.BNK_EVEN_ONHAND 0) 1).put (F.BNK_EVEN_EV 0) 0xC7F; let n : Fin 128 := 0; s.unitOn (domBank ↑n) = true ∧ s.on (F.BNK_OWN_PEND ↑n) = true ∧ (s.bk ↑n).wsteps = []) :=
  by refine ⟨?_, ?_, ?_, ?_, ?_, ?_, ?_, ?_, ?_, ?_⟩ <;> decide +kernel

theorem witness_MarchesAndInjection :
    (let s := State.reset; let n : Fin 128 := 127; let idle : Prop := (s.bk ↑n).march = none; s.pageUp (domBank ↑n) = true ∧ idle ∧ s.get (F.BNK_OWN_OWNER ↑n) = 63 ∧ s.on (F.BNK_OWN_PEND ↑n) = false ∧ s.on (F.BNK_LOCK_MARCH ↑n) = false) ∧
    (let s := State.reset; let n : Fin 128 := 127; let idle : Prop := (s.bk ↑n).march = none; s.pageUp (domBank ↑n) = true ∧ idle ∧ s.on (F.BNK_LOCK_MARCH ↑n) = false) ∧
    (let s := State.reset.put (F.BNK_LOCK_MARCH 0) 1; let n : Fin 128 := 0; let idle : Prop := (s.bk ↑n).march = none; s.pageUp (domBank ↑n) = true ∧ (s.on (F.BNK_LOCK_MARCH ↑n) = true ∨ ¬idle)) ∧
    ((let s := State.reset.setBk 0 { Bank.reset with march := some ⟨false, 327679, 0, [], true⟩ }; let n : Fin 128 := 0; let m : March := { preserving := false, pos := 327679, group := 0, save := [], failed := true }; s.pageUp (domBank ↑n) = true ∧ (s.bk ↑n).march = some m ∧ m.preserving = false) ∧
     (let s := State.reset.setBk 0 { Bank.reset with march := some ⟨true, 169, 5, List.replicate 16 77, true⟩ }; let n : Fin 128 := 0; let m : March := ⟨true, 169, 5, List.replicate 16 77, true⟩; s.pageUp (domBank ↑n) = true ∧ (s.bk ↑n).march = some m ∧ m.preserving = true ∧ m.pos < 176 ∧ m.save.length ≤ 16)) ∧
    (let s := State.reset.setBk 127 { Bank.reset with march := some ⟨false, 327680, 0, [], false⟩ }; let n : Fin 128 := 127; let m : March := ⟨false, 327680, 0, [], false⟩; s.unitOn (domBank ↑n) = true ∧ (s.bk ↑n).march = some m ∧ s.portBFree (↑n) 37 = true ∧ m.preserving = false ∧ m.group = 0 ∧ m.save = [] ∧ 327680 ≤ m.pos ∧ m.pos + 1 < 344064) ∧
    (let s := State.reset.setBk 0 { Bank.reset with march := some ⟨true, 7, 3, [], false⟩ }; let n : Fin 128 := 0; let m : March := ⟨true, 7, 3, [], false⟩; s.unitOn (domBank ↑n) = true ∧ (s.bk ↑n).march = some m ∧ s.portBFree (↑n) 37 = true ∧ m.preserving = true ∧ m.pos < 8) ∧
    (let s := (State.reset.setArrRow 0 16383 3 3).setBk 0 { Bank.reset with march := some ⟨true, 95, 2047, List.replicate 16 5, false⟩ }; let n : Fin 128 := 0; let m : March := ⟨true, 95, 2047, List.replicate 16 5, false⟩; let lines : Nat := 8; let start : Nat := 8; let base : Nat := 16376; let b : Nat := 1; let i : Nat := 7; let at_ : Nat → Prop := fun k => m.pos = start + 10 * lines * b + k; s.unitOn (domBank ↑n) = true ∧ (s.bk ↑n).march = some m ∧ s.portBFree (↑n) 37 = true ∧ (m.preserving = false ∧ m.group = 0 ∧ m.save = [] ∧ lines = 16384 ∧ start = 0 ∧ base = 0 ∨ m.preserving = true ∧ m.group < 2048 ∧ lines = 8 ∧ start = 8 ∧ base = 8 * m.group) ∧ b < 2 ∧ i < lines ∧ at_ i) ∧
    (let s := (State.reset.setArrRow 0 16383 0xAAAAAAAAAAAAAAAAAA 0xAAAAAAAAAAAAAAAAAA).setBk 0 { Bank.reset with march := some ⟨true, 110, 2047, List.replicate 16 5, false⟩ }; let n : Fin 128 := 0; let m : March := ⟨true, 110, 2047, List.replicate 16 5, false⟩; let row : State → Nat → BitVec 72 × BitVec 72 := fun t l => t.arrRow (↑n) l; let pat : Nat → Bool → BitVec 72 := fun b one => if b = 0 then if one = true then BitVec.allOnes 72 else 0 else if one = true then 1574122160956548404565 else 3148244321913096809130; let lines : Nat := 8; let start : Nat := 8; let base : Nat := 16376; let b : Nat := 1; let i : Nat := 7; let at_ : Nat → Prop := fun k => m.pos = start + 10 * lines * b + k; s.unitOn (domBank ↑n) = true ∧ (s.bk ↑n).march = some m ∧ s.portBFree (↑n) 37 = true ∧ (m.preserving = false ∧ m.group = 0 ∧ m.save = [] ∧ lines = 16384 ∧ start = 0 ∧ base = 0 ∨ m.preserving = true ∧ m.group < 2048 ∧ lines = 8 ∧ start = 8 ∧ base = 8 * m.group) ∧ b < 2 ∧ i < lines ∧ at_ (lines + 2 * i) ∧ row s (base + i) = (pat b false, pat b false)) ∧
    (let s := (State.reset.setArrRow 0 16383 3 0xAAAAAAAAAAAAAAAAAA).setBk 0 { Bank.reset with march := some ⟨true, 110, 2047, List.replicate 16 5, false⟩ }; let n : Fin 128 := 0; let m : March := ⟨true, 110, 2047, List.replicate 16 5, false⟩; let row : State → Nat → BitVec 72 × BitVec 72 := fun t l => t.arrRow (↑n) l; let pat : Nat → Bool → BitVec 72 := fun b one => if b = 0 then if one = true then BitVec.allOnes 72 else 0 else if one = true then 1574122160956548404565 else 3148244321913096809130; let lines : Nat := 8; let start : Nat := 8; let base : Nat := 16376; let b : Nat := 1; let i : Nat := 7; let at_ : Nat → Prop := fun k => m.pos = start + 10 * lines * b + k; s.unitOn (domBank ↑n) = true ∧ (s.bk ↑n).march = some m ∧ s.portBFree (↑n) 37 = true ∧ (m.preserving = false ∧ m.group = 0 ∧ m.save = [] ∧ lines = 16384 ∧ start = 0 ∧ base = 0 ∨ m.preserving = true ∧ m.group < 2048 ∧ lines = 8 ∧ start = 8 ∧ base = 8 * m.group) ∧ b < 2 ∧ i < lines ∧ at_ (lines + 2 * i) ∧ row s (base + i) ≠ (pat b false, pat b false)) ∧
    (let s := (State.reset.setArrRow 0 16383 3 3).setBk 0 { Bank.reset with march := some ⟨true, 111, 2047, List.replicate 16 5, false⟩ }; let n : Fin 128 := 0; let m : March := ⟨true, 111, 2047, List.replicate 16 5, false⟩; let lines : Nat := 8; let start : Nat := 8; let base : Nat := 16376; let b : Nat := 1; let i : Nat := 7; let at_ : Nat → Prop := fun k => m.pos = start + 10 * lines * b + k; s.unitOn (domBank ↑n) = true ∧ (s.bk ↑n).march = some m ∧ s.portBFree (↑n) 37 = true ∧ (m.preserving = false ∧ m.group = 0 ∧ m.save = [] ∧ lines = 16384 ∧ start = 0 ∧ base = 0 ∨ m.preserving = true ∧ m.group < 2048 ∧ lines = 8 ∧ start = 8 ∧ base = 8 * m.group) ∧ b < 2 ∧ i < lines ∧ at_ (lines + 2 * i + 1)) ∧
    (let s := (State.reset.setArrRow 0 16376 0xFFFFFFFFFFFFFFFFFF 0xFFFFFFFFFFFFFFFFFF).setBk 0 { Bank.reset with march := some ⟨true, 32, 2047, List.replicate 16 5, false⟩ }; let n : Fin 128 := 0; let m : March := ⟨true, 32, 2047, List.replicate 16 5, false⟩; let row : State → Nat → BitVec 72 × BitVec 72 := fun t l => t.arrRow (↑n) l; let pat : Nat → Bool → BitVec 72 := fun b one => if b = 0 then if one = true then BitVec.allOnes 72 else 0 else if one = true then 1574122160956548404565 else 3148244321913096809130; let lines : Nat := 8; let start : Nat := 8; let base : Nat := 16376; let b : Nat := 0; let i : Nat := 0; let at_ : Nat → Prop := fun k => m.pos = start + 10 * lines * b + k; s.unitOn (domBank ↑n) = true ∧ (s.bk ↑n).march = some m ∧ s.portBFree (↑n) 37 = true ∧ (m.preserving = false ∧ m.group = 0 ∧ m.save = [] ∧ lines = 16384 ∧ start = 0 ∧ base = 0 ∨ m.preserving = true ∧ m.group < 2048 ∧ lines = 8 ∧ start = 8 ∧ base = 8 * m.group) ∧ b < 2 ∧ i < lines ∧ at_ (3 * lines + 2 * i) ∧ row s (base + i) = (pat b true, pat b true)) ∧
    (let s := (State.reset.setArrRow 0 16376 3 0xFFFFFFFFFFFFFFFFFF).setBk 0 { Bank.reset with march := some ⟨true, 32, 2047, List.replicate 16 5, false⟩ }; let n : Fin 128 := 0; let m : March := ⟨true, 32, 2047, List.replicate 16 5, false⟩; let row : State → Nat → BitVec 72 × BitVec 72 := fun t l => t.arrRow (↑n) l; let pat : Nat → Bool → BitVec 72 := fun b one => if b = 0 then if one = true then BitVec.allOnes 72 else 0 else if one = true then 1574122160956548404565 else 3148244321913096809130; let lines : Nat := 8; let start : Nat := 8; let base : Nat := 16376; let b : Nat := 0; let i : Nat := 0; let at_ : Nat → Prop := fun k => m.pos = start + 10 * lines * b + k; s.unitOn (domBank ↑n) = true ∧ (s.bk ↑n).march = some m ∧ s.portBFree (↑n) 37 = true ∧ (m.preserving = false ∧ m.group = 0 ∧ m.save = [] ∧ lines = 16384 ∧ start = 0 ∧ base = 0 ∨ m.preserving = true ∧ m.group < 2048 ∧ lines = 8 ∧ start = 8 ∧ base = 8 * m.group) ∧ b < 2 ∧ i < lines ∧ at_ (3 * lines + 2 * i) ∧ row s (base + i) ≠ (pat b true, pat b true)) ∧
    (let s := (State.reset.setArrRow 0 16376 3 3).setBk 0 { Bank.reset with march := some ⟨true, 33, 2047, List.replicate 16 5, false⟩ }; let n : Fin 128 := 0; let m : March := ⟨true, 33, 2047, List.replicate 16 5, false⟩; let lines : Nat := 8; let start : Nat := 8; let base : Nat := 16376; let b : Nat := 0; let i : Nat := 0; let at_ : Nat → Prop := fun k => m.pos = start + 10 * lines * b + k; s.unitOn (domBank ↑n) = true ∧ (s.bk ↑n).march = some m ∧ s.portBFree (↑n) 37 = true ∧ (m.preserving = false ∧ m.group = 0 ∧ m.save = [] ∧ lines = 16384 ∧ start = 0 ∧ base = 0 ∨ m.preserving = true ∧ m.group < 2048 ∧ lines = 8 ∧ start = 8 ∧ base = 8 * m.group) ∧ b < 2 ∧ i < lines ∧ at_ (3 * lines + 2 * i + 1)) ∧
    (let s := (State.reset.setArrRow 0 16376 0xAAAAAAAAAAAAAAAAAA 0xAAAAAAAAAAAAAAAAAA).setBk 0 { Bank.reset with march := some ⟨true, 142, 2047, List.replicate 16 5, false⟩ }; let n : Fin 128 := 0; let m : March := ⟨true, 142, 2047, List.replicate 16 5, false⟩; let row : State → Nat → BitVec 72 × BitVec 72 := fun t l => t.arrRow (↑n) l; let pat : Nat → Bool → BitVec 72 := fun b one => if b = 0 then if one = true then BitVec.allOnes 72 else 0 else if one = true then 1574122160956548404565 else 3148244321913096809130; let lines : Nat := 8; let start : Nat := 8; let base : Nat := 16376; let b : Nat := 1; let i : Nat := 7; let at_ : Nat → Prop := fun k => m.pos = start + 10 * lines * b + k; s.unitOn (domBank ↑n) = true ∧ (s.bk ↑n).march = some m ∧ s.portBFree (↑n) 37 = true ∧ (m.preserving = false ∧ m.group = 0 ∧ m.save = [] ∧ lines = 16384 ∧ start = 0 ∧ base = 0 ∨ m.preserving = true ∧ m.group < 2048 ∧ lines = 8 ∧ start = 8 ∧ base = 8 * m.group) ∧ b < 2 ∧ i < lines ∧ at_ (5 * lines + 2 * i) ∧ row s (base + lines - 1 - i) = (pat b false, pat b false)) ∧
    (let s := (State.reset.setArrRow 0 16376 3 0xAAAAAAAAAAAAAAAAAA).setBk 0 { Bank.reset with march := some ⟨true, 142, 2047, List.replicate 16 5, false⟩ }; let n : Fin 128 := 0; let m : March := ⟨true, 142, 2047, List.replicate 16 5, false⟩; let row : State → Nat → BitVec 72 × BitVec 72 := fun t l => t.arrRow (↑n) l; let pat : Nat → Bool → BitVec 72 := fun b one => if b = 0 then if one = true then BitVec.allOnes 72 else 0 else if one = true then 1574122160956548404565 else 3148244321913096809130; let lines : Nat := 8; let start : Nat := 8; let base : Nat := 16376; let b : Nat := 1; let i : Nat := 7; let at_ : Nat → Prop := fun k => m.pos = start + 10 * lines * b + k; s.unitOn (domBank ↑n) = true ∧ (s.bk ↑n).march = some m ∧ s.portBFree (↑n) 37 = true ∧ (m.preserving = false ∧ m.group = 0 ∧ m.save = [] ∧ lines = 16384 ∧ start = 0 ∧ base = 0 ∨ m.preserving = true ∧ m.group < 2048 ∧ lines = 8 ∧ start = 8 ∧ base = 8 * m.group) ∧ b < 2 ∧ i < lines ∧ at_ (5 * lines + 2 * i) ∧ row s (base + lines - 1 - i) ≠ (pat b false, pat b false)) ∧
    (let s := (State.reset.setArrRow 0 16376 3 3).setBk 0 { Bank.reset with march := some ⟨true, 143, 2047, List.replicate 16 5, false⟩ }; let n : Fin 128 := 0; let m : March := ⟨true, 143, 2047, List.replicate 16 5, false⟩; let lines : Nat := 8; let start : Nat := 8; let base : Nat := 16376; let b : Nat := 1; let i : Nat := 7; let at_ : Nat → Prop := fun k => m.pos = start + 10 * lines * b + k; s.unitOn (domBank ↑n) = true ∧ (s.bk ↑n).march = some m ∧ s.portBFree (↑n) 37 = true ∧ (m.preserving = false ∧ m.group = 0 ∧ m.save = [] ∧ lines = 16384 ∧ start = 0 ∧ base = 0 ∨ m.preserving = true ∧ m.group < 2048 ∧ lines = 8 ∧ start = 8 ∧ base = 8 * m.group) ∧ b < 2 ∧ i < lines ∧ at_ (5 * lines + 2 * i + 1)) ∧
    (let s := (State.reset.setArrRow 0 16383 0xFFFFFFFFFFFFFFFFFF 0xFFFFFFFFFFFFFFFFFF).setBk 0 { Bank.reset with march := some ⟨true, 64, 2047, List.replicate 16 5, false⟩ }; let n : Fin 128 := 0; let m : March := ⟨true, 64, 2047, List.replicate 16 5, false⟩; let row : State → Nat → BitVec 72 × BitVec 72 := fun t l => t.arrRow (↑n) l; let pat : Nat → Bool → BitVec 72 := fun b one => if b = 0 then if one = true then BitVec.allOnes 72 else 0 else if one = true then 1574122160956548404565 else 3148244321913096809130; let lines : Nat := 8; let start : Nat := 8; let base : Nat := 16376; let b : Nat := 0; let i : Nat := 0; let at_ : Nat → Prop := fun k => m.pos = start + 10 * lines * b + k; s.unitOn (domBank ↑n) = true ∧ (s.bk ↑n).march = some m ∧ s.portBFree (↑n) 37 = true ∧ (m.preserving = false ∧ m.group = 0 ∧ m.save = [] ∧ lines = 16384 ∧ start = 0 ∧ base = 0 ∨ m.preserving = true ∧ m.group < 2048 ∧ lines = 8 ∧ start = 8 ∧ base = 8 * m.group) ∧ b < 2 ∧ i < lines ∧ at_ (7 * lines + 2 * i) ∧ row s (base + lines - 1 - i) = (pat b true, pat b true)) ∧
    (let s := (State.reset.setArrRow 0 16383 3 0xFFFFFFFFFFFFFFFFFF).setBk 0 { Bank.reset with march := some ⟨true, 64, 2047, List.replicate 16 5, false⟩ }; let n : Fin 128 := 0; let m : March := ⟨true, 64, 2047, List.replicate 16 5, false⟩; let row : State → Nat → BitVec 72 × BitVec 72 := fun t l => t.arrRow (↑n) l; let pat : Nat → Bool → BitVec 72 := fun b one => if b = 0 then if one = true then BitVec.allOnes 72 else 0 else if one = true then 1574122160956548404565 else 3148244321913096809130; let lines : Nat := 8; let start : Nat := 8; let base : Nat := 16376; let b : Nat := 0; let i : Nat := 0; let at_ : Nat → Prop := fun k => m.pos = start + 10 * lines * b + k; s.unitOn (domBank ↑n) = true ∧ (s.bk ↑n).march = some m ∧ s.portBFree (↑n) 37 = true ∧ (m.preserving = false ∧ m.group = 0 ∧ m.save = [] ∧ lines = 16384 ∧ start = 0 ∧ base = 0 ∨ m.preserving = true ∧ m.group < 2048 ∧ lines = 8 ∧ start = 8 ∧ base = 8 * m.group) ∧ b < 2 ∧ i < lines ∧ at_ (7 * lines + 2 * i) ∧ row s (base + lines - 1 - i) ≠ (pat b true, pat b true)) ∧
    (let s := (State.reset.setArrRow 0 16383 3 3).setBk 0 { Bank.reset with march := some ⟨true, 65, 2047, List.replicate 16 5, false⟩ }; let n : Fin 128 := 0; let m : March := ⟨true, 65, 2047, List.replicate 16 5, false⟩; let lines : Nat := 8; let start : Nat := 8; let base : Nat := 16376; let b : Nat := 0; let i : Nat := 0; let at_ : Nat → Prop := fun k => m.pos = start + 10 * lines * b + k; s.unitOn (domBank ↑n) = true ∧ (s.bk ↑n).march = some m ∧ s.portBFree (↑n) 37 = true ∧ (m.preserving = false ∧ m.group = 0 ∧ m.save = [] ∧ lines = 16384 ∧ start = 0 ∧ base = 0 ∨ m.preserving = true ∧ m.group < 2048 ∧ lines = 8 ∧ start = 8 ∧ base = 8 * m.group) ∧ b < 2 ∧ i < lines ∧ at_ (7 * lines + 2 * i + 1)) ∧
    (let s := (State.reset.setArrRow 0 16383 0xAAAAAAAAAAAAAAAAAA 0xAAAAAAAAAAAAAAAAAA).setBk 0 { Bank.reset with march := some ⟨true, 167, 2047, List.replicate 16 5, false⟩ }; let n : Fin 128 := 0; let m : March := ⟨true, 167, 2047, List.replicate 16 5, false⟩; let row : State → Nat → BitVec 72 × BitVec 72 := fun t l => t.arrRow (↑n) l; let pat : Nat → Bool → BitVec 72 := fun b one => if b = 0 then if one = true then BitVec.allOnes 72 else 0 else if one = true then 1574122160956548404565 else 3148244321913096809130; let lines : Nat := 8; let start : Nat := 8; let base : Nat := 16376; let b : Nat := 1; let i : Nat := 7; let at_ : Nat → Prop := fun k => m.pos = start + 10 * lines * b + k; s.unitOn (domBank ↑n) = true ∧ (s.bk ↑n).march = some m ∧ s.portBFree (↑n) 37 = true ∧ (m.preserving = false ∧ m.group = 0 ∧ m.save = [] ∧ lines = 16384 ∧ start = 0 ∧ base = 0 ∨ m.preserving = true ∧ m.group < 2048 ∧ lines = 8 ∧ start = 8 ∧ base = 8 * m.group) ∧ b < 2 ∧ i < lines ∧ at_ (9 * lines + i) ∧ row s (base + i) = (pat b false, pat b false)) ∧
    (let s := (State.reset.setArrRow 0 16383 3 0xAAAAAAAAAAAAAAAAAA).setBk 0 { Bank.reset with march := some ⟨true, 167, 2047, List.replicate 16 5, false⟩ }; let n : Fin 128 := 0; let m : March := ⟨true, 167, 2047, List.replicate 16 5, false⟩; let row : State → Nat → BitVec 72 × BitVec 72 := fun t l => t.arrRow (↑n) l; let pat : Nat → Bool → BitVec 72 := fun b one => if b = 0 then if one = true then BitVec.allOnes 72 else 0 else if one = true then 1574122160956548404565 else 3148244321913096809130; let lines : Nat := 8; let start : Nat := 8; let base : Nat := 16376; let b : Nat := 1; let i : Nat := 7; let at_ : Nat → Prop := fun k => m.pos = start + 10 * lines * b + k; s.unitOn (domBank ↑n) = true ∧ (s.bk ↑n).march = some m ∧ s.portBFree (↑n) 37 = true ∧ (m.preserving = false ∧ m.group = 0 ∧ m.save = [] ∧ lines = 16384 ∧ start = 0 ∧ base = 0 ∨ m.preserving = true ∧ m.group < 2048 ∧ lines = 8 ∧ start = 8 ∧ base = 8 * m.group) ∧ b < 2 ∧ i < lines ∧ at_ (9 * lines + i) ∧ row s (base + i) ≠ (pat b false, pat b false)) ∧
    (let s := (State.reset.put (F.BNK_MSTAT_FAILCNT 0) 1).setBk 0 { Bank.reset with march := some ⟨false, 344063, 0, [], true⟩ }; let n : Fin 128 := 0; let m : March := ⟨false, 344063, 0, [], true⟩; s.unitOn (domBank ↑n) = true ∧ (s.bk ↑n).march = some m ∧ s.portBFree (↑n) 37 = true ∧ m.preserving = false ∧ m.pos = 344063) ∧
    (let s := State.reset.setBk 0 { Bank.reset with march := some ⟨true, 168, 3, List.replicate 16 5, false⟩ }; let n : Fin 128 := 0; let m : March := ⟨true, 168, 3, List.replicate 16 5, false⟩; s.unitOn (domBank ↑n) = true ∧ (s.bk ↑n).march = some m ∧ s.portBFree (↑n) 37 = true ∧ m.preserving = true ∧ 168 ≤ m.pos ∧ m.pos < 175) ∧
    (let s := State.reset.setBk 0 { Bank.reset with march := some ⟨true, 175, 3, List.replicate 16 5, false⟩ }; let n : Fin 128 := 0; let m : March := ⟨true, 175, 3, List.replicate 16 5, false⟩; s.unitOn (domBank ↑n) = true ∧ (s.bk ↑n).march = some m ∧ s.portBFree (↑n) 37 = true ∧ m.preserving = true ∧ m.pos = 175 ∧ m.group + 1 < 2048) ∧
    (let s := State.reset.setBk 0 { Bank.reset with march := some ⟨true, 175, 2047, List.replicate 16 5, false⟩ }; let n : Fin 128 := 0; let m : March := ⟨true, 175, 2047, List.replicate 16 5, false⟩; s.unitOn (domBank ↑n) = true ∧ (s.bk ↑n).march = some m ∧ s.portBFree (↑n) 37 = true ∧ m.preserving = true ∧ m.pos = 175 ∧ m.group = 2047) ∧
    ((let s := State.reset; let n : Fin 128 := 127; s.pageUp (domBank ↑n) = true ∧ s.on (F.BNK_INJ_ARM ↑n) = false) ∧
     (let s := (State.reset.put (F.BNK_INJ_ARM 0) 1).setReg (R.BNK_INJ 0) 0xFFFF; let n : Fin 128 := 0; s.pageUp (domBank ↑n) = true ∧ s.on (F.BNK_INJ_ARM ↑n) = true) ∧
     (let s := ((State.reset.put (F.BNK_INJ_ARM 0) 1).setReg (R.BNK_INJ 0) 0xFFFF).setBk 0 { Bank.reset with wsteps := [⟨7, 5, 255, none, 0, false, none, none⟩] }; let n : Fin 128 := 0; let p : WStep := ⟨7, 5, 255, none, 0, false, none, none⟩; let rest : List WStep := .nil; s.pageUp (domBank ↑n) = true ∧ s.unitOn (domBank ↑n) = true ∧ (s.bk ↑n).wsteps = p :: rest ∧ p.word / 32768 = ↑n ∧ p.drop = none ∧ p.mask ≠ 0 ∧ (s.bk ↑n).march = none ∧ s.on (F.BNK_INJ_ARM ↑n) = true)) :=
  by refine ⟨?_, ?_, ?_, ?_, ?_, ?_, ?_, ?_, ?_, ?_, ?_, ?_, ?_, ?_, ?_, ?_, ?_, ?_, ?_, ?_, ?_, ?_, ?_, ?_, ?_, ?_⟩ <;> decide +kernel

theorem witness_QueueRequests :
    ((let s := State.reset.setSl 15 { Slice.reset with grants := (0, 2) }; let k : Fin 16 := 15; s.unitOn (domSlice ↑k) = true ∧ (s.sl ↑k).grants = (s.fclk, 2)) ∧
     (let s : State := { (qOn 16255).setSl 15 { Slice.reset with reqs := [{ qreq 1 16255 with port := 63 }] } with fclk := 9 }; let k : Fin 16 := 15; let r : QReq := { qreq 1 16255 with port := 63 }; s.unitOn (domSlice ↑k) = true ∧ (s.sl ↑k).grants.fst ≠ s.fclk ∧ (s.sl ↑k).reqs = [r] ∧ r.port < 64 ∧ s.qdPattern r.queue 0 = 0 ∧ s.qdPattern r.queue 1 = 0)) ∧
    (let s : State := { State.reset.setSl 0 { Slice.reset with lastPort := 63, reqs := [{ qreq 1 16 with port := 63 }, qreq 2 0] } with fclk := 9 }; let k : Fin 16 := 0; let a : QReq := qreq 2 0; let b : QReq := { qreq 1 16 with port := 63 }; s.unitOn (domSlice ↑k) = true ∧ (s.sl ↑k).grants.fst ≠ s.fclk ∧ ((s.sl ↑k).reqs = [a, b] ∨ (s.sl ↑k).reqs = [b, a]) ∧ (s.sl ↑k).lastPort < 64 ∧ a.port < 64 ∧ b.port < 64 ∧ turnsAfter (s.sl ↑k).lastPort a.port < turnsAfter (s.sl ↑k).lastPort b.port ∧ s.qdPattern a.queue 0 = 0 ∧ s.qdPattern a.queue 1 = 0 ∧ s.qdPattern b.queue 0 = 0 ∧ s.qdPattern b.queue 1 = 0) ∧
    (let s := granted 16255 1; let n : BitVec 14 := 16255; let r : QReq := qreq 1 16255; let en : Bool := true; let rest : List (QReq × Bool) := .nil; let c : Nat := 0; let id : Nat := 0; let k : Nat := n.toNat % 16; let room : Prop := (s.rtail n.toNat + 2 ^ 18 - s.get (F.QD_PTR_HEAD n.toNat)) % 2 ^ 18 < s.qCap n.toNat; s.unitOn (domSlice k) = true ∧ (s.sl k).granted = (r, en) :: rest ∧ r.queue = n.toNat ∧ r.tag = QTag.ctx c id ∧ (s.cx c).hold = none ∧ s.refusalCause r.port r.qop n.toNat en = 0 ∧ room ∧ r.qop = 1) ∧
    (let s := granted 0 4; let n : BitVec 14 := 0; let r : QReq := qreq 4 0; let en : Bool := true; let rest : List (QReq × Bool) := .nil; let c : Nat := 0; let id : Nat := 0; let k : Nat := n.toNat % 16; let room : Prop := (s.rtail n.toNat + 2 ^ 18 - s.get (F.QD_PTR_HEAD n.toNat)) % 2 ^ 18 < s.qCap n.toNat; s.unitOn (domSlice k) = true ∧ (s.sl k).granted = (r, en) :: rest ∧ r.queue = n.toNat ∧ r.tag = QTag.ctx c id ∧ (s.cx c).hold = none ∧ s.refusalCause r.port r.qop n.toNat en = 0 ∧ room ∧ r.qop = 4) ∧
    (let s := (granted 0 2).put (F.QD_PTR_TAIL 0) 1; let n : BitVec 14 := 0; let r : QReq := qreq 2 0; let en : Bool := true; let rest : List (QReq × Bool) := .nil; let c : Nat := 0; let id : Nat := 0; let k : Nat := n.toNat % 16; let some_ : Prop := (s.get (F.QD_PTR_TAIL n.toNat) + 2 ^ 18 - s.rhead n.toNat) % 2 ^ 18 ≠ 0; s.unitOn (domSlice k) = true ∧ (s.sl k).granted = (r, en) :: rest ∧ r.queue = n.toNat ∧ r.tag = QTag.ctx c id ∧ (s.cx c).hold = none ∧ s.refusalCause r.port r.qop n.toNat en = 0 ∧ some_ ∧ r.qop = 2) ∧
    (let s := (granted 0 3).put (F.QD_PTR_TAIL 0) 1; let n : BitVec 14 := 0; let r : QReq := qreq 3 0; let en : Bool := true; let rest : List (QReq × Bool) := .nil; let c : Nat := 0; let id : Nat := 0; let k : Nat := n.toNat % 16; let some_ : Prop := (s.get (F.QD_PTR_TAIL n.toNat) + 2 ^ 18 - s.rhead n.toNat) % 2 ^ 18 ≠ 0; s.unitOn (domSlice k) = true ∧ (s.sl k).granted = (r, en) :: rest ∧ r.queue = n.toNat ∧ r.tag = QTag.ctx c id ∧ (s.cx c).hold = none ∧ s.refusalCause r.port r.qop n.toNat en = 0 ∧ some_ ∧ r.qop = 3) ∧
    (let s := (granted 0 5).put (F.QD_PTR_TAIL 0) 1; let n : BitVec 14 := 0; let r : QReq := qreq 5 0; let en : Bool := true; let rest : List (QReq × Bool) := .nil; let c : Nat := 0; let id : Nat := 0; let k : Nat := n.toNat % 16; let some_ : Prop := (s.get (F.QD_PTR_TAIL n.toNat) + 2 ^ 18 - s.rhead n.toNat) % 2 ^ 18 ≠ 0; s.unitOn (domSlice k) = true ∧ (s.sl k).granted = (r, en) :: rest ∧ r.queue = n.toNat ∧ r.tag = QTag.ctx c id ∧ (s.cx c).hold = none ∧ s.refusalCause r.port r.qop n.toNat en = 0 ∧ some_ ∧ r.qop = 5) ∧
    (let s := granted 0 6; let n : BitVec 14 := 0; let r : QReq := qreq 6 0; let en : Bool := true; let rest : List (QReq × Bool) := .nil; let c : Nat := 0; let id : Nat := 0; let k : Nat := n.toNat % 16; s.unitOn (domSlice k) = true ∧ (s.sl k).granted = (r, en) :: rest ∧ r.queue = n.toNat ∧ r.tag = QTag.ctx c id ∧ (s.cx c).hold = none ∧ s.refusalCause r.port r.qop n.toNat en = 0 ∧ r.qop = 6) :=
  by refine ⟨?_, ?_, ?_, ?_, ?_, ?_, ?_, ?_⟩ <;> decide +kernel

theorem witness_QueueOutcomes :
    (let s := (granted 16255 1).put (F.QD_PTR_TAIL 16255) 64; let n : BitVec 14 := 16255; let r : QReq := qreq 1 16255; let en : Bool := true; let rest : List (QReq × Bool) := .nil; let c : Nat := 0; let o : CtxQop := qop0 1; let k : Nat := n.toNat % 16; let full : Prop := s.qCap n.toNat ≤ (s.rtail n.toNat + 2 ^ 18 - s.get (F.QD_PTR_HEAD n.toNat)) % 2 ^ 18; s.unitOn (domSlice k) = true ∧ (s.sl k).granted = (r, en) :: rest ∧ r.queue = n.toNat ∧ r.tag = QTag.ctx c o.id ∧ (s.cx c).hold = none ∧ (s.cx c).qops = [o] ∧ o.answer = none ∧ o.qop.toNat = r.qop ∧ r.strict = false ∧ r.port ≤ 31 ∧ s.refusalCause r.port r.qop n.toNat en = 0 ∧ full ∧ r.qop = 1) ∧
    (let s := (granted 0 4).put (F.QD_PTR_TAIL 0) 64; let n : BitVec 14 := 0; let r : QReq := qreq 4 0; let en : Bool := true; let rest : List (QReq × Bool) := .nil; let c : Nat := 0; let o : CtxQop := qop0 4; let k : Nat := n.toNat % 16; let full : Prop := s.qCap n.toNat ≤ (s.rtail n.toNat + 2 ^ 18 - s.get (F.QD_PTR_HEAD n.toNat)) % 2 ^ 18; s.unitOn (domSlice k) = true ∧ (s.sl k).granted = (r, en) :: rest ∧ r.queue = n.toNat ∧ r.tag = QTag.ctx c o.id ∧ (s.cx c).hold = none ∧ (s.cx c).qops = [o] ∧ o.answer = none ∧ o.qop.toNat = r.qop ∧ r.strict = false ∧ r.port ≤ 31 ∧ s.refusalCause r.port r.qop n.toNat en = 0 ∧ full ∧ r.qop = 4) ∧
    (let s := granted 0 2; let n : BitVec 14 := 0; let r : QReq := qreq 2 0; let en : Bool := true; let rest : List (QReq × Bool) := .nil; let c : Nat := 0; let o : CtxQop := qop0 2; let k : Nat := n.toNat % 16; let empty : Prop := (s.get (F.QD_PTR_TAIL n.toNat) + 2 ^ 18 - s.rhead n.toNat) % 2 ^ 18 = 0; s.unitOn (domSlice k) = true ∧ (s.sl k).granted = (r, en) :: rest ∧ r.queue = n.toNat ∧ r.tag = QTag.ctx c o.id ∧ (s.cx c).hold = none ∧ (s.cx c).qops = [o] ∧ o.answer = none ∧ o.qop.toNat = r.qop ∧ r.strict = false ∧ r.port ≤ 31 ∧ s.refusalCause r.port r.qop n.toNat en = 0 ∧ empty ∧ r.qop = 2) ∧
    (let s := granted 0 5; let n : BitVec 14 := 0; let r : QReq := qreq 5 0; let en : Bool := true; let rest : List (QReq × Bool) := .nil; let c : Nat := 0; let o : CtxQop := qop0 5; let k : Nat := n.toNat % 16; let empty : Prop := (s.get (F.QD_PTR_TAIL n.toNat) + 2 ^ 18 - s.rhead n.toNat) % 2 ^ 18 = 0; s.unitOn (domSlice k) = true ∧ (s.sl k).granted = (r, en) :: rest ∧ r.queue = n.toNat ∧ r.tag = QTag.ctx c o.id ∧ (s.cx c).hold = none ∧ (s.cx c).qops = [o] ∧ o.answer = none ∧ o.qop.toNat = r.qop ∧ r.strict = false ∧ r.port ≤ 31 ∧ s.refusalCause r.port r.qop n.toNat en = 0 ∧ empty ∧ r.qop = 5) ∧
    (let s := recs (granted 0 3) 0x41; let n : BitVec 14 := 0; let r : QReq := qreq 3 0; let en : Bool := true; let rest : List (QReq × Bool) := .nil; let c : Nat := 0; let o : CtxQop := qop0 3; let k : Nat := n.toNat % 16; let empty : Prop := (s.get (F.QD_PTR_TAIL n.toNat) + 2 ^ 18 - s.rhead n.toNat) % 2 ^ 18 = 0; s.unitOn (domSlice k) = true ∧ (s.sl k).granted = (r, en) :: rest ∧ r.queue = n.toNat ∧ r.tag = QTag.ctx c o.id ∧ (s.cx c).hold = none ∧ (s.cx c).qops = [o] ∧ o.answer = none ∧ o.qop.toNat = r.qop ∧ r.strict = false ∧ r.port ≤ 31 ∧ s.refusalCause r.port r.qop n.toNat en = 0 ∧ empty ∧ r.qop = 3) ∧
    (let s := recs ((State.reset).setSl 13 { Slice.reset with granted := [({ qreq 1 16349 with port := 0 }, true)] } |> (·.setCx 0 { Ctx.reset with qops := [qop0 1] })) 0x42; let n : BitVec 14 := 16349; let r : QReq := { qreq 1 16349 with port := 0 }; let en : Bool := true; let rest : List (QReq × Bool) := .nil; let c : Nat := 0; let o : CtxQop := qop0 1; let k : Nat := n.toNat % 16; let i : Instr := .push 16349; s.unitOn (domSlice k) = true ∧ (s.sl k).granted = (r, en) :: rest ∧ r.queue = n.toNat ∧ r.tag = QTag.ctx c o.id ∧ (s.cx c).hold = none ∧ (s.cx c).qops = [o] ∧ o.qop.toNat = r.qop ∧ r.port ≤ 31 ∧ (r.qop, i) ∈ [(1, Instr.push n), (2, Instr.pop n), (3, Instr.peek n), (4, Instr.pushif n), (5, Instr.popif n), (6, Instr.wmarm n)] ∧ 16349 ≤ n.toNat) ∧
    (let s := recs ((State.reset).setSl 12 { Slice.reset with granted := [({ qreq 6 16348 with port := 0 }, false)] } |> (·.setCx 0 { Ctx.reset with qops := [qop0 6] })) 0x42; let n : BitVec 14 := 16348; let r : QReq := { qreq 6 16348 with port := 0 }; let en : Bool := false; let rest : List (QReq × Bool) := .nil; let c : Nat := 0; let o : CtxQop := qop0 6; let k : Nat := n.toNat % 16; let i : Instr := .wmarm 16348; s.unitOn (domSlice k) = true ∧ (s.sl k).granted = (r, en) :: rest ∧ r.queue = n.toNat ∧ r.tag = QTag.ctx c o.id ∧ (s.cx c).hold = none ∧ (s.cx c).qops = [o] ∧ o.qop.toNat = r.qop ∧ r.port ≤ 31 ∧ (r.qop, i) ∈ [(1, Instr.push n), (2, Instr.pop n), (3, Instr.peek n), (4, Instr.pushif n), (5, Instr.popif n), (6, Instr.wmarm n)] ∧ n.toNat < 16349 ∧ en = false) ∧
    (let s := recs ((qOn 16348).setSl 12 { Slice.reset with granted := [({ qreq 2 16348 with port := 0 }, true)] } |> (·.setCx 0 { Ctx.reset with qops := [qop0 2] })) 0x42; let n : BitVec 14 := 16348; let r : QReq := { qreq 2 16348 with port := 0 }; let en : Bool := true; let rest : List (QReq × Bool) := .nil; let c : Nat := 0; let o : CtxQop := qop0 2; let k : Nat := n.toNat % 16; let i : Instr := .pop 16348; s.unitOn (domSlice k) = true ∧ (s.sl k).granted = (r, en) :: rest ∧ r.queue = n.toNat ∧ r.tag = QTag.ctx c o.id ∧ (s.cx c).hold = none ∧ (s.cx c).qops = [o] ∧ o.qop.toNat = r.qop ∧ r.port ≤ 31 ∧ (r.qop, i) ∈ [(1, Instr.push n), (2, Instr.pop n), (3, Instr.peek n), (4, Instr.pushif n), (5, Instr.popif n), (6, Instr.wmarm n)] ∧ 16284 ≤ n.toNat ∧ n.toNat < 16349 ∧ en = true ∧ (r.qop = 2 ∨ r.qop = 3 ∨ r.qop = 5)) ∧
    (let s := recs (((qOn 16255).put (F.QD_CFG_OWN 16255) 31).setSl 15 { Slice.reset with granted := [({ qreq 6 16255 with port := 30 }, true)] } |> (·.setCx 0 { Ctx.reset with qops := [qop0 6] })) 0x42; let n : BitVec 14 := 16255; let r : QReq := { qreq 6 16255 with port := 30 }; let en : Bool := true; let rest : List (QReq × Bool) := .nil; let c : Nat := 0; let o : CtxQop := qop0 6; let k : Nat := n.toNat % 16; let own : Nat := s.get (F.QD_CFG_OWN n.toNat); let i : Instr := .wmarm 16255; s.unitOn (domSlice k) = true ∧ (s.sl k).granted = (r, en) :: rest ∧ r.queue = n.toNat ∧ r.tag = QTag.ctx c o.id ∧ (s.cx c).hold = none ∧ (s.cx c).qops = [o] ∧ o.qop.toNat = r.qop ∧ r.port ≤ 31 ∧ (r.qop, i) ∈ [(1, Instr.push n), (2, Instr.pop n), (3, Instr.peek n), (4, Instr.pushif n), (5, Instr.popif n), (6, Instr.wmarm n)] ∧ n.toNat < 16256 ∧ en = true ∧ own ≤ 31 ∧ own ≠ r.port ∧ (r.qop = 2 ∨ r.qop = 3 ∨ r.qop = 5 ∨ r.qop = 6)) ∧
    (let s := recs (((qOn 16255).put (F.QD_CFG_OWN 16255) 31).setSl 15 { Slice.reset with granted := [({ qreq 4 16255 with port := 30 }, true)] } |> (·.setCx 0 { Ctx.reset with qops := [qop0 4] })) 0x42; let n : BitVec 14 := 16255; let r : QReq := { qreq 4 16255 with port := 30 }; let en : Bool := true; let rest : List (QReq × Bool) := .nil; let c : Nat := 0; let o : CtxQop := qop0 4; let k : Nat := n.toNat % 16; s.unitOn (domSlice k) = true ∧ (s.sl k).granted = (r, en) :: rest ∧ r.queue = n.toNat ∧ r.tag = QTag.ctx c o.id ∧ (s.cx c).hold = none ∧ (s.cx c).qops = [o] ∧ o.qop.toNat = r.qop ∧ r.port ≤ 31 ∧ n.toNat < 16256 ∧ en = true ∧ (r.qop = 1 ∨ r.qop = 4)) ∧
    ((let s := accepted 16255 1 0; let n : BitVec 14 := 16255; let a : QAccess := ⟨qreq 1 16255, 0⟩; let rest : List QAccess := .nil; let c : Nat := 0; let o : CtxQop := qop0 1; let q : Nat := n.toNat; let k : Nat := q % 16; let w : Nat := s.elemWord q a.index; s.unitOn (domSlice k) = true ∧ s.unitOn (domBank (w / 32768)) = true ∧ s.portBWaits (w / 32768) PortBUser.queueManager [w] = false ∧ (s.bk (w / 32768)).march = none ∧ (s.sl k).accesses = a :: rest ∧ a.req.queue = q ∧ a.req.tag = QTag.ctx c o.id ∧ (s.cx c).qops = [o] ∧ o.answer = none ∧ o.qop.toNat = a.req.qop ∧ s.on (F.QD_PTR_ARMED q) = false ∧ s.on (F.BNK_INJ_ARM (w / 32768)) = false ∧ (a.req.qop = 1 ∨ a.req.qop = 4)) ∧
     (let s := accepted 0 2 63; let n : BitVec 14 := 0; let a : QAccess := ⟨qreq 2 0, 63⟩; let rest : List QAccess := .nil; let c : Nat := 0; let o : CtxQop := qop0 2; let q : Nat := n.toNat; let k : Nat := q % 16; let w : Nat := s.elemWord q a.index; s.unitOn (domSlice k) = true ∧ s.unitOn (domBank (w / 32768)) = true ∧ s.portBWaits (w / 32768) PortBUser.queueManager [w] = false ∧ (s.bk (w / 32768)).march = none ∧ (s.sl k).accesses = a :: rest ∧ a.req.queue = q ∧ a.req.tag = QTag.ctx c o.id ∧ (s.cx c).qops = [o] ∧ o.answer = none ∧ o.qop.toNat = a.req.qop ∧ s.on (F.QD_PTR_ARMED q) = false ∧ s.on (F.BNK_INJ_ARM (w / 32768)) = false ∧ secSyndrome (s.arrWord w) = 0 ∧ (a.req.qop = 2 ∨ a.req.qop = 5)) ∧
     (let s := accepted 0 3 0; let n : BitVec 14 := 0; let a : QAccess := ⟨qreq 3 0, 0⟩; let rest : List QAccess := .nil; let c : Nat := 0; let o : CtxQop := qop0 3; let q : Nat := n.toNat; let k : Nat := q % 16; let w : Nat := s.elemWord q a.index; s.unitOn (domSlice k) = true ∧ s.unitOn (domBank (w / 32768)) = true ∧ s.portBWaits (w / 32768) PortBUser.queueManager [w] = false ∧ (s.bk (w / 32768)).march = none ∧ (s.sl k).accesses = a :: rest ∧ a.req.queue = q ∧ a.req.tag = QTag.ctx c o.id ∧ (s.cx c).qops = [o] ∧ o.answer = none ∧ o.qop.toNat = a.req.qop ∧ s.on (F.QD_PTR_ARMED q) = false ∧ s.on (F.BNK_INJ_ARM (w / 32768)) = false ∧ secSyndrome (s.arrWord w) = 0 ∧ a.req.qop = 3) ∧
     (let s := (accepted 0 2 63).setArrWord ((accepted 0 2 63).elemWord 0 63) 3; let n : BitVec 14 := 0; let a : QAccess := ⟨qreq 2 0, 63⟩; let rest : List QAccess := .nil; let c : Nat := 0; let o : CtxQop := qop0 2; let q : Nat := n.toNat; let k : Nat := q % 16; let w : Nat := s.elemWord q a.index; let d : Word := 3#64; s.unitOn (domSlice k) = true ∧ s.unitOn (domBank (w / 32768)) = true ∧ s.portBWaits (w / 32768) PortBUser.queueManager [w] = false ∧ (s.bk (w / 32768)).march = none ∧ (s.sl k).accesses = a :: rest ∧ a.req.queue = q ∧ a.req.tag = QTag.ctx c o.id ∧ (s.cx c).qops = [o] ∧ o.answer = none ∧ o.qop.toNat = a.req.qop ∧ s.on (F.QD_PTR_ARMED q) = false ∧ s.on (F.BNK_INJ_ARM (w / 32768)) = false ∧ secDecode (BitVec.setWidth 64 (s.arrWord w)) (secSyndrome (s.arrWord w)) = (d, SecOut.poisoned) ∧ a.req.qop = 2 ∧ a.req.port < 64)) ∧
    (let s := accepted 0 1 63; let n : BitVec 14 := 0; let a : QAccess := ⟨qreq 1 0, 63⟩; let rest : List QAccess := .nil; let c : Nat := 0; let o : CtxQop := qop0 1; let q : Nat := n.toNat; let k : Nat := q % 16; let w : Nat := s.elemWord q a.index; let up : Bool := true; s.unitOn (domSlice k) = true ∧ s.unitOn (domBank (w / 32768)) = true ∧ s.portBWaits (w / 32768) PortBUser.queueManager [w] = false ∧ (s.bk (w / 32768)).march = none ∧ (s.sl k).accesses = a :: rest ∧ a.req.queue = q ∧ a.req.tag = QTag.ctx c o.id ∧ (s.cx c).qops = [o] ∧ (up = true ∧ (a.req.qop = 1 ∨ a.req.qop = 4) ∨ up = false ∧ (a.req.qop = 2 ∨ a.req.qop = 5))) ∧
    (let s := recs ((((qOn 16255).put (F.QD_PTR_TAIL 16255) 64).setSl 15 { Slice.reset with granted := [({ qreq 1 16255 with strict := true }, true)] }).setCx 0 { Ctx.reset with st := .stall, hold := some ⟨false, true, .cont⟩, qops := [qop0 1] }) 0x18; let n : BitVec 14 := 16255; let r : QReq := { qreq 1 16255 with strict := true }; let en : Bool := true; let b : Bool := false; let rest : List (QReq × Bool) := .nil; let c : Nat := 0; let o : CtxQop := qop0 1; let k : Nat := n.toNat % 16; let x : Ctx := s.cx c; let full : Prop := s.qCap n.toNat ≤ (s.rtail n.toNat + 2 ^ 18 - s.get (F.QD_PTR_HEAD n.toNat)) % 2 ^ 18; s.unitOn (domSlice k) = true ∧ (s.sl k).granted = (r, en) :: rest ∧ r.queue = n.toNat ∧ r.tag = QTag.ctx c o.id ∧ x.hold = some { bank := b, queue := true, follow := Follow.cont } ∧ x.qops = [o] ∧ r.strict = true ∧ x.st ≠ CtxSt.idle ∧ x.st ≠ CtxSt.faulted ∧ s.refusalCause r.port r.qop n.toNat en = 0 ∧ full ∧ r.qop = 1) ∧
    (let s := recs ((((qOn 16255).put (F.QD_PTR_TAIL 16255) 0).setSl 15 { Slice.reset with granted := [({ qreq 2 16255 with strict := true }, true)] }).setCx 0 { Ctx.reset with st := .stall, hold := some ⟨false, true, .cont⟩, qops := [qop0 2] }) 0x18; let n : BitVec 14 := 16255; let r : QReq := { qreq 2 16255 with strict := true }; let en : Bool := true; let b : Bool := false; let rest : List (QReq × Bool) := .nil; let c : Nat := 0; let o : CtxQop := qop0 2; let k : Nat := n.toNat % 16; let x : Ctx := s.cx c; let empty : Prop := (s.get (F.QD_PTR_TAIL n.toNat) + 2 ^ 18 - s.rhead n.toNat) % 2 ^ 18 = 0; s.unitOn (domSlice k) = true ∧ (s.sl k).granted = (r, en) :: rest ∧ r.queue = n.toNat ∧ r.tag = QTag.ctx c o.id ∧ x.hold = some { bank := b, queue := true, follow := Follow.cont } ∧ x.qops = [o] ∧ r.strict = true ∧ x.st ≠ CtxSt.idle ∧ x.st ≠ CtxSt.faulted ∧ s.refusalCause r.port r.qop n.toNat en = 0 ∧ empty ∧ r.qop = 2) ∧
    (let s := recs ((((qOn 16255).put (F.QD_PTR_TAIL 16255) 0).setSl 15 { Slice.reset with granted := [({ qreq 3 16255 with strict := true }, true)] }).setCx 0 { Ctx.reset with st := .stall, hold := some ⟨false, true, .cont⟩, qops := [qop0 3] }) 0x18; let n : BitVec 14 := 16255; let r : QReq := { qreq 3 16255 with strict := true }; let en : Bool := true; let b : Bool := false; let rest : List (QReq × Bool) := .nil; let c : Nat := 0; let o : CtxQop := qop0 3; let k : Nat := n.toNat % 16; let x : Ctx := s.cx c; let empty : Prop := (s.get (F.QD_PTR_TAIL n.toNat) + 2 ^ 18 - s.rhead n.toNat) % 2 ^ 18 = 0; s.unitOn (domSlice k) = true ∧ (s.sl k).granted = (r, en) :: rest ∧ r.queue = n.toNat ∧ r.tag = QTag.ctx c o.id ∧ x.hold = some { bank := b, queue := true, follow := Follow.cont } ∧ x.qops = [o] ∧ r.strict = true ∧ x.st ≠ CtxSt.idle ∧ x.st ≠ CtxSt.faulted ∧ s.refusalCause r.port r.qop n.toNat en = 0 ∧ empty ∧ r.qop = 3) :=
  by refine ⟨?_, ?_, ?_, ?_, ?_, ?_, ?_, ?_, ?_, ?_, ?_, ?_, ?_, ?_, ?_⟩ <;> decide +kernel

theorem witness_QueueDescriptors :
    (let s := State.reset; let n : BitVec 14 := 16255; let value : Word := BitVec.ofNat 64 (0x3FFFF8 + 6 * 2 ^ 24 + 63 * 2 ^ 32 + 2 ^ 63); let q : Nat := n.toNat; let k : Nat := q % 16; let sz : Nat := fld value 24 5; let fits : Prop := fld value 0 22 * 8 % 2 ^ 18 + 2 ^ sz ≤ 2 ^ 18; s.pageUp (domSlice k) = true ∧ s.qdPattern q 0 = 0 ∧ s.qdPattern q 1 = 0 ∧ (s.sl k).reqs = [] ∧ tget (fun x => 0) (s.sl k).since 63 = 0 ∧ s.on F.QMG_LOCK_DESC = false ∧ s.on (F.QD_CFG_EN q) = false ∧ 6 ≤ sz ∧ sz ≤ 20 ∧ (fld value 32 6 < 32 ∨ fld value 32 6 = 63) ∧ fits) ∧
    (let s := State.reset; let n : BitVec 14 := 16255; let value : Word := BitVec.ofNat 64 (0x3FFFF8 + 20 * 2 ^ 24 + 63 * 2 ^ 32 + 2 ^ 63); let q : Nat := n.toNat; let k : Nat := q % 16; let sz : Nat := fld value 24 5; let fits : Prop := fld value 0 22 * 8 % 2 ^ 18 + 2 ^ sz ≤ 2 ^ 18; s.pageUp (domSlice k) = true ∧ s.qdPattern q 0 = 0 ∧ s.qdPattern q 1 = 0 ∧ (s.sl k).reqs = [] ∧ tget (fun x => 0) (s.sl k).since 63 = 0 ∧ s.on F.QMG_LOCK_DESC = false ∧ s.on (F.QD_CFG_EN q) = false ∧ bit value 63 = true ∧ 6 ≤ sz ∧ sz ≤ 20 ∧ ¬fits) ∧
    ((let s := State.reset; let n : BitVec 14 := 16255; let value : Word := BitVec.ofNat 64 (0x3FFFF8 + 6 * 2 ^ 24 + 63 * 2 ^ 32 + 2 ^ 63); let q : Nat := n.toNat; let k : Nat := q % 16; s.pageUp (domSlice k) = true ∧ s.qdPattern q 0 = 0 ∧ s.qdPattern q 1 = 0 ∧ (s.sl k).reqs = [] ∧ tget (fun x => 0) (s.sl k).since 63 = 0 ∧ s.on F.QMG_LOCK_DESC = false ∧ s.on (F.QD_CFG_EN q) = false ∧ s.qBusy q = false ∧ bit value 54 = false ∧ bit value 55 = false) ∧
     (let s := State.reset.put F.QMG_LOCK_DESC 1; let n : BitVec 14 := 0; let q : Nat := n.toNat; let k : Nat := q % 16; s.pageUp (domSlice k) = true ∧ s.qdPattern q 0 = 0 ∧ s.qdPattern q 1 = 0 ∧ (s.sl k).reqs = [] ∧ tget (fun x => 0) (s.sl k).since 63 = 0 ∧ s.on F.QMG_LOCK_DESC = true) ∧
     (let s := qOn 0; let n : BitVec 14 := 0; let value : Word := 1; let q : Nat := n.toNat; let k : Nat := q % 16; s.pageUp (domSlice k) = true ∧ s.qdPattern q 0 = 0 ∧ s.qdPattern q 1 = 0 ∧ (s.sl k).reqs = [] ∧ tget (fun x => 0) (s.sl k).since 63 = 0 ∧ s.on F.QMG_LOCK_DESC = false ∧ s.on (F.QD_CFG_EN q) = true ∧ fld value 0 36 ≠ fld (s.reg (R.QD_PTR q)) 0 36)) ∧
    ((let s := qOn 16255; let n : BitVec 14 := 16255; let ptr : Bool := true; let q : Nat := n.toNat; let k : Nat := q % 16; let p : BitVec 72 := s.qdPattern q (b2n ptr); s.pageUp (domSlice k) = true ∧ (s.sl k).reqs = [] ∧ tget (fun x => 0) (s.sl k).since 63 = 0 ∧ p = 0) ∧
     (let s : State := { State.reset with qdErr := [(30, 1)] }; let n : BitVec 14 := 15; let ptr : Bool := false; let q : Nat := n.toNat; let k : Nat := q % 16; let p : BitVec 72 := s.qdPattern q (b2n ptr); let d : Word := 0#64; s.pageUp (domSlice k) = true ∧ (s.sl k).reqs = [] ∧ tget (fun x => 0) (s.sl k).since 63 = 0 ∧ secDecode (BitVec.setWidth 64 p) (secSyndrome p) = (d, SecOut.corrected) ∧ p ≠ 0) ∧
     (let s := recs { State.reset with qdErr := [(30, 3)] } 0x44; let n : BitVec 14 := 15; let ptr : Bool := false; let q : Nat := n.toNat; let k : Nat := q % 16; let p : BitVec 72 := s.qdPattern q (b2n ptr); s.pageUp (domSlice k) = true ∧ (s.sl k).reqs = [] ∧ tget (fun x => 0) (s.sl k).since 63 = 0 ∧ (secDecode (BitVec.setWidth 64 p) (secSyndrome p)).snd = SecOut.poisoned)) ∧
    (let s : State := { State.reset.setSl 15 { Slice.reset with wback := [(15, false)] } with qdErr := [(30, 1)] }; let k : Fin 16 := 15; let n : Nat := 15; let ptr : Bool := false; let rest : List (Nat × Bool) := .nil; let d : Word := 0; s.unitOn (domSlice ↑k) = true ∧ (s.sl ↑k).wback = (n, ptr) :: rest ∧ secDecode (BitVec.setWidth 64 (s.qdPattern n (b2n ptr))) (secSyndrome (s.qdPattern n (b2n ptr))) = (d, SecOut.corrected)) :=
  by refine ⟨?_, ?_, ?_, ?_, ?_⟩ <;> decide +kernel

theorem witness_BeamTicks :
    ((let s := State.reset; s.unitOn domTimer = false ∨ s.beamRun = false) ∧
     (let s := beamAt 7 1 14; s.unitOn domTimer = true ∧ s.beamRun = true ∧ s.beam.coarse = none ∧ s.rho.frameFix = none)) ∧
    (let acc : Nat := 9; let q : Nat := 10; acc < q) ∧
    ((let s := ((((((((beamAt 0 1 15).setReg R.BEAM_EVEN 0xFFFFFFFFFFFFFFFF).put F.BEAM_HACT_HAE 16).put F.BEAM_VACT_VAE 2).put (F.BEAM_BCMP_MODE 31) 3).put (F.BEAM_BCMP_MODE 0) 1).put (F.BEAM_BCMP_MODE 1) 2)); s.unitOn domTimer = true ∧ s.beamRun = true ∧ s.beam.coarse = none ∧ s.rho.frameFix = none ∧ s.beam.heldGeom = none ∧ s.beam.heldHact = none ∧ s.beam.heldVact = none ∧ s.beam.heldSync = none) ∧
     (let s := ((((((beamAt 0 1 15).setReg R.BEAM_EVEN 0xFFFFFFFFFFFFFFFF).put F.BEAM_HACT_HAE 16).put F.BEAM_VACT_VAE 2).put (F.BEAM_BCMP_MODE 31) 3).put (F.BEAM_BCMP_MODE 0) 1).put (F.BEAM_BCMP_MODE 1) 2; s.hTotal = s.beam.tick + 1 ∧ s.vTotal = s.beam.line + 1 ∧ s.on F.BEAM_EVEN_LS = true ∧ s.on F.BEAM_EVEN_FS = true ∧ s.on F.BEAM_EVEN_HAB = true ∧ s.on F.BEAM_EVEN_HAE = true ∧ s.on F.BEAM_EVEN_VAB = true ∧ s.on F.BEAM_EVEN_VAE = true ∧ s.get F.BEAM_HACT_HAS = 0 ∧ s.get F.BEAM_HACT_HAE = s.hTotal ∧ s.get F.BEAM_VACT_VAS = 0 ∧ s.get F.BEAM_VACT_VAE = s.vTotal ∧ (s.get F.BEAM_EVEN_DL).testBit 15 = true ∧ s.get (F.BEAM_BCMP_MODE 0) = 1 ∧ s.get (F.BEAM_BCMP_MODE 1) = 2 ∧ s.get (F.BEAM_BCMP_MODE 31) = 3 ∧ fld (s.reg (R.BEAM_BCMP 31)) 16 14 = 0 ∧ fld (s.reg (R.BEAM_BCMP 31)) 0 14 = 0)) :=
  by refine ⟨?_, ?_, ?_⟩ <;> decide +kernel

theorem witness_BeamCommands :
    ((let s := State.reset; s.pageUp domTimer = true ∧ s.beamRun = false) ∧
     (let s : State := { beamAt 5 1 3 with rho := { Rho.reset with frameFix := some 9 } }; s.pageUp domTimer = true ∧ s.beamRun = true)) ∧
    (let s := State.reset; let value : Word := 0x4000000; let which : GeomReg := .geom; let v : Word := geomMask which value; let ok : Prop := which = GeomReg.sync ∨ geomOk (if which = GeomReg.geom then v else s.geomNext GeomReg.geom) (if which = GeomReg.hact then v else s.geomNext GeomReg.hact) (if which = GeomReg.vact then v else s.geomNext GeomReg.vact) = true; s.pageUp domTimer = true ∧ ¬ok) ∧
    (let s := State.reset; let value : Word := 0x3FFF3FFF; let which : GeomReg := .geom; let v : Word := geomMask which value; let ok : Prop := which = GeomReg.sync ∨ geomOk (if which = GeomReg.geom then v else s.geomNext GeomReg.geom) (if which = GeomReg.hact then v else s.geomNext GeomReg.hact) (if which = GeomReg.vact then v else s.geomNext GeomReg.vact) = true; s.pageUp domTimer = true ∧ ok ∧ s.beamRun = false) ∧
    (let s := beamAt 0 0 0; let value : Word := 5; let which : GeomReg := .sync; let v : Word := geomMask which value; let ok : Prop := which = GeomReg.sync ∨ geomOk (if which = GeomReg.geom then v else s.geomNext GeomReg.geom) (if which = GeomReg.hact then v else s.geomNext GeomReg.hact) (if which = GeomReg.vact then v else s.geomNext GeomReg.vact) = true; s.pageUp domTimer = true ∧ ok ∧ s.beamRun = true) ∧
    ((let s := State.reset; let value : Word := 0x4000000; s.pageUp domTimer = true ∧ 4 ≤ fld value 24 16) ∧
     (let s := State.reset; s.pageUp domTimer = true ∧ s.beamRun = false) ∧
     (let s := State.reset; let value : Word := 0x3FFFFFF; s.pageUp domTimer = true ∧ fld value 24 16 < 4) ∧
     (let s := beamAt 0 0 0; s.pageUp domTimer = true ∧ s.beamRun = true)) :=
  by refine ⟨?_, ?_, ?_, ?_, ?_⟩ <;> decide +kernel

theorem witness_Timers :
    (let s := (timerOn 255).put (F.TMR_COUNT_COUNT 255) 8; let t : Fin 256 := 255; let c : Nat := s.get (F.TMR_COUNT_COUNT ↑t); let src : Nat := s.get (F.TMR_CFG_SRC ↑t); let comes : Prop := src ≤ 1 ∨ 2 ≤ src ∧ src ≤ 4 ∧ 0 < (s.tm ↑t).due; 4 ≤ ↑t ∧ s.unitOn domTimer = true ∧ (s.tm ↑t).mev = 0 ∧ (s.tm ↑t).caps = [] ∧ s.tmRunning ↑t = true ∧ comes ∧ c < s.get (F.TMR_TOP_TOP ↑t)) ∧
    (let s := ((timerOn 4).put (F.TMR_COUNT_COUNT 4) 9).put (F.TMR_CFG_ONESHOT 4) 1; let t : Fin 256 := 4; let c : Nat := s.get (F.TMR_COUNT_COUNT ↑t); let src : Nat := s.get (F.TMR_CFG_SRC ↑t); let comes : Prop := src ≤ 1 ∨ 2 ≤ src ∧ src ≤ 4 ∧ 0 < (s.tm ↑t).due; 4 ≤ ↑t ∧ s.unitOn domTimer = true ∧ (s.tm ↑t).mev = 0 ∧ (s.tm ↑t).caps = [] ∧ s.tmRunning ↑t = true ∧ comes ∧ c = s.get (F.TMR_TOP_TOP ↑t)) ∧
    ((let s := ((timerOn 4).put (F.TMR_CFG_SRC 4) 3); let t : Fin 256 := 4; let src : Nat := s.get (F.TMR_CFG_SRC ↑t); 4 ≤ ↑t ∧ s.unitOn domTimer = true ∧ (s.tm ↑t).mev = 0 ∧ (s.tm ↑t).caps = [] ∧ s.tmRunning ↑t = true ∧ 2 ≤ src ∧ src ≤ 4 ∧ (s.tm ↑t).due = 0) ∧
     (let s := State.reset; let t : Fin 256 := 4; 4 ≤ ↑t ∧ s.unitOn domTimer = true ∧ (s.tm ↑t).mev = 0 ∧ (s.tm ↑t).caps = [] ∧ s.tmRunning ↑t = false)) ∧
    ((let s := State.reset; let t : Fin 256 := 255; s.pageUp domTimer = true ∧ 4 ≤ ↑t ∧ (s.tm ↑t).due = 0 ∧ (s.tm ↑t).mev = 0) ∧
     (let s := State.reset; let t : Fin 256 := 255; s.pageUp domTimer = true ∧ s.tmEn ↑t = false) ∧
     (let s := State.reset; let t : Fin 256 := 1; s.pageUp domTimer = true ∧ ↑t ≤ 1) ∧
     (let s : State := { State.reset with beam := { Beam.reset with frame := 2 ^ 63 + 5 } }; let t : Fin 256 := 2; s.pageUp domTimer = true ∧ ↑t = 2 ∧ s.beamRun = false) ∧
     (let s := timerOn 4; let t : Fin 256 := 4; s.pageUp domTimer = true ∧ s.tmEn ↑t = true ∧ s.on (F.TMR_CFG_CMPIMM ↑t) = false) ∧
     (let s : State := { State.reset with beam := { Beam.reset with frame := 2 ^ 63 + 5 } }; let t : Fin 256 := 3; s.pageUp domTimer = true ∧ ↑t = 3 ∧ s.beamRun = false)) ∧
    ((let s := beamAt 5 0 0; let t : Fin 256 := 3; s.pageUp domTimer = true ∧ (↑t = 2 ∨ ↑t = 3) ∧ s.beamRun = true) ∧
     (let s := ((timerOn 4).put (F.TMR_CFG_SRC 4) 2).setTm 4 { Timer.reset with due := 3 }; let t : Fin 256 := 4; s.pageUp domTimer = true ∧ 4 ≤ ↑t ∧ 0 < (s.tm ↑t).due ∧ (s.tm ↑t).mev = 0 ∧ (s.tm ↑t).caps = []) ∧
     (let s := ((timerOn 4).put (F.TMR_CFG_CMPIMM 4) 1).put (F.TMR_COUNT_COUNT 4) 8; let t : Fin 256 := 4; s.pageUp domTimer = true ∧ s.tmEn ↑t = true ∧ s.on (F.TMR_CFG_CMPIMM ↑t) = true ∧ s.on (F.TMR_CFG_AUTOADD ↑t) = false)) ∧
    ((let s := State.reset.setTm 0 { Timer.reset with acts := [(1, 255)] }; let t : Fin 256 := 0; let a : Fin 256 := 255; let rest : List (Nat × Nat) := .nil; s.unitOn domTimer = true ∧ a ≠ t ∧ 4 ≤ ↑a ∧ (s.tm ↑t).acts = (1, ↑a) :: rest ∧ s.on (F.TMR_CFG_EN ↑a) = false) ∧
     (let s := State.reset.setTm 0 { Timer.reset with acts := [(2, 4)] }; let t : Fin 256 := 0; let a : Fin 256 := 4; let rest : List (Nat × Nat) := .nil; s.unitOn domTimer = true ∧ a ≠ t ∧ 4 ≤ ↑a ∧ (s.tm ↑t).acts = (2, ↑a) :: rest) ∧
     (let s := State.reset.setTm 255 { Timer.reset with acts := [(4, 4), (1, 5)] }; let t : Fin 256 := 255; let a : Fin 256 := 4; let rest : List (Nat × Nat) := [(1, 5)]; s.unitOn domTimer = true ∧ a ≠ t ∧ 4 ≤ ↑a ∧ (s.tm ↑t).acts = (4, ↑a) :: rest)) ∧
    (let s := (State.reset.put (F.TMR_CFG_GSARM 255) 1).put (F.TMR_CFG_GSGRP 255) 7; let t : Fin 256 := 255; s.pwr.running = true ∧ s.domState 0 = 0 ∧ s.unitOn domTimer = true ∧ 4 ≤ ↑t ∧ s.on F.BEAM_CTRL_GSARM = false) ∧
    ((let s := ((State.reset.put (F.PWR_KCTRL_KEN 7) 1).put (F.PWR_KCOUNT_KCOUNT 7) 0xFFFFFFFF).put (F.PWR_KCMP_KCMP 7) 0; let k : Fin 8 := 7; s.pwr.krstLow = false ∧ s.pwr.rstLow = false ∧ s.on (F.PWR_KCTRL_KSRC ↑k) = false ∧ s.kt ↑k = Keeper.reset ∧ s.on (F.PWR_KCTRL_KEN ↑k) = true) ∧
     (let s := State.reset; let k : Fin 8 := 0; s.pwr.krstLow = false ∧ s.pwr.rstLow = false ∧ s.on (F.PWR_KCTRL_KSRC ↑k) = false ∧ s.kt ↑k = Keeper.reset ∧ s.on (F.PWR_KCTRL_KEN ↑k) = false) ∧
     (let s := State.reset.setKt 0 ⟨some 0xFFFFFFFF, none⟩; let k : Fin 8 := 0; let v : Nat := 0xFFFFFFFF; s.pwr.krstLow = false ∧ s.pwr.rstLow = false ∧ s.on (F.PWR_KCTRL_KSRC k) = false ∧ v < 2 ^ 32 ∧ s.kt k = ⟨some v, none⟩)) ∧
    (let s := (((timerOn 4).put (F.TMR_CFG_SRC 4) 4).put (F.TMR_CFG_EVSRC 4) 0x3FF); let line : Nat := 0x3FF; let t : Nat := 4; let counts : Prop := 4 ≤ t ∧ s.get (F.TMR_CFG_SRC t) = 4 ∧ s.get (F.TMR_CFG_EVSRC t) = line ∧ s.tmRunning t = true; t < 256 ∧ counts) ∧
    (let s := (((timerOn 4).put (F.TMR_CFG_SRC 4) 4).put (F.TMR_CFG_EVSRC 4) 0x3FF); let line : Nat := 0x3FF; let t : Nat := 4; let captures : Prop := s.on (F.TMR_CFG_CAPEN t) = true ∧ s.get (F.TMR_AUX_CAPEV t) = line; t < 256 ∧ ¬captures) ∧
    (let s := ((timerOn 4).put (F.TMR_AUX_CAPEV 4) 0x3FF).put (F.TMR_CFG_CAPEN 4) 1; let line : Nat := 0x3FF; let t : Nat := 4; let counts : Prop := 4 ≤ t ∧ s.get (F.TMR_CFG_SRC t) = 4 ∧ s.get (F.TMR_CFG_EVSRC t) = line ∧ s.tmRunning t = true; t < 256 ∧ ¬counts) ∧
    (let s := ((timerOn 4).put (F.TMR_AUX_CAPEV 4) 0x3FF).put (F.TMR_CFG_CAPEN 4) 1; let line : Nat := 0x3FF; let t : Nat := 4; let counts : Prop := 4 ≤ t ∧ s.get (F.TMR_CFG_SRC t) = 4 ∧ s.get (F.TMR_CFG_EVSRC t) = line ∧ s.tmRunning t = true; let captures : Prop := s.on (F.TMR_CFG_CAPEN t) = true ∧ s.get (F.TMR_AUX_CAPEV t) = line; t < 256 ∧ captures ∧ ¬counts) ∧
    (let s := ((((timerOn 4).put (F.TMR_AUX_CAPEV 4) 0x3FF).put (F.TMR_CFG_CAPEN 4) 1).put (F.TMR_TSTAT_CAPF 4) 1); let line : Nat := 0x3FF; let t : Nat := 4; let counts : Prop := 4 ≤ t ∧ s.get (F.TMR_CFG_SRC t) = 4 ∧ s.get (F.TMR_CFG_EVSRC t) = line ∧ s.tmRunning t = true; let captures : Prop := s.on (F.TMR_CFG_CAPEN t) = true ∧ s.get (F.TMR_AUX_CAPEV t) = line; t < 256 ∧ captures ∧ ¬counts ∧ s.on (F.TMR_TSTAT_CAPF t) = true) ∧
    (let s := ((((timerOn 255).put (F.TMR_AUX_CAPEV 255) 0x3FF).put (F.TMR_CFG_CAPEN 255) 1).put (F.TMR_CFG_SRC 255) 4).put (F.TMR_CFG_EVSRC 255) 0x3FF; let line : Nat := 0x3FF; let t : Nat := 255; let counts : Prop := 4 ≤ t ∧ s.get (F.TMR_CFG_SRC t) = 4 ∧ s.get (F.TMR_CFG_EVSRC t) = line ∧ s.tmRunning t = true; let captures : Prop := s.on (F.TMR_CFG_CAPEN t) = true ∧ s.get (F.TMR_AUX_CAPEV t) = line; t < 256 ∧ captures ∧ counts) ∧
    ((let s := (((timerOn 4).put (F.TMR_CFG_SRC 4) 2).put (F.TMR_CFG_SLV 4) 1).put (F.TMR_TSTAT_WAITING 4) 1 |> (·.setTm 4 { Timer.reset with mev := 2 }); let t : Fin 256 := 4; let slv : Nat := s.get (F.TMR_CFG_SLV ↑t); 4 ≤ ↑t ∧ s.unitOn domTimer = true ∧ 0 < (s.tm ↑t).mev ∧ s.on (F.TMR_CFG_EN ↑t) = true ∧ s.get (F.TMR_CFG_SRC ↑t) ∈ [2, 3, 4] ∧ (s.tm ↑t).due = 0 ∧ slv = 1 ∧ s.on (F.TMR_TSTAT_WAITING ↑t) = true) ∧
     (let s := ((((timerOn 4).put (F.TMR_CFG_SRC 4) 2).put (F.TMR_CFG_SLV 4) 2).put (F.TMR_COUNT_COUNT 4) 7) |> (·.setTm 4 { Timer.reset with mev := 1 }); let t : Fin 256 := 4; let slv : Nat := s.get (F.TMR_CFG_SLV ↑t); 4 ≤ ↑t ∧ s.unitOn domTimer = true ∧ 0 < (s.tm ↑t).mev ∧ s.on (F.TMR_CFG_EN ↑t) = true ∧ s.get (F.TMR_CFG_SRC ↑t) ∈ [2, 3, 4] ∧ (s.tm ↑t).due = 0 ∧ slv = 2) ∧
     (let s := (((timerOn 255).put (F.TMR_CFG_SRC 255) 4).put (F.TMR_CFG_SLV 255) 3) |> (·.setTm 255 { Timer.reset with mev := 1 }); let t : Fin 256 := 255; let slv : Nat := s.get (F.TMR_CFG_SLV ↑t); 4 ≤ ↑t ∧ s.unitOn domTimer = true ∧ 0 < (s.tm ↑t).mev ∧ s.on (F.TMR_CFG_EN ↑t) = true ∧ s.get (F.TMR_CFG_SRC ↑t) ∈ [2, 3, 4] ∧ (s.tm ↑t).due = 0 ∧ slv = 3) ∧
     (let s := ((((timerOn 255).put (F.TMR_CFG_SRC 255) 3).put (F.TMR_CFG_SLV 255) 4)).put (F.TMR_TSTAT_WAITING 255) 1 |> (·.setTm 255 { Timer.reset with mev := 1 }); let t : Fin 256 := 255; let slv : Nat := s.get (F.TMR_CFG_SLV ↑t); 4 ≤ ↑t ∧ s.unitOn domTimer = true ∧ 0 < (s.tm ↑t).mev ∧ s.on (F.TMR_CFG_EN ↑t) = true ∧ s.get (F.TMR_CFG_SRC ↑t) ∈ [2, 3, 4] ∧ (s.tm ↑t).due = 0 ∧ slv = 4 ∧ s.on (F.TMR_TSTAT_WAITING ↑t) = true) ∧
     (let s := ((timerOn 255).put (F.TMR_CFG_SRC 255) 4).setTm 255 { Timer.reset with due := 1, caps := [1] }; let t : Nat := 255; let c : Fin 256 := 255; t < 256 ∧ ↑c = t ∧ 4 ≤ t ∧ s.unitOn domTimer = true ∧ s.get (F.TMR_CFG_SRC t) = 4 ∧ s.tmRunning t = true ∧ (s.tm t).mev = 0 ∧ (s.tm t).due = 1 ∧ (s.tm t).caps = [1] ∧ s.get (F.TMR_COUNT_COUNT t) < s.get (F.TMR_TOP_TOP t))) :=
  by refine ⟨?_, ?_, ?_, ?_, ?_, ?_, ?_, ?_, ?_, ?_, ?_, ?_, ?_, ?_, ?_⟩ <;> decide +kernel

theorem witness_DmaSets :
    (let a : Word := 0x2000000; bit a 63 = false ∧ 2 ^ 25 ≤ BitVec.toNat a ∧ (∀ (q : Nat), q < 16384 → BitVec.toNat a ≠ 2 ^ 32 + 8 * q) ∧ ∀ (e : Nat), e < 64 → BitVec.toNat a ≠ 2 ^ 33 + 8 * e) ∧
    ((let a : Word := 0x8000000000000000; bit a 63 = true) ∧
     (let a : Word := 0x1FFFFFF; BitVec.toNat a < 2 ^ 25) ∧
     (let a : Word := 0x10001FFF8; let q : Nat := 16383; q < 16384 ∧ BitVec.toNat a = 2 ^ 32 + 8 * q) ∧
     (let a : Word := 0x2000001F0; let e : Nat := 31; e < 32 ∧ BitVec.toNat a = 2 ^ 33 + 16 * e) ∧
     (let a : Word := 0x2000001F8; let e : Nat := 31; e < 32 ∧ BitVec.toNat a = 2 ^ 33 + 16 * e + 8)) ∧
    ((let c : DCfg := ⟨0, 63, .host, .bank, 0, false, 100⟩; let left : Nat := 64; 0 < left ∧ 0 < c.remain) ∧
     (let c : DCfg := ⟨0, 63, .host, .bank, 0, false, 100⟩; c.pd.fixed = false ∧ c.down = false) ∧
     (let c : DCfg := ⟨0, 1, .host, .bank, 0, true, 100⟩; let left : Nat := 128; let len : Nat := c.burstLen left; c.pd.fixed = false ∧ c.down = true ∧ 0 < len)) ∧
    ((let p : EndPt := .tx 5; let clog : Nat := 24; clog ≤ 24 ∧ p.fixed = true) ∧
     (let p : EndPt := .bank; let circ : Bool := true; let clog : Nat := 24; clog ≤ 24 ∧ p.fixed = false ∧ circ = true) ∧
     (let p : EndPt := .host; let circ : Bool := false; let clog : Nat := 0; clog ≤ 24 ∧ p.fixed = false ∧ circ = false)) ∧
    (let s := ((State.reset.setReg (R.DMA_SRC 63 1) 0x8000000000000000).setReg (R.DMA_DST 63 1) 8).put (F.DMA_COUNT_COUNT 63 1) 64; let n : Fin 64 := 63; let setB : Bool := true; let ctl : BitVec 64 := BitVec.ofNat 64 (1 + 24 * 2 ^ 30); let k : Nat := b2n setB; let go : Prop := bit ctl 0 = true ∧ s.on (F.DMA_CTL_RUN (↑n) k) = false ∧ s.setOk (↑n) k ctl = true; s.pageUp (domDma ↑n) = true ∧ go ∧ (s.dmaState ↑n = 0 ∨ s.dmaState ↑n = 3 ∧ k ≠ s.curSet ↑n)) ∧
    (let s := (((chan 0 2 8 0 0 1).setReg (R.DMA_SRC 0 1) 0x8000000000000000).setReg (R.DMA_DST 0 1) 8).put (F.DMA_COUNT_COUNT 0 1) 64; let n : Fin 64 := 0; let setB : Bool := true; let ctl : BitVec 64 := BitVec.ofNat 64 (1 + 3 * 2 ^ 30); let k : Nat := b2n setB; let go : Prop := bit ctl 0 = true ∧ s.on (F.DMA_CTL_RUN (↑n) k) = false ∧ s.setOk (↑n) k ctl = true; s.pageUp (domDma ↑n) = true ∧ go ∧ s.dmaState ↑n ≠ 0 ∧ s.dmaState ↑n ≠ 3 ∧ s.setBusy (↑n) k = false) ∧
    ((let s := State.reset; let n : Fin 64 := 0; let setB : Bool := false; let ctl : BitVec 64 := BitVec.ofNat 64 (1 + 2 * 2 ^ 30); let k : Nat := b2n setB; s.pageUp (domDma ↑n) = true ∧ (s.setBusy (↑n) k = true ∨ bit ctl 0 = true ∧ s.on (F.DMA_CTL_RUN (↑n) k) = false ∧ s.setOk (↑n) k ctl = false)) ∧
     (let s := State.reset; let n : Fin 64 := 63; let setB : Bool := true; let ctl : BitVec 64 := BitVec.ofNat 64 (2 ^ 41 + 24 * 2 ^ 30 + 6 * 2 ^ 8 + 0xC7F * 2 ^ 18); let k : Nat := b2n setB; s.pageUp (domDma ↑n) = true ∧ bit ctl 0 = false ∧ s.on (F.DMA_CTL_RUN (↑n) k) = false ∧ s.setBusy (↑n) k = false ∧ fld ctl 16 2 ≠ 3 ∧ fld ctl 18 12 < 3200 ∧ 3 ≤ fld ctl 30 5 ∧ fld ctl 30 5 ≤ 24 ∧ 6 ≤ fld ctl 8 5 ∧ fld ctl 8 5 ≤ 24)) ∧
    (let s := (chan 63 2 0 0 0 0x11).put (F.DMA_STATUS_STOPPING 63) 1; let n : Fin 64 := 63; s.unitOn (domDma ↑n) = true ∧ (s.dmaState ↑n = 1 ∨ s.dmaState ↑n = 2) ∧ s.dRemain ↑n = 0 ∧ (s.dm ↑n).burst = none ∧ ∀ (b : Nat × Bank), b ∈ s.bnk → ∀ (p : WStep), p ∈ b.snd.wsteps → p.chan ≠ some n.val) ∧
    (let s := State.reset; let n : Fin 64 := 63; let halts : Prop := s.dmaState ↑n = 0 ∨ s.dmaState ↑n = 3 ∨ s.dmaState ↑n = 5; s.pageUp (domDma ↑n) = true ∧ halts) ∧
    (let s := chan 0 2 4 0 0 1; let n : Fin 64 := 0; let halts : Prop := s.dmaState ↑n = 0 ∨ s.dmaState ↑n = 3 ∨ s.dmaState ↑n = 5; s.pageUp (domDma ↑n) = true ∧ ¬halts) ∧
    ((let s := State.reset; let n : Fin 64 := 63; s.pageUp (domDma ↑n) = true ∧ (s.dm ↑n).burst = none) ∧
     (let s := State.reset; let n : Fin 64 := 63; s.pageUp (domDma ↑n) = true ∧ s.dmaState ↑n ≠ 5) ∧
     (let s := State.reset; let n : Fin 64 := 63; s.pageUp (domDma ↑n) = true) ∧
     (let s := atHost 0 2 true; let n : Fin 64 := 0; s.pageUp (domDma ↑n) = true ∧ (s.dm ↑n).burst ≠ none) ∧
     (let s := chan 63 5 4 0 0 1; let n : Fin 64 := 63; s.pageUp (domDma ↑n) = true ∧ s.dmaState ↑n = 5)) :=
  by
    refine ⟨by
      refine ⟨by decide +kernel, by decide +kernel, fun q _ => ?_, fun e _ => ?_⟩ <;>
        (have h : (0x2000000 : Word).toNat = 33554432 := by decide +kernel) <;> omega, ?_, ?_, ?_, ?_, ?_, ?_, ?_, ?_, ?_, ?_⟩ <;> decide +kernel

theorem witness_DmaBursts :
    ((let s := ((chan 63 2 4 0 0 0x10001).put (F.DMA_STATUS_PREQ 63) 14).setTm 255 { Timer.reset with acts := [(3, 63)] }; let t : Fin 256 := 255; let n : Fin 64 := 63; let rest : List (Nat × Nat) := .nil; let p : Nat := s.get (F.DMA_STATUS_PREQ ↑n); (s.tm ↑t).acts = (3, ↑n) :: rest ∧ s.dPace ↑n = 1 ∧ s.dmaState ↑n ≠ 1 ∧ p < 15) ∧
     (let s := ((chan 63 2 4 0 0 0x10001).put (F.DMA_STATUS_PREQ 63) 15).setTm 255 { Timer.reset with acts := [(3, 63)] }; let t : Fin 256 := 255; let n : Fin 64 := 63; let rest : List (Nat × Nat) := .nil; let p : Nat := s.get (F.DMA_STATUS_PREQ ↑n); (s.tm ↑t).acts = (3, ↑n) :: rest ∧ s.dPace ↑n = 1 ∧ p = 15) ∧
     (let s := ((chan 63 1 4 0 0 0x10001).put (F.DMA_STATUS_PREQ 63) 14).setTm 255 { Timer.reset with acts := [(3, 63)] }; let t : Fin 256 := 255; let n : Fin 64 := 63; let rest : List (Nat × Nat) := .nil; let p : Nat := s.get (F.DMA_STATUS_PREQ ↑n); (s.tm ↑t).acts = (3, ↑n) :: rest ∧ s.dPace ↑n = 1 ∧ s.dmaState ↑n = 1 ∧ s.dRemain ↑n ≠ 0 ∧ s.unitOn (domDma ↑n) = true ∧ p < 15) ∧
     (let s := ((chan 63 1 4 0 0 0x20001).put (F.DMA_STATUS_PREQ 63) 14).setTm 255 { Timer.reset with acts := [(3, 63)] }; let t : Fin 256 := 255; let n : Fin 64 := 63; let rest : List (Nat × Nat) := .nil; (s.tm ↑t).acts = (3, ↑n) :: rest ∧ s.dPace ↑n ≠ 1)) ∧
    ((let s := (State.reset.setDom (domDma 63) 1); let n : Fin 64 := 63; s.unitOn (domDma ↑n) = false) ∧
     (let s := (State.reset.setDom (domDma 63) 1); let n : Fin 64 := 63; (s.dm ↑n).burst = none ∧ s.dmaChoice (↑n / 8) ≠ some n.val) ∧
     (let s := (chan 63 2 4 (BitVec.ofNat 64 (2 ^ 33 + 16 * 31 + 8)) (BitVec.ofNat 64 (2 ^ 33)) (BitVec.ofNat 64 (1 + 3 * 2 ^ 30))).setEn 31 { Engine.reset with rxq := [7] }; let n : Fin 64 := 63; let e : Fin 32 := 31; let f : Fin 32 := 0; let v : BitVec 32 := 7; let rest : List (BitVec 32) := .nil; (s.dm ↑n = { Dma.reset with stepLeft := 4 }) ∧ s.dmaChoice (↑n / 8) = some n.val ∧ s.inFlight (↑n / 8) < 4 ∧ s.dmaState ↑n = 2 ∧ s.dPace ↑n = 0 ∧ s.dRemain ↑n = 4 ∧ s.dDown ↑n = false ∧ s.reg (R.DMA_CURSRC ↑n) = BitVec.ofNat 64 (2 ^ 33 + 16 * ↑e + 8) ∧ s.reg (R.DMA_CURDST ↑n) = BitVec.ofNat 64 (2 ^ 33 + 16 * ↑f) ∧ s.unitOn (domPio ↑e) = true ∧ s.unitOn (domPio ↑f) = true ∧ s.get (F.PIO_SHIFTCFG_JOIN ↑e) ≠ 1 ∧ (s.en ↑e).rxq = v :: rest ∧ (s.en ↑f).txq.length < s.txCap ↑f) ∧
     (let s := ((chan 63 2 8 0x1FFFFF8 0x40000 1).setArrWord 4194303 (secEncode 77)).setDm 63 { Dma.reset with stepLeft := 8 }; let n : Fin 64 := 63; let a : Nat := 4194303; let b : Nat := 32768; a < 2 ^ 22 ∧ b < 2 ^ 22 ∧ a / 32768 ≠ b / 32768 ∧ (s.dm ↑n = { Dma.reset with stepLeft := 8 }) ∧ s.dmaChoice (↑n / 8) = some n.val ∧ s.inFlight (↑n / 8) < 4 ∧ s.dmaState ↑n = 2 ∧ s.dPace ↑n = 0 ∧ s.dRemain ↑n = 8 ∧ s.dDown ↑n = false ∧ s.reg (R.DMA_CURSRC ↑n) = BitVec.ofNat 64 (8 * a) ∧ s.reg (R.DMA_CURDST ↑n) = BitVec.ofNat 64 (8 * b) ∧ (∀ (w : Nat), w ∈ [a, b] → s.get (F.BNK_OWN_OWNER (w / 32768)) ≠ 32 ∧ (s.bk (w / 32768)).march = none ∧ s.dmaBankReady w = true) ∧ secSyndrome (s.arrWord a) = 0 ∧ s.on (F.BNK_INJ_ARM (b / 32768)) = false)) ∧
    (let s : State := { chan 0 2 8 (2 ^ 63) (2 ^ 63 + 56) 1 with hm := ⟨1, [], 0⟩ }; let n : Fin 64 := 0; let tag : Fin 32 := 0; let alone : Prop := ∀ (m : Nat), m < 64 → m / 8 ≠ ↑n / 8 → s.hmPresents m = false; let src : Word := s.reg (R.DMA_CURSRC ↑n); let dst : Word := s.reg (R.DMA_CURDST ↑n); (s.dm ↑n = { Dma.reset with stepLeft := 8 }) ∧ s.dmaChoice (↑n / 8) = some n.val ∧ s.inFlight (↑n / 8) < 4 ∧ s.dmaState ↑n = 2 ∧ s.dPace ↑n = 0 ∧ s.dRemain ↑n = 8 ∧ s.dDown ↑n = false ∧ bit src 63 = true ∧ endPt dst = EndPt.host ∧ BitVec.toNat dst % 64 ≤ 56 ∧ s.unitOn domBnd = true ∧ s.hm.credits ≠ 0 ∧ s.freeTag ↑n = some tag.val ∧ alone) ∧
    (let s := atHost 0 2 false; let n : Fin 64 := 0; let tag : Fin 32 := 3; let alone : Prop := ∀ (m : Nat), m < 64 → m / 8 ≠ ↑n / 8 → s.hmPresents m = false; let dst : Word := s.reg (R.DMA_CURDST ↑n); let h : HmBurst := { tag := 3, chan := 0, write := false, addr := 64, len := 8, data := [], failed := false }; let b : Burst := { len := 8, kept := [], got := [], put := 0, tag := some 3 }; s.unitOn domBnd = true ∧ s.hm.out = [h] ∧ h.tag = ↑tag ∧ h.chan = ↑n ∧ (s.dm ↑n).burst = some b ∧ (s.dm ↑n).abort = false ∧ h.write = false ∧ h.data = [] ∧ h.len = 8 ∧ h.failed = false ∧ b = { len := 8, kept := [], got := [], put := 0, tag := some tag.val } ∧ s.dDown ↑n = false ∧ endPt dst = EndPt.host ∧ 0 < s.hm.credits ∧ alone) ∧
    ((let s : State := { chan 0 2 8 (2 ^ 63) (2 ^ 63 + 56) 1 with hm := ⟨1, [], 0⟩ }; s.unitOn domBnd = true ∧ s.hm.out = []) ∧
     (let s : State := { chan 0 2 8 (2 ^ 63) (2 ^ 63 + 56) 1 with hm := ⟨1, [], 0⟩ }; s.unitOn domBnd = true) ∧
     (let s := atHost 0 2 false; let n : Fin 64 := 0; let tag : Fin 32 := 3; let h : HmBurst := { tag := 3, chan := 0, write := false, addr := 64, len := 8, data := [], failed := false }; let b : Burst := { len := 8, kept := [], got := [], put := 0, tag := some 3 }; s.unitOn domBnd = true ∧ s.hm.out = [h] ∧ h.tag = ↑tag ∧ h.chan = ↑n ∧ (s.dm ↑n).burst = some b ∧ (s.dm ↑n).abort = false ∧ h.write = false) ∧
     (let s := atHost 0 2 false; let n : Fin 64 := 0; let tag : Fin 32 := 3; let h : HmBurst := { tag := 3, chan := 0, write := false, addr := 64, len := 8, data := [], failed := false }; let b : Burst := { len := 8, kept := [], got := [], put := 0, tag := some 3 }; s.unitOn domBnd = true ∧ s.hm.out = [h] ∧ h.tag = ↑tag ∧ h.chan = ↑n ∧ (s.dm ↑n).burst = some b ∧ (s.dm ↑n).abort = false ∧ s.on F.BND_HMTO_HMTO = true) ∧
     (let s := (atHost 0 2 true).put F.BND_HMTO_HMTO 1; let n : Fin 64 := 0; let tag : Fin 32 := 3; let h : HmBurst := { tag := 3, chan := 0, write := true, addr := 64, len := 8, data := [], failed := false }; let b : Burst := { len := 8, kept := [], got := [], put := 0, tag := some 3 }; s.unitOn domBnd = true ∧ s.hm.out = [h] ∧ h.tag = ↑tag ∧ h.chan = ↑n ∧ (s.dm ↑n).burst = some b ∧ (s.dm ↑n).abort = false ∧ h.write = true ∧ b.len < s.dRemain ↑n ∧ b.len < (s.dm ↑n).stepLeft ∧ s.dDown ↑n = false) ∧
     (let s := State.reset.put F.BND_HMTO_HMTO 0; s.on F.BND_HMTO_HMTO = false)) ∧
    ((let s := State.reset; let n : Fin 64 := 63; s.unitOn (domDma ↑n) = true ∧ s.dmaState ↑n ≠ 4) ∧
     (let s := State.reset; let n : Fin 64 := 63; s.unitOn (domDma ↑n) = true ∧ (s.dm ↑n).qwait = false) ∧
     (let s := (chan 0 4 8 (2 ^ 63) 0 1).put (F.DMA_STATUS_RETRIES 0) 0; let n : Fin 64 := 0; s.unitOn (domDma ↑n) = true ∧ s.dmaState ↑n = 4 ∧ fld (s.dCtl ↑n) 35 4 ≤ s.get (F.DMA_STATUS_RETRIES ↑n)) ∧
     (let s := (chan 63 4 8 (2 ^ 63) 0 (BitVec.ofNat 64 (1 + 15 * 2 ^ 35))).put (F.DMA_STATUS_RETRIES 63) 14; let n : Fin 64 := 63; let left : Nat := 8; s.unitOn (domDma ↑n) = true ∧ s.dmaState ↑n = 4 ∧ s.get (F.DMA_STATUS_RETRIES ↑n) < fld (s.dCtl ↑n) 35 4 ∧ (s.dm ↑n = { Dma.reset with stepLeft := left }) ∧ 0 < left ∧ 0 < s.dRemain ↑n ∧ s.dDown ↑n = false ∧ s.dPace ↑n ≠ 2 ∧ bit (s.reg (R.DMA_CURSRC ↑n)) 63 = true ∧ s.hm.credits = 0 ∧ (∀ (m : Nat), m < 64 → m / 8 = ↑n / 8 → m ≠ ↑n → s.burstWanted m = false) ∧ s.inFlight (↑n / 8) < 4) ∧
     (let s := qWaits; let n : Fin 64 := 0; let b : Burst := { len := 8, kept := [], got := List.replicate 8 7, put := 0, tag := none }; let q : Nat := 5; let v : Word := 0#64; let p : Bool := false; let u := ((s.setDm ↑n { s.dm ↑n with qwait := false }).portOp 32 4 5 (BitVec.ofNat 64 (ofBytes b.got))).snd; s.unitOn (domDma ↑n) = true ∧ (s.dm ↑n).qwait = true ∧ (s.dm ↑n).burst = some b ∧ b.tag = none ∧ b.len = 8 ∧ b.got.length = 8 ∧ b.put = 0 ∧ (s.dcfg ↑n).pd = EndPt.queue q ∧ (s.setDm ↑n { s.dm ↑n with qwait := false }).portOp 32 4 q (BitVec.ofNat 64 (ofBytes b.got)) = (QOut.ok v p, u) ∧ (u.dm ↑n).abort = false ∧ u.dRemain ↑n = 16 ∧ (u.dm ↑n).stepLeft = 16 ∧ u.dDown ↑n = false) ∧
     (let s := ([60, 61, 62, 59].foldl (fun s k => s.setDm k { Dma.reset with burst := some ⟨8, [], [], 0, some 3⟩ }) ((chan 63 4 8 (2 ^ 63) 0 (BitVec.ofNat 64 (1 + 15 * 2 ^ 35))).put (F.DMA_STATUS_RETRIES 63) 14)); let n : Fin 64 := 63; s.unitOn (domDma ↑n) = true ∧ s.dmaState ↑n = 4 ∧ s.get (F.DMA_STATUS_RETRIES ↑n) < fld (s.dCtl ↑n) 35 4 ∧ (s.dm ↑n).burst = none ∧ 4 ≤ s.inFlight (↑n / 8))) :=
  by refine ⟨?_, ?_, ?_, ?_, ?_, ?_⟩ <;> decide +kernel

theorem witness_EngineSteps :
    ((let s := State.reset; let e : Fin 32 := 31; s.pioRuns ↑e = false) ∧
     (let s := State.reset; let e : Fin 32 := 31; let d : Nat := 256; d = s.get (F.PIO_CLKDIV_INT ↑e) * 256 + s.get (F.PIO_CLKDIV_FRAC ↑e) ∧ (s.en ↑e).acc < d) ∧
     (let s := engine 31 { Engine.reset with acc := 100, delay := 7 } 0; let e : Fin 32 := 31; s.pioRuns ↑e = true ∧ (s.en ↑e).delay ≠ 0) ∧
     (let s := (engine 0 { Engine.reset with pc := 63 } 0).put (F.PIO_IMEM_IMEM 0 63) (11 * 2 ^ 28 + 63 * 2 ^ 22); let e : Fin 32 := 0; s.pioFree ↑e ∧ fld (s.reg (R.PIO_IMEM (↑e) (s.en ↑e).pc)) 28 4 = 11) ∧
     (let s := engine 0 { Engine.reset with stalled := some ⟨BitVec.ofNat 32 (5 * 2 ^ 28), 0, 1⟩, txq := [] } 0; let e : Fin 32 := 0; let w : Stalled := { word := BitVec.ofNat 32 (5 * 2 ^ 28), addr := 0, cause := 1 }; s.pioRuns ↑e = true ∧ (s.en ↑e).delay = 0 ∧ (s.en ↑e).stalled = some w ∧ fld w.word 28 4 = 5 ∧ fld w.word 0 2 = 0 ∧ (s.en ↑e).txq = []) ∧
     (let s := engine 0 { Engine.reset with stalled := some ⟨BitVec.ofNat 32 (5 * 2 ^ 28), 63, 1⟩, txq := [5, 6] } 0x1F0; let e : Fin 32 := 0; let w : Stalled := { word := BitVec.ofNat 32 (5 * 2 ^ 28), addr := 63, cause := 1 }; let v : BitVec 32 := 5; let rest : List (BitVec 32) := [6]; s.pioRuns ↑e = true ∧ (s.en ↑e).delay = 0 ∧ (s.en ↑e).stalled = some w ∧ fld w.word 28 4 = 5 ∧ fld w.word 0 2 = 0 ∧ (s.en ↑e).txq = v :: rest)) ∧
    (let s := engine 0 { Engine.reset with stalled := some ⟨BitVec.ofNat 32 (3 * 2 ^ 28 + 2 ^ 12 + 3 * 2 ^ 22 + 9), 63, 1⟩, seen := true } 0; let e : Fin 32 := 0; let w : Stalled := { word := BitVec.ofNat 32 (3 * 2 ^ 28 + 2 ^ 12 + 3 * 2 ^ 22 + 9), addr := 63, cause := 1 }; s.pioRuns ↑e = true ∧ (s.en ↑e).delay = 0 ∧ (s.en ↑e).stalled = some w ∧ fld w.word 28 4 = 3 ∧ fld w.word 12 2 = 1 ∧ (s.en ↑e).seen = true) ∧
    (let e : Fin 32 := 31; let dst : BitVec 3 := 0; let src : BitVec 3 := 0; let d : BitVec 2 := 0; let opn : BitVec 2 := 1; let count : BitVec 5 := 4; let pin : BitVec 7 := 65; let event : BitVec 12 := 965; let value : BitVec 10 := 1014; let target : BitVec 6 := 57; let cond : BitVec 4 := 15; let f : Bool := false; let g : Bool := true; let c : Instr := Instr.pioOut 31 0 4; c ∈ [Instr.pioOut e dst count, Instr.pioIn e src count, Instr.waitp e f g pin, Instr.waite e f g event, Instr.setp e d value, Instr.pull e f g, Instr.pioPush e f g, Instr.mov e dst src opn, Instr.jcnt e f target, Instr.jcond e cond target, Instr.idle e]) ∧
    ((let s := enginePins 31 Engine.reset 0; let e : Fin 32 := 31; let pol : Bool := true; let rel : Bool := true; let pin : BitVec 7 := 0; let p : Nat := if rel = true then (s.get (F.PIO_PINMAP_INBASE ↑e) + pin.toNat) % 128 else pin.toNat; s.pioFree ↑e ∧ s.padLevel p = pol) ∧
     (let s := enginePins 31 Engine.reset 0; let e : Fin 32 := 31; s.pioFree ↑e ∧ s.get (F.PIO_EVLATCH_LATCHED ↑e) = 0) ∧
     (let s := enginePins 31 Engine.reset 0; let e : Fin 32 := 31; s.pioFree ↑e) ∧
     (let s := enginePins 31 Engine.reset 0; let e : Fin 32 := 31; let pol : Bool := false; let rel : Bool := false; let pin : BitVec 7 := 126; let p : Nat := if rel = true then (s.get (F.PIO_PINMAP_INBASE ↑e) + pin.toNat) % 128 else pin.toNat; s.pioFree ↑e ∧ s.padLevel p ≠ pol) ∧
     (let s := enginePins 31 Engine.reset 0; let e : Fin 32 := 31; let event : BitVec 12 := 0xC7F; s.pioFree ↑e ∧ event.toNat < 3200 ∧ ¬event.toNat ∈ s.heardNow.lines) ∧
     (let s := (enginePins 31 Engine.reset 0).put (F.PIO_EVLATCH_LATCHED 31) 1; let e : Fin 32 := 31; s.pioFree ↑e ∧ s.get (F.PIO_EVLATCH_LATCHED ↑e) = 1)) ∧
    ((let s : State := { enginePins 31 Engine.reset 0 with heard := ⟨0, [0xC7F], []⟩ }; let e : Fin 32 := 31; let event : BitVec 12 := 0xC7F; s.pioFree ↑e ∧ event.toNat < 3200 ∧ event.toNat ∈ s.heardNow.lines) ∧
     (let s := (engine 31 Engine.reset 0).setEn 24 { Engine.reset with stalled := some ⟨0x3000100F, 0, 4⟩ }; let e : Fin 32 := 31; let k : Fin 32 := 24; let m := true; let w : Stalled := ⟨0x3000100F, 0, 4⟩; s.pioFree e ∧ k ≠ e ∧ k.val / 8 = e.val / 8 ∧ (s.en k).stalled = some w ∧ fld w.word 28 4 = 3 ∧ fld w.word 12 2 = 1 ∧ fld w.word 0 4 = e.val % 8 + 8 * b2n m)) :=
  by refine ⟨?_, ?_, ?_, ?_, ?_⟩ <;> decide +kernel

theorem witness_EngineJumpsAndMoves :
    ((let s := engine 31 { Engine.reset with x := 1, y := 0 } 0; let e : Fin 32 := 31; let x : Engine := s.en ↑e; s.pioFree ↑e ∧ x.x ≠ 0) ∧
     (let s := engine 31 { Engine.reset with x := 1, y := 0 } 0; let e : Fin 32 := 31; let x : Engine := s.en ↑e; s.pioFree ↑e ∧ x.y = 0) ∧
     (let s := engine 31 { Engine.reset with x := 1, y := 0 } 0; let e : Fin 32 := 31; let cond : BitVec 4 := 12; s.pioFree ↑e ∧ cond.toNat < 13) ∧
     (let s := engine 31 { Engine.reset with x := 1, y := 0 } 0; let e : Fin 32 := 31; s.pioFree ↑e) ∧
     (let s := engine 31 { Engine.reset with x := 0, y := 0xFFFFFFFF } 0; let e : Fin 32 := 31; let x : Engine := s.en ↑e; s.pioFree ↑e ∧ x.x = 0) ∧
     (let s := engine 31 { Engine.reset with x := 0, y := 0xFFFFFFFF } 0; let e : Fin 32 := 31; let x : Engine := s.en ↑e; s.pioFree ↑e ∧ x.y ≠ 0)) ∧
    ((let s := engine 31 Engine.reset 0; let e : Fin 32 := 31; s.get (F.PIO_SHIFTCFG_JOIN ↑e) = 0) ∧
     (let s := engine 31 { Engine.reset with rxq := List.replicate 8 1 } (2 ^ 14); let e : Fin 32 := 31; s.get (F.PIO_SHIFTCFG_JOIN ↑e) = 1) ∧
     (let s := engine 31 { Engine.reset with rxq := List.replicate 16 1 } (2 ^ 15); let e : Fin 32 := 31; s.get (F.PIO_SHIFTCFG_JOIN ↑e) = 2)) ∧
    ((let s := enginePins 31 { Engine.reset with x := 0x80000001 } 0; let e : Fin 32 := 31; s.pioFree ↑e) ∧
     (let s := enginePins 31 { Engine.reset with x := 0x80000001 } 0; let e : Fin 32 := 31; let src : BitVec 3 := 1; s.pioFree ↑e ∧ src.toNat < 7)) ∧
    ((let s := engine 31 { Engine.reset with pc := 63 } 0; let e : Fin 32 := 31; s.pioFree ↑e) ∧
     (let s := engine 31 { Engine.reset with pc := 63 } 0; let e : Fin 32 := 31; let src : BitVec 3 := 6; s.pioFree ↑e ∧ 6 ≤ src.toNat) ∧
     (let s := engine 31 { Engine.reset with pc := 63 } 0; let e : Fin 32 := 31; let dst : BitVec 3 := 7; let src : BitVec 3 := 6; s.pioFree ↑e ∧ (dst = 7 ∨ src = 7)) ∧
     (let s := engine 31 { Engine.reset with pc := 63 } 0; let e : Fin 32 := 31; let cond : BitVec 4 := 13; s.pioFree ↑e ∧ 13 ≤ cond.toNat) ∧
     (let s := engine 31 { Engine.reset with pc := 63 } 0; let e : Fin 32 := 31; let event : BitVec 12 := 0xC80; s.pioFree ↑e ∧ 3200 ≤ event.toNat)) :=
  by refine ⟨?_, ?_, ?_, ?_⟩ <;> decide +kernel

theorem witness_EngineShifters :
    ((let s := enginePins 31 { Engine.reset with txs := 0xA5C3, txbits := 16 } 0; let e : Fin 32 := 31; s.pioFree ↑e ∧ s.on (F.PIO_SHIFTCFG_TXSTREAM ↑e) = false) ∧
     (let s := enginePins 31 { Engine.reset with txs := 0xA5C3, txbits := 16 } 0; let e : Fin 32 := 31; let x : Engine := s.en ↑e; s.pioFree ↑e ∧ s.on (F.PIO_SHIFTCFG_TXSTREAM ↑e) = false ∧ x.rxbits ≤ s.rxFrame ↑e ∧ s.on (F.PIO_SHIFTCFG_RXSTREAM ↑e) = false) ∧
     (let s := enginePins 31 { Engine.reset with txs := 0xA5C3F123, txbits := 32 } 5; let e : Fin 32 := 31; let n : BitVec 5 := 0; let x : Engine := s.en ↑e; let k : Nat := if n = 0 then 32 else n.toNat; s.pioFree ↑e ∧ s.on (F.PIO_SHIFTCFG_TXSTREAM ↑e) = true ∧ k ≤ x.txbits) ∧
     (let s := enginePins 31 { Engine.reset with txs := 0xA5C3F123, txbits := 0 } 4; let e : Fin 32 := 31; let x : Engine := s.en ↑e; s.pioFree ↑e ∧ s.on (F.PIO_SHIFTCFG_TXSTREAM ↑e) = true ∧ x.txbits = 0 ∧ x.txq = [])) ∧
    ((let s := enginePins 31 { Engine.reset with rxs := 0xA5C3, rxbits := 16 } 0; let e : Fin 32 := 31; let src : BitVec 3 := 0; let x : Engine := s.en ↑e; let frame : Nat := s.rxFrame ↑e; s.pioFree ↑e ∧ src.toNat < 6 ∧ x.rxbits ≤ frame ∧ s.on (F.PIO_SHIFTCFG_RXSTREAM ↑e) = false) ∧
     (let s := enginePins 31 { Engine.reset with rxs := 0, rxbits := 0 } 8; let e : Fin 32 := 31; let src : BitVec 3 := 4; let n : BitVec 5 := 0; let x : Engine := s.en ↑e; let k : Nat := if n = 0 then 32 else n.toNat; let frame : Nat := s.rxFrame ↑e; s.pioFree ↑e ∧ src.toNat < 6 ∧ x.rxbits ≤ frame ∧ s.on (F.PIO_SHIFTCFG_RXSTREAM ↑e) = true ∧ x.rxbits + k = frame ∧ x.rxq.length < s.rxCap ↑e) ∧
     (let s := enginePins 31 { Engine.reset with rxs := 0xA5, rxbits := 24, y := 0x92, rxq := List.replicate 8 0 } 8; let e : Fin 32 := 31; let src : BitVec 3 := 2; let n : BitVec 5 := 8; let x : Engine := s.en ↑e; let k : Nat := if n = 0 then 32 else n.toNat; let frame : Nat := s.rxFrame ↑e; s.pioFree ↑e ∧ src.toNat < 6 ∧ x.rxbits ≤ frame ∧ s.on (F.PIO_SHIFTCFG_RXSTREAM ↑e) = true ∧ x.rxbits + k = frame ∧ s.get (F.PIO_SHIFTCFG_JOIN ↑e) ≠ 1 ∧ s.rxCap ↑e ≤ x.rxq.length)) ∧
    (let s := engine 31 { Engine.reset with txbits := 1 } 0; let e : Fin 32 := 31; let guarded : Bool := true; let x : Engine := s.en ↑e; let pulls : Prop := guarded = false ∨ x.txbits = 0; s.pioFree ↑e ∧ ¬pulls) ∧
    (let s := engine 31 { Engine.reset with txbits := 1 } 0; let e : Fin 32 := 31; let guarded : Bool := true; let x : Engine := s.en ↑e; let pushes : Prop := guarded = false ∨ x.rxbits = s.rxFrame ↑e; s.pioFree ↑e ∧ ¬pushes) ∧
    (let s := engine 31 { Engine.reset with txbits := 1, rxbits := 31, txq := [0xFFFFFFFF, 3] } 0x70; let e : Fin 32 := 31; let guarded : Bool := false; let x : Engine := s.en ↑e; let pulls : Prop := guarded = false ∨ x.txbits = 0; let v : BitVec 32 := 4294967295; let rest : List (BitVec 32) := [3]; s.pioFree ↑e ∧ pulls ∧ x.txq = v :: rest) ∧
    (let s := engine 31 { Engine.reset with txbits := 1, rxbits := 31, txq := [0xFFFFFFFF, 3] } 0x70; let e : Fin 32 := 31; let guarded : Bool := false; let x : Engine := s.en ↑e; let pushes : Prop := guarded = false ∨ x.rxbits = s.rxFrame ↑e; s.pioFree ↑e ∧ pushes ∧ s.get (F.PIO_SHIFTCFG_JOIN ↑e) ≠ 1 ∧ x.rxq.length < s.rxCap ↑e) ∧
    (let s := engine 31 { Engine.reset with rxs := 7 } 0; let e : Fin 32 := 31; let guarded : Bool := false; let noWait : Bool := true; let x : Engine := s.en ↑e; let pulls : Prop := guarded = false ∨ x.txbits = 0; s.pioFree ↑e ∧ pulls ∧ x.txq = [] ∧ noWait = true) ∧
    (let s := engine 31 { Engine.reset with rxs := 7 } 0; let e : Fin 32 := 31; let guarded : Bool := false; let noWait : Bool := false; let x : Engine := s.en ↑e; let pulls : Prop := guarded = false ∨ x.txbits = 0; s.pioFree ↑e ∧ pulls ∧ x.txq = [] ∧ noWait = false) ∧
    (let s := engine 31 { Engine.reset with rxs := 7, rxbits := 32, rxq := List.replicate 8 1 } 0; let e : Fin 32 := 31; let guarded : Bool := true; let noWait : Bool := true; let x : Engine := s.en ↑e; let pushes : Prop := guarded = false ∨ x.rxbits = s.rxFrame ↑e; s.pioFree ↑e ∧ pushes ∧ s.get (F.PIO_SHIFTCFG_JOIN ↑e) ≠ 1 ∧ s.rxCap ↑e ≤ x.rxq.length ∧ noWait = true) ∧
    (let s := engine 31 { Engine.reset with rxs := 7, rxbits := 32, rxq := List.replicate 8 1 } 0; let e : Fin 32 := 31; let guarded : Bool := true; let noWait : Bool := false; let x : Engine := s.en ↑e; let pushes : Prop := guarded = false ∨ x.rxbits = s.rxFrame ↑e; s.pioFree ↑e ∧ pushes ∧ s.get (F.PIO_SHIFTCFG_JOIN ↑e) ≠ 1 ∧ s.rxCap ↑e ≤ x.rxq.length ∧ noWait = false) ∧
    (let s := engine 31 { Engine.reset with rxs := 7, rxbits := 32 } 0x4000; let e : Fin 32 := 31; let guarded : Bool := true; let x : Engine := s.en ↑e; let pushes : Prop := guarded = false ∨ x.rxbits = s.rxFrame ↑e; s.pioFree ↑e ∧ pushes ∧ s.get (F.PIO_SHIFTCFG_JOIN ↑e) = 1) :=
  by refine ⟨?_, ?_, ?_, ?_, ?_, ?_, ?_, ?_, ?_, ?_, ?_⟩ <;> decide +kernel

theorem witness_EngineQueuesAndControl :
    ((let s := engine 31 { Engine.reset with txq := List.replicate 7 1, rxq := [4, 5] } 0; let e : Fin 32 := 31; let x : Engine := s.en ↑e; s.pageUp (domPio ↑e) = true ∧ x.txq.length < s.txCap ↑e) ∧
     (let s := engine 31 { Engine.reset with txq := List.replicate 7 1, rxq := [4, 5] } 0; let e : Fin 32 := 31; let x : Engine := s.en ↑e; let v : BitVec 32 := 4; let rest : List (BitVec 32) := [5]; s.pageUp (domPio ↑e) = true ∧ x.rxq = v :: rest) ∧
     (let s := engine 31 { Engine.reset with txq := List.replicate 7 1, rxq := [4, 5] } 0; let e : Fin 32 := 31; s.pageUp (domPio ↑e) = true ∧ s.on (F.PIO_CTRL_EN ↑e) = true) ∧
     (let s := engine 31 { Engine.reset with txq := List.replicate 7 1, rxq := [4, 5] } 0; let e : Fin 32 := 31; let cfg : BitVec 64 := 0x4000; let join : Nat := s.get (F.PIO_SHIFTCFG_JOIN ↑e); s.pageUp (domPio ↑e) = true ∧ s.on (F.PIO_CTRL_EN ↑e) = true ∧ fld cfg 14 2 ≠ join ∧ fld cfg 14 2 ≠ 3) ∧
     (let s := engine 31 { Engine.reset with txq := List.replicate 8 1 } 0; let e : Fin 32 := 31; let x : Engine := s.en ↑e; s.pageUp (domPio ↑e) = true ∧ s.txCap ↑e ≤ x.txq.length) ∧
     (let s := engine 31 { Engine.reset with txq := List.replicate 8 1 } 0; let e : Fin 32 := 31; let x : Engine := s.en ↑e; s.pageUp (domPio ↑e) = true ∧ x.rxq = [])) ∧
    ((let s := State.reset.setEn 31 { Engine.reset with txq := List.replicate 8 1 }; let e : Fin 32 := 31; s.pageUp (domPio ↑e) = true ∧ s.on (F.PIO_CTRL_EN ↑e) = false) ∧
     (let s := State.reset.setEn 31 { Engine.reset with txq := List.replicate 8 1 }; let e : Fin 32 := 31; let cfg : BitVec 64 := 0xFFFFFFFFFFFF8001; let join : Nat := s.get (F.PIO_SHIFTCFG_JOIN ↑e); s.pageUp (domPio ↑e) = true ∧ s.on (F.PIO_CTRL_EN ↑e) = false ∧ fld cfg 14 2 ≠ join ∧ fld cfg 14 2 ≠ 3) ∧
     (let s := State.reset; let e : Fin 32 := 31; let cfg : BitVec 64 := 0xFFFFFFFFFFFF0001; let join : Nat := s.get (F.PIO_SHIFTCFG_JOIN ↑e); s.pageUp (domPio ↑e) = true ∧ fld cfg 14 2 = join ∧ join ≠ 3)) ∧
    ((let s := State.reset; let e : Fin 32 := 31; s.unitOn (domPio ↑e) = true ∧ (s.on (F.PIO_TXFEED_EN ↑e) = false ∨ s.txCap ↑e ≤ (s.en ↑e).txq.length)) ∧
     (let s := State.reset; let e : Fin 32 := 31; s.unitOn (domPio ↑e) = true ∧ (s.on (F.PIO_RXFEED_EN ↑e) = false ∨ (s.en ↑e).rxq = [])) ∧
     (let s := feed 31 0x21 { Engine.reset with rxq := [0x12345678, 4] }; let e : Fin 32 := 31; let size : Nat := s.get (F.PIO_TXFEED_LOG2SZ ↑e); let addr : Nat := s.get (F.PIO_TXFEED_BASE ↑e) * 8 + s.get (F.PIO_TXFEED_OFFSET ↑e) % 2 ^ size; s.unitOn (domPio ↑e) = true ∧ s.on (F.PIO_TXFEED_EN ↑e) = true ∧ (s.en ↑e).txq.length < s.txCap ↑e ∧ s.portAGate (bankOf addr) 33 = PortAGate.accepted) ∧
     (let s := feed 31 0x21 { Engine.reset with rxq := [0x12345678, 4] }; let e : Fin 32 := 31; let raddr : Nat := s.get (F.PIO_RXFEED_BASE ↑e) * 8 + s.get (F.PIO_RXFEED_OFFSET ↑e) % 2 ^ s.get (F.PIO_RXFEED_LOG2SZ ↑e); let v : BitVec 32 := 305419896; let rest : List (BitVec 32) := [4]; s.unitOn (domPio ↑e) = true ∧ s.on (F.PIO_RXFEED_EN ↑e) = true ∧ (s.en ↑e).rxq = v :: rest ∧ s.portAGate (bankOf raddr) 33 = PortAGate.accepted) ∧
     (let s := feed 31 3 { Engine.reset with rxq := [0x12345678, 4] }; let e : Fin 32 := 31; let size : Nat := s.get (F.PIO_TXFEED_LOG2SZ ↑e); let addr : Nat := s.get (F.PIO_TXFEED_BASE ↑e) * 8 + s.get (F.PIO_TXFEED_OFFSET ↑e) % 2 ^ size; s.unitOn (domPio ↑e) = true ∧ s.on (F.PIO_TXFEED_EN ↑e) = true ∧ (s.en ↑e).txq.length < s.txCap ↑e ∧ s.portAGate (bankOf addr) 33 = PortAGate.refused) ∧
     (let s := feed 31 3 { Engine.reset with rxq := [0x12345678, 4] }; let e : Fin 32 := 31; let raddr : Nat := s.get (F.PIO_RXFEED_BASE ↑e) * 8 + s.get (F.PIO_RXFEED_OFFSET ↑e) % 2 ^ s.get (F.PIO_RXFEED_LOG2SZ ↑e); let v : BitVec 32 := 305419896; let rest : List (BitVec 32) := [4]; s.unitOn (domPio ↑e) = true ∧ s.on (F.PIO_RXFEED_EN ↑e) = true ∧ (s.en ↑e).rxq = v :: rest ∧ s.portAGate (bankOf raddr) 33 = PortAGate.refused)) ∧
    ((let s := State.reset; let e : Fin 32 := 31; s.pageUp (domPio ↑e) = true ∧ s.on (F.PIO_CTRL_EN ↑e) = false) ∧
     (let s := State.reset; let e : Fin 32 := 31; s.pageUp (domPio ↑e) = true) ∧
     (let s := State.reset; let e : Fin 32 := 31; let g : Fin 4 := 3; s.pageUp (domPio ↑e) = true ∧ g.val = e.val / 8) ∧
     (let s := engine 31 { Engine.reset with stalled := some ⟨5, 0, 1⟩, delay := 3, acc := 9 } 0; let e : Fin 32 := 31; s.pageUp (domPio ↑e) = true ∧ s.on (F.PIO_CTRL_EN ↑e) = true)) :=
  by refine ⟨?_, ?_, ?_, ?_⟩ <;> decide +kernel

theorem witness_Pins :
    ((let s := pin 127 (2 ^ 13) { Pin.reset with ext := true }; let n : Fin 128 := 127; s.get (pinCfg (↑n) 13 1) ≠ 0) ∧
     (let s := (pin 127 0 Pin.reset).put (F.PIN_GPIOOE_GPIOOE 3) (2 ^ 31); let n : Fin 128 := 127; let v : Bool := false; s.get (pinCfg (↑n) 13 1) = 0 ∧ s.pinDrive ↑n = some v) ∧
     (let s := (pin 127 0 Pin.reset).put (F.PIN_GPIOOE_GPIOOE 3) (2 ^ 31); let n : Fin 128 := 127; s.get (pinCfg (↑n) 13 1) = 0 ∧ (s.pn ↑n).gap = none ∧ (s.pn ↑n).hold = none ∧ s.pinFsel ↑n = 0) ∧
     (let s := pin 127 0 Pin.reset; let n : Fin 128 := 127; s.get (pinCfg (↑n) 13 1) = 0 ∧ s.pinDrive ↑n = none) ∧
     (let s := pin 127 1 { Pin.reset with val := true, dir := true }; let n : Fin 128 := 127; s.get (pinCfg (↑n) 13 1) = 0 ∧ (s.pn ↑n).gap = none ∧ (s.pn ↑n).hold = none ∧ s.pinFsel ↑n = 1) ∧
     (let s := pin 127 4 { Pin.reset with ext := true }; let n : Fin 128 := 127; s.get (pinCfg (↑n) 13 1) = 0 ∧ (s.pn ↑n).gap = none ∧ (s.pn ↑n).hold = none ∧ s.pinFsel ↑n = 4)) ∧
    ((let s := pin 0 6 { Pin.reset with evOut := true }; let n : Fin 128 := 0; s.get (pinCfg (↑n) 13 1) = 0 ∧ (s.pn ↑n).gap = none ∧ (s.pn ↑n).hold = none ∧ s.pinFsel ↑n = 6) ∧
     (let s : State := { pin 0 1 { Pin.reset with gap := some (0, some true) } with fclk := 2 }; let n : Fin 128 := 0; let w : Nat := 0; let d : Option Bool := some true; s.get (pinCfg (↑n) 13 1) = 0 ∧ (s.pn ↑n).gap = some (w, d) ∧ s.fclk ≤ w + 2) ∧
     (let s : State := { pin 127 2 Pin.reset with fclk := 5 }; let n : Fin 128 := 127; s.get (pinCfg (↑n) 13 1) = 0 ∧ (s.pn ↑n).gap = none ∧ (s.pn ↑n).hold = none ∧ s.pinFsel ↑n = 2) ∧
     (let s : State := { pin 127 5 Pin.reset with fclk := 5 }; let n : Fin 128 := 127; s.get (pinCfg (↑n) 13 1) = 0 ∧ (s.pn ↑n).gap = none ∧ (s.pn ↑n).hold = none ∧ s.pinFsel ↑n = 5)) ∧
    (let s := pin 127 (2 ^ 13) Pin.reset; let n : Fin 128 := 127; let quiet : Prop := s.get (pinCfg (↑n) 13 1) ≠ 0 ∨ s.get (pinCfg (↑n) 63 1) ≠ 0; s.pinDrive ↑n = none ∧ (quiet ∨ s.pwr.running = false ∧ s.pinFsel ↑n ≠ 4)) ∧
    (let s := pin 127 (3 * 2 ^ 24) Pin.reset; let n : Fin 128 := 127; let level : Bool := false; let x : Pin := s.pn ↑n; let quiet : Prop := s.get (pinCfg (↑n) 13 1) ≠ 0 ∨ s.get (pinCfg (↑n) 63 1) ≠ 0; let mode : Nat := s.get (pinCfg (↑n) 14 2); let len : Nat := s.get (pinCfg (↑n) 16 8); s.pinDrive ↑n = none ∧ ¬quiet ∧ s.pwr.running = true ∧ s.pinFsel ↑n ≠ 4 ∧ (mode = 0 ∨ len = 0) ∧ x.filt = level) ∧
    (let s := pin 127 (1 * 2 ^ 24) Pin.reset; let n : Fin 128 := 127; let level : Bool := true; let x : Pin := s.pn ↑n; let quiet : Prop := s.get (pinCfg (↑n) 13 1) ≠ 0 ∨ s.get (pinCfg (↑n) 63 1) ≠ 0; let mode : Nat := s.get (pinCfg (↑n) 14 2); let len : Nat := s.get (pinCfg (↑n) 16 8); s.pinDrive ↑n = none ∧ ¬quiet ∧ s.pwr.running = true ∧ s.pinFsel ↑n ≠ 4 ∧ (mode = 0 ∨ len = 0) ∧ x.filt ≠ level) ∧
    (let s := pin 127 (1 * 2 ^ 14 + 3 * 2 ^ 16 + 3 * 2 ^ 24) { Pin.reset with filt := true, count := 2 }; let n : Fin 128 := 127; let level : Bool := true; let x : Pin := s.pn ↑n; let quiet : Prop := s.get (pinCfg (↑n) 13 1) ≠ 0 ∨ s.get (pinCfg (↑n) 63 1) ≠ 0; let mode : Nat := s.get (pinCfg (↑n) 14 2); let len : Nat := s.get (pinCfg (↑n) 16 8); s.pinDrive ↑n = none ∧ ¬quiet ∧ s.pwr.running = true ∧ s.pinFsel ↑n ≠ 4 ∧ mode = 1 ∧ len ≠ 0 ∧ x.filt = level) ∧
    (let s := pin 127 (1 * 2 ^ 14 + 3 * 2 ^ 16 + 3 * 2 ^ 24) { Pin.reset with filt := false, count := 1 }; let n : Fin 128 := 127; let level : Bool := true; let x : Pin := s.pn ↑n; let quiet : Prop := s.get (pinCfg (↑n) 13 1) ≠ 0 ∨ s.get (pinCfg (↑n) 63 1) ≠ 0; let mode : Nat := s.get (pinCfg (↑n) 14 2); let len : Nat := s.get (pinCfg (↑n) 16 8); s.pinDrive ↑n = none ∧ ¬quiet ∧ s.pwr.running = true ∧ s.pinFsel ↑n ≠ 4 ∧ mode = 1 ∧ len ≠ 0 ∧ x.filt ≠ level ∧ x.count + 1 < len) ∧
    (let s := pin 127 (1 * 2 ^ 14 + 3 * 2 ^ 16 + 3 * 2 ^ 24) { Pin.reset with filt := false, count := 2 }; let n : Fin 128 := 127; let level : Bool := true; let x : Pin := s.pn ↑n; let quiet : Prop := s.get (pinCfg (↑n) 13 1) ≠ 0 ∨ s.get (pinCfg (↑n) 63 1) ≠ 0; let mode : Nat := s.get (pinCfg (↑n) 14 2); let len : Nat := s.get (pinCfg (↑n) 16 8); s.pinDrive ↑n = none ∧ ¬quiet ∧ s.pwr.running = true ∧ s.pinFsel ↑n ≠ 4 ∧ mode = 1 ∧ len ≠ 0 ∧ x.filt ≠ level ∧ len ≤ x.count + 1) ∧
    (let s := pin 127 (2 * 2 ^ 14 + 3 * 2 ^ 16 + 3 * 2 ^ 24) { Pin.reset with filt := true, count := 2 }; let n : Fin 128 := 127; let x : Pin := s.pn ↑n; let quiet : Prop := s.get (pinCfg (↑n) 13 1) ≠ 0 ∨ s.get (pinCfg (↑n) 63 1) ≠ 0; let mode : Nat := s.get (pinCfg (↑n) 14 2); let len : Nat := s.get (pinCfg (↑n) 16 8); s.pinDrive ↑n = none ∧ ¬quiet ∧ s.pwr.running = true ∧ s.pinFsel ↑n ≠ 4 ∧ mode = 2 ∧ len ≠ 0 ∧ x.count ≠ 0) ∧
    (let s := pin 127 (2 * 2 ^ 14 + 3 * 2 ^ 16 + 3 * 2 ^ 24) { Pin.reset with filt := true, count := 0 }; let n : Fin 128 := 127; let level : Bool := true; let x : Pin := s.pn ↑n; let quiet : Prop := s.get (pinCfg (↑n) 13 1) ≠ 0 ∨ s.get (pinCfg (↑n) 63 1) ≠ 0; let mode : Nat := s.get (pinCfg (↑n) 14 2); let len : Nat := s.get (pinCfg (↑n) 16 8); s.pinDrive ↑n = none ∧ ¬quiet ∧ s.pwr.running = true ∧ s.pinFsel ↑n ≠ 4 ∧ mode = 2 ∧ len ≠ 0 ∧ x.count = 0 ∧ x.filt = level) ∧
    (let s := pin 127 (2 * 2 ^ 14 + 255 * 2 ^ 16 + 3 * 2 ^ 24) { Pin.reset with filt := false, count := 0 }; let n : Fin 128 := 127; let level : Bool := true; let x : Pin := s.pn ↑n; let quiet : Prop := s.get (pinCfg (↑n) 13 1) ≠ 0 ∨ s.get (pinCfg (↑n) 63 1) ≠ 0; let mode : Nat := s.get (pinCfg (↑n) 14 2); let len : Nat := s.get (pinCfg (↑n) 16 8); s.pinDrive ↑n = none ∧ ¬quiet ∧ s.pwr.running = true ∧ s.pinFsel ↑n ≠ 4 ∧ mode = 2 ∧ len ≠ 0 ∧ x.count = 0 ∧ x.filt ≠ level) ∧
    (let s : State := { pin 127 (4 + 3 * 2 ^ 24) Pin.reset with pwr := { State.reset.pwr with running := false } }; let n : Fin 128 := 127; let level : Bool := true; let x : Pin := s.pn ↑n; let quiet : Prop := s.get (pinCfg (↑n) 13 1) ≠ 0 ∨ s.get (pinCfg (↑n) 63 1) ≠ 0; let edge : Bool := (s.get (pinCfg (↑n) 24 2)).testBit (if level = true then 0 else 1); let mode : Nat := s.get (pinCfg (↑n) 14 2); let names : Nat → Prop := fun i => fld (s.reg (R.PWR_WAKE i)) 0 3 = 4 ∧ fld (s.reg (R.PWR_WAKE i)) 36 7 = ↑n; s.pinDrive ↑n = none ∧ ¬quiet ∧ s.pwr.running = false ∧ s.pinFsel ↑n = 4 ∧ mode = 0 ∧ x.filt ≠ level ∧ (edge = false ∨ ∀ (i : Nat), i < 64 → ¬names i)) ∧
    (let s : State := { (pin 127 (4 + 2 ^ 24) Pin.reset).setReg (R.PWR_WAKE 63) (BitVec.ofNat 64 (4 + 127 * 2 ^ 36 + 160 * 2 ^ 8 + 2 ^ 16)) with pwr := { State.reset.pwr with running := false } }; let n : Fin 128 := 127; let level : Bool := true; let x : Pin := s.pn ↑n; let quiet : Prop := s.get (pinCfg (↑n) 13 1) ≠ 0 ∨ s.get (pinCfg (↑n) 63 1) ≠ 0; let edge : Bool := (s.get (pinCfg (↑n) 24 2)).testBit (if level = true then 0 else 1); let mode : Nat := s.get (pinCfg (↑n) 14 2); let names : Nat → Prop := fun i => fld (s.reg (R.PWR_WAKE i)) 0 3 = 4 ∧ fld (s.reg (R.PWR_WAKE i)) 36 7 = ↑n; let i : Nat := 63; s.pinDrive ↑n = none ∧ ¬quiet ∧ s.pwr.running = false ∧ s.pinFsel ↑n = 4 ∧ mode = 0 ∧ x.filt ≠ level ∧ i < 64 ∧ edge = true ∧ names i ∧ ∀ (j : Nat), j < 64 → j ≠ i → ¬names j) ∧
    (let s := pin 127 1 { Pin.reset with val := true, dir := true }; let cfg : BitVec 64 := BitVec.ofNat 64 (6 + 2 ^ 15 + 0xC7F * 2 ^ 28); let plain : Prop := fld cfg 0 3 < 7 ∧ subReserved (fld cfg 0 3) (fld cfg 4 5) = false ∧ fld cfg 11 2 ≠ 3 ∧ fld cfg 14 2 ≠ 3 ∧ fld cfg 28 12 < 3200; s.pageUp 0 = true ∧ plain) ∧
    ((let s := pin 127 1 { Pin.reset with val := true, dir := true }; let n : Fin 128 := 127; s.pageUp 0 = true ∧ s.get (pinCfg (↑n) 63 1) = 0) ∧
     (let s := pin 127 (1 + 2 ^ 63) Pin.reset; let cfg : BitVec 64 := BitVec.ofNat 64 0xFFFFFFFFFFFFFFFF; s.pageUp 0 = true ∧ fld cfg 0 3 = 7) ∧
     (let s := pin 127 (1 + 2 ^ 63) Pin.reset; let n : Fin 128 := 127; s.pageUp 0 = true ∧ s.get (pinCfg (↑n) 63 1) = 1)) ∧
    ((let s := pin 127 (7 * 16) { Pin.reset with ext := true }; s.pwr.running = true) ∧
     (let s := pin 127 (7 * 16) { Pin.reset with ext := true }; s.pwr.running = true ∧ s.domState 0 = 0)) :=
  by refine ⟨?_, ?_, ?_, ?_, ?_, ?_, ?_, ?_, ?_, ?_, ?_, ?_, ?_, ?_, ?_, ?_⟩ <;> decide +kernel

theorem witness_Interrupts :
    ((let s := State.reset; let source : BitVec 11 := 0x7FF; let pend : RF := F.INTSRC_SRC_PEND source.toNat; s.pageUp domInt = true ∧ s.get pend = 0) ∧
     (let s := State.reset.put (F.INTSRC_SRC_PEND 2047) 1; let source : BitVec 11 := 0x7FF; let pend : RF := F.INTSRC_SRC_PEND source.toNat; s.pageUp domInt = true ∧ s.get pend = 1)) ∧
    ((let s := State.reset.setDom domInt 1; s.unitOn domInt = false) ∧
     (let s := State.reset; s.unitOn domInt = true ∧ s.pendingSources = []) ∧
     (let s := lvl; let i : Fin 2048 := 2047; let k : Fin 8 := 7; s.unitOn domInt = true ∧ s.pendingSources = [↑i] ∧ s.eligible ↑i ↑k = true ∧ s.offeredTo ↑i = none ∧ s.int.crot < 8 ∧ ∀ (j : Fin 8), s.eligible ↑i ↑j = true → s.runPri ↑k < s.runPri ↑j ∨ s.runPri ↑k = s.runPri ↑j ∧ (↑k + 8 - s.int.crot) % 8 ≤ (↑j + 8 - s.int.crot) % 8) ∧
     (let s := lvl.setOffer 7 (some ⟨2047, 15, 5⟩); let i : Fin 2048 := 2047; let k : Fin 8 := 7; s.unitOn domInt = true ∧ s.pendingSources = [↑i] ∧ s.eligible ↑i ↑k = true ∧ s.offeredTo ↑i = some k.val) ∧
     (let s := (((lvl).put (F.INTSRC_SRC_PEND 0) 1).put (F.INTSRC_SRC_LEVEL 0) 15).put (F.INTSRC_SRC_TARGET 0) 128; let i : Fin 2048 := 0; let j : Fin 2048 := 2047; let k : Fin 8 := 7; s.unitOn domInt = true ∧ s.pendingSources = [↑i, ↑j] ∧ i < j ∧ (∀ (m : Fin 8), s.eligible ↑i ↑m = true ↔ m = k) ∧ (∀ (m : Fin 8), s.eligible ↑j ↑m = true ↔ m = k) ∧ s.srcLevel ↑i = s.srcLevel ↑j ∧ s.offeredTo ↑i = none ∧ s.offeredTo ↑j = none) ∧
     (let s := (((lvl).put (F.INTSRC_SRC_PEND 0) 1).put (F.INTSRC_SRC_LEVEL 0) 14).put (F.INTSRC_SRC_TARGET 0) 128; let i : Fin 2048 := 0; let j : Fin 2048 := 2047; let k : Fin 8 := 7; s.unitOn domInt = true ∧ s.pendingSources = [↑i, ↑j] ∧ i < j ∧ (∀ (m : Fin 8), s.eligible ↑i ↑m = true ↔ m = k) ∧ (∀ (m : Fin 8), s.eligible ↑j ↑m = true ↔ m = k) ∧ s.srcLevel ↑i < s.srcLevel ↑j)) ∧
    ((let s := (((((lvl).put (F.INTSRC_SRC_PEND 0) 1).put (F.INTSRC_SRC_LEVEL 0) 15).put (F.INTSRC_SRC_TARGET 0) 128).put (F.INTSRC_SRC_LEVEL 2047) 14); let i : Fin 2048 := 0; let j : Fin 2048 := 2047; let k : Fin 8 := 7; s.unitOn domInt = true ∧ s.pendingSources = [↑i, ↑j] ∧ i < j ∧ (∀ (m : Fin 8), s.eligible ↑i ↑m = true ↔ m = k) ∧ (∀ (m : Fin 8), s.eligible ↑j ↑m = true ↔ m = k) ∧ s.srcLevel ↑j < s.srcLevel ↑i) ∧
     (let o : Offer := ⟨5, 1, 0⟩; let s := lvl.setOffer 7 (some o); let k : Fin 8 := 7; s.unitOn domInt = true ∧ s.offerOf k = some o ∧ (s.on (F.INTSRC_SRC_PEND o.src) = false ∨ s.eligible o.src k = false))) ∧
    ((let s := State.reset; let k : Fin 8 := 7; s.unitOn domInt = true ∧ s.offerOf ↑k = none) ∧
     (let s := State.reset; let k : Fin 8 := 7; let active : RF := F.INTK_STATUS_ACTIVE ↑k; s.unitOn domInt = true ∧ s.get active = 0) ∧
     (let s := State.reset; s.unitOn domInt = true) ∧
     (let s := ((State.reset.put (F.INTSRC_SRC_PEND 2047) 1).setOffer 7 (some ⟨2047, 15, 5⟩)).put (F.INTK_STATUS_ACTIVE 7) 0x4002; let k : Fin 8 := 7; let o : Offer := ⟨2047, 15, 5⟩; s.unitOn domInt = true ∧ s.offerOf ↑k = some o ∧ o.src < 2048 ∧ o.lvl < 16) ∧
     (let s := ((State.reset.put (F.INTSRC_SRC_PEND 2047) 1).setOffer 7 (some ⟨2047, 15, 5⟩)).put (F.INTK_STATUS_ACTIVE 7) 0x4002; let k : Fin 8 := 7; let active : RF := F.INTK_STATUS_ACTIVE ↑k; let l : Fin 16 := 14; s.unitOn domInt = true ∧ l ≠ 0 ∧ (s.get active).testBit ↑l = true ∧ ∀ (m : Fin 16), l < m → (s.get active).testBit ↑m = false)) :=
  by refine ⟨?_, ?_, ?_, ?_⟩ <;> decide +kernel

theorem witness_LinkBringUp :
    ((let s := State.reset; let p : Fin 4 := 3; s.unitOn (domStitch ↑p) = true ∧ s.on (F.STI_CTRL_EN ↑p) = false) ∧
     (let s := State.reset; let p : Fin 4 := 3; s.unitOn (domStitch ↑p) = true ∧ s.lstate ↑p ≠ 1) ∧
     (let s := State.reset; let p : Fin 4 := 3; s.unitOn (domStitch ↑p) = true ∧ s.lstate ↑p = 0) ∧
     (let s := State.reset; let p : Fin 4 := 3; s.unitOn (domStitch ↑p) = true) ∧
     (let s := port 3 1 Stitch.reset; let p : Fin 4 := 3; s.unitOn (domStitch ↑p) = true ∧ s.on (F.STI_CTRL_EN ↑p) = true) ∧
     (let s := port 3 1 Stitch.reset; let p : Fin 4 := 3; s.unitOn (domStitch ↑p) = true ∧ s.lstate ↑p = 1)) ∧
    (let s := port 3 1 Stitch.reset; let p : Fin 4 := 3; s.unitOn (domStitch ↑p) = true ∧ s.lstate ↑p ≠ 0) ∧
    (let s := port 3 2 Stitch.reset; let p : Fin 4 := 3; s.unitOn (domStitch ↑p) = true ∧ (s.lstate ↑p = 2 ∨ s.lstate ↑p = 3 ∨ s.lstate ↑p = 4) ∧ (s.sp ↑p).rx = none ∧ (s.sp ↑p).buf = []) :=
  by refine ⟨?_, ?_, ?_⟩ <;> decide +kernel

theorem witness_FramesReceived :
    (let s := port 3 3 Stitch.reset; let p : Fin 4 := 3; let b : BitVec 64 := 0; s.unitOn (domStitch ↑p) = true ∧ s.lstate ↑p = 3 ∧ (crc8 (bytesOf 7 (fld b 0 56)) ≠ fld b 56 8 ∨ ¬fld b 0 8 ∈ [30, 45, 51, 75, 77, 85, 102, 120])) ∧
    (let s := port 3 3 Stitch.reset; let p : Fin 4 := 3; s.unitOn (domStitch ↑p) = true ∧ s.lstate ↑p = 3 ∧ (s.sp ↑p).rx = none) ∧
    (let s := port 3 3 (rxd { frm 1 8 0 9 0 with blocks := 5 }); let p : Fin 4 := 3; let x : RxEntry := ⟨{ frm 1 8 0 9 0 with blocks := 5 }, 1, [], [], none, false, false, false⟩; s.unitOn (domStitch ↑p) = true ∧ s.lstate ↑p = 3 ∧ (s.sp ↑p).rx = some x ∧ (x.live.all fun q => decide (q < 4)) = true) ∧
    (let s := port 3 3 (rxd { frm 1 8 0 9 0 with blocks := 5 }); let p : Fin 4 := 3; let x : RxEntry := ⟨{ frm 1 8 0 9 0 with blocks := 5 }, 1, [], [], none, false, false, false⟩; s.unitOn (domStitch ↑p) = true ∧ s.lstate ↑p = 3 ∧ (s.sp ↑p).rx = some x ∧ (x.live.all fun q => decide (q < 4)) = true ∧ x.frame.crcOk = true ∧ (512 < x.frame.len ∨ x.frame.blocks ≠ (27 + x.frame.len) / 8)) ∧
    (let s := port 3 3 (rxd (frm 1 64 3 9 0)); let p : Fin 4 := 3; let x : RxEntry := ⟨frm 1 64 3 9 0, 1, [], [], none, false, false, false⟩; s.unitOn (domStitch ↑p) = true ∧ s.lstate ↑p = 3 ∧ (s.sp ↑p).rx = some x ∧ (x.live.all fun q => decide (q < 4)) = true ∧ x.frame.crcOk = true ∧ x.frame.len ≤ 512 ∧ x.frame.blocks = (27 + x.frame.len) / 8 ∧ (x.frame.hmode = 3 ∨ (x.frame.type = 0 ∨ 13 ≤ x.frame.type) ∧ (x.frame.hmode ≠ 0 ∨ x.frame.dest = s.sig ∧ s.sig ≠ 65535))) ∧
    (let s := port 3 3 { rxd (frm 1 64 0 9 0) with rx := some ⟨frm 1 64 0 9 0, 1, [], [], none, true, false, false⟩ }; let p : Fin 4 := 3; let x : RxEntry := ⟨frm 1 64 0 9 0, 1, [], [], none, true, false, false⟩; s.unitOn (domStitch ↑p) = true ∧ s.lstate ↑p = 3 ∧ (s.sp ↑p).rx = some x ∧ (x.live.all fun q => decide (q < 4)) = true ∧ frameSound x.frame ∧ x.misroute = true ∧ x.live = []) ∧
    (let s := (port 3 3 { Stitch.reset with rx := some ⟨{ frm 1 8 0 9 0 with crc := 0 }, 1, [], [], none, false, false, false⟩ }).setSp 2 { Stitch.reset with busy := true }; let p : Fin 4 := 3; let x : RxEntry := ⟨{ frm 1 8 0 9 0 with crc := 0 }, 1, [], [], none, false, false, false⟩; s.unitOn (domStitch ↑p) = true ∧ s.lstate ↑p = 3 ∧ (s.sp ↑p).rx = some x ∧ (x.live.all fun q => decide (q < 4)) = true ∧ x.frame.crc ≠ crc32 x.frame.covered) ∧
    (let s := (port 3 3 Stitch.reset).setSig 9; let p : Fin 4 := 3; let f : Frame := frm 1 8 0 9 0; let away : Prop := f.dest ≠ s.sig ∨ s.sig = 65535; s.lstate ↑p = 3 ∧ f.hmode = 0 ∧ f.type ≠ 11 ∧ ¬away) ∧
    (let s := ((port 3 3 Stitch.reset).setSig 9).learn 8 2; let p : Fin 4 := 3; let f : Frame := frm 1 8 0 8 0; let away : Prop := f.dest ≠ s.sig ∨ s.sig = 65535; let q : Nat := 2; s.lstate ↑p = 3 ∧ f.hmode = 0 ∧ f.type ≠ 11 ∧ away ∧ s.route f.dest = some q ∧ q ≠ ↑p) ∧
    (let s := ((port 3 3 Stitch.reset).setSig 9).setUp (some 2); let p : Fin 4 := 3; let f : Frame := frm 1 8 0 8 0; let away : Prop := f.dest ≠ s.sig ∨ s.sig = 65535; let q : Nat := 2; s.lstate ↑p = 3 ∧ f.hmode = 0 ∧ f.type ≠ 11 ∧ away ∧ s.route f.dest = none ∧ s.upPort = some q ∧ q ≠ ↑p) ∧
    (let s := ((port 3 3 Stitch.reset).setSig 9).learn 8 3; let p : Fin 4 := 3; let f : Frame := frm 1 8 0 8 0; let away : Prop := f.dest ≠ s.sig ∨ s.sig = 65535; s.lstate ↑p = 3 ∧ f.hmode = 0 ∧ f.type ≠ 11 ∧ away ∧ s.route f.dest = some p.val) ∧
    (let s := port 3 3 Stitch.reset; let p : Fin 4 := 3; let f : Frame := frm 1 8 0 0xFFFF 0; let away : Prop := f.dest ≠ s.sig ∨ s.sig = 65535; s.lstate ↑p = 3 ∧ f.hmode = 0 ∧ f.type ≠ 11 ∧ away ∧ s.route f.dest = none ∧ s.upPort = none) ∧
    ((let f : Frame := frm 6 8 2 0 0; f.hmode = 2) ∧
     (let s := port 3 3 Stitch.reset; let p : Fin 4 := 3; let f : Frame := frm 11 0 0 0xFFFF 0; s.lstate ↑p = 3 ∧ f.hmode = 0 ∧ f.type = 11 ∧ s.upPort = none) ∧
     (let s := ((port 3 3 Stitch.reset).put (F.STI_STATUS_LSTATE 0) 3).setUp (some 3); let p : Fin 4 := 3; let f : Frame := frm 5 0 1 0xFFFF 0; s.lstate ↑p = 3 ∧ f.hmode = 1 ∧ typeReserved f.type = false ∧ s.upPort = some p.val) ∧
     (let s := port 3 4 Stitch.reset; let p : Fin 4 := 3; let f : Frame := frm 1 8 0 9 0; s.lstate ↑p = 4 ∧ (f.hmode = 0 ∨ f.hmode = 1 ∧ typeReserved f.type = false)) ∧
     (let s := (port 3 3 Stitch.reset).setUp (some 2); let p : Fin 4 := 3; let f : Frame := frm 11 0 0 0xFFFF 0; let q : Nat := 2; s.lstate ↑p = 3 ∧ f.hmode = 0 ∧ f.type = 11 ∧ s.upPort = some q ∧ q ≠ ↑p)) :=
  by refine ⟨?_, ?_, ?_, ?_, ?_, ?_, ?_, ?_, ?_, ?_, ?_, ?_, ?_⟩ <;> decide +kernel

theorem witness_FrameDelivery :
    (let s := port 3 3 Stitch.reset; let p : Fin 4 := 3; let f : Frame := frm 12 0 2 0 0; s.portIdle ↑p ∧ f.type ≠ 1) ∧
    (let s := port 3 3 Stitch.reset; let p : Fin 4 := 3; let f : Frame := frm 12 0 2 0 0; s.portIdle ↑p ∧ f.type ≠ 2) ∧
    (let s := port 3 3 Stitch.reset; let p : Fin 4 := 3; let f : Frame := frm 12 0 2 0 0; s.portIdle ↑p ∧ f.type ≠ 3) ∧
    (let s := port 3 3 Stitch.reset; let p : Fin 4 := 3; let f : Frame := frm 12 0 2 0 0; s.portIdle ↑p ∧ f.type ≠ 4) ∧
    (let s := port 3 3 Stitch.reset; let p : Fin 4 := 3; let f : Frame := frm 12 0 2 0 0; s.portIdle ↑p ∧ f.type ≠ 5) ∧
    (let s := (port 3 3 Stitch.reset).put (F.BNK_OWN_OWNER 127) 0x23; let p : Fin 4 := 3; let f : Frame := frm 1 8 2 0 0x1FFFFF8; let a : Nat := fld f.word1 0 25; s.portIdle ↑p ∧ f.type = 1 ∧ s.forHere (↑p) f ∧ f.len = 8 ∧ f.payload.length = 8 ∧ a % 8 = 0 ∧ s.portAGate (bankOf a) 35 = PortAGate.accepted) ∧
    (let s := port 3 3 Stitch.reset; let p : Fin 4 := 3; let f : Frame := frm 1 8 2 0 0x1FFFFF8; let a : Nat := fld f.word1 0 25; s.portIdle ↑p ∧ f.type = 1 ∧ s.forHere (↑p) f ∧ f.len = 8 ∧ f.payload.length = 8 ∧ a % 8 = 0 ∧ s.portAGate (bankOf a) 35 = PortAGate.refused) ∧
    (let s := portQ 5 Stitch.reset; let p : Fin 4 := 3; let f : Frame := frm 2 8 2 0 5; let q : Nat := fld f.word1 0 14; s.portIdle ↑p ∧ f.type = 2 ∧ s.forHere (↑p) f ∧ f.len = 8 ∧ s.queueTakes (59 + ↑p) q) ∧
    (let s := portQ 5 Stitch.reset; let p : Fin 4 := 3; let f : Frame := frm 4 8 2 0 (BitVec.ofNat 64 (5 + 1 * 2 ^ 16 + 1 * 2 ^ 32)); let d : Int := s.lineDistance (fld f.word1 16 14) (fld f.word1 32 32); s.portIdle ↑p ∧ f.type = 4 ∧ s.forHere (↑p) f ∧ (d < Int.ofNat (s.get F.RHO_CTRL_LAMIN) ∨ 1024 < d)) ∧
    (let s := portQ 5 Stitch.reset; let p : Fin 4 := 3; let f : Frame := frm 3 0 2 0 0x400; let ev : Nat := fld f.word1 0 12; s.portIdle ↑p ∧ f.type = 3 ∧ s.forHere (↑p) f ∧ 1024 ≤ ev ∧ ev ≤ 2047) ∧
    (let s := portQ 5 Stitch.reset; let p : Fin 4 := 3; let f : Frame := frm 3 0 2 0 0x3FF; let ev : Nat := fld f.word1 0 12; s.portIdle ↑p ∧ f.type = 3 ∧ s.forHere (↑p) f ∧ (ev < 1024 ∨ 2047 < ev)) ∧
    (let s := (portQ 5 Stitch.reset).put F.RHO_CTRL_LAMIN 1; let p : Fin 4 := 3; let f : Frame := frm 4 8 2 0 (BitVec.ofNat 64 (5 + 1 * 2 ^ 16)); let q : Nat := fld f.word1 0 14; let d : Int := s.lineDistance (fld f.word1 16 14) (fld f.word1 32 32); s.portIdle ↑p ∧ f.type = 4 ∧ s.forHere (↑p) f ∧ f.len = 8 ∧ Int.ofNat (s.get F.RHO_CTRL_LAMIN) ≤ d ∧ d ≤ 1024 ∧ s.queueTakes (59 + ↑p) q) ∧
    (let s := portQ 5 { Stitch.reset with buf := [⟨frm 2 8 0 0 5, 4, [], [], some 0, false, true, false⟩] }; let p : Fin 4 := 3; let f : Frame := frm 2 8 0 0 5; let seq : Nat := 4; s.unitOn (domStitch ↑p) = true ∧ f.type = 2 ∧ f.len = 8 ∧ f.hmode = 0 ∧ (s.sp ↑p).buf = [{ frame := f, seq := seq, outs := [], live := [], todo := some 0, misroute := false, ended := true, judged := false }] ∧ s.queueTakes (59 + ↑p) (fld f.word1 0 14)) :=
  by refine ⟨?_, ?_, ?_, ?_, ?_, ?_, ?_, ?_, ?_, ?_, ?_, ?_, ?_⟩ <;> decide +kernel

theorem witness_LinkControlAndSending :
    ((let s := port 3 2 Stitch.reset; let p : Fin 4 := 3; s.unitOn (domStitch ↑p) = true ∧ 2 ≤ s.lstate ↑p) ∧
     (let s := port 3 2 Stitch.reset; let p : Fin 4 := 3; s.unitOn (domStitch ↑p) = true ∧ 2 ≤ s.lstate ↑p ∧ (s.sp ↑p).unanswered ≠ 8 ∧ (s.sp ↑p).intervals ≠ 255) ∧
     (let s := port 3 2 Stitch.reset; let p : Fin 4 := 3; let a : Fin 16 := 2; let b : Fin 16 := 0; s.unitOn (domStitch ↑p) = true ∧ 2 ≤ s.lstate ↑p ∧ a ≠ b) ∧
     (let s := port 3 3 { Stitch.reset with unanswered := 8, echoes := List.replicate 64 5 }; let p : Fin 4 := 3; s.unitOn (domStitch ↑p) = true ∧ 2 ≤ s.lstate ↑p ∧ (s.sp ↑p).unanswered = 8) ∧
     (let s := port 3 2 Stitch.reset; let p : Fin 4 := 3; let t1 : BitVec 32 := 0xFFFFFFFF; let turn : BitVec 16 := 0xFFFF; let crc : BitVec 8 := 77; let check := crc8 (bytesOf 7 (0x4D + t1.toNat * 2 ^ 8 + turn.toNat * 2 ^ 40)); s.unitOn (domStitch ↑p) = true ∧ 2 ≤ s.lstate ↑p ∧ check = crc.toNat) ∧
     (let s := port 3 2 Stitch.reset; let p : Fin 4 := 3; let t1 : BitVec 32 := 0xFFFFFFFF; let turn : BitVec 16 := 0xFFFF; let crc : BitVec 8 := 178; let check := crc8 (bytesOf 7 (0x4D + t1.toNat * 2 ^ 8 + turn.toNat * 2 ^ 40)); s.unitOn (domStitch ↑p) = true ∧ 2 ≤ s.lstate ↑p ∧ check ≠ crc.toNat)) ∧
    (let s := (port 3 3 { Stitch.reset with own := [frm 5 0 1 0 0] }).put (F.STI_CRED_TXCRED 3 0) 1; let p : Fin 4 := 3; let f : Frame := frm 5 0 1 0 0; let rest : List Frame := .nil; let empty : Prop := ∀ (q : Nat), q < 4 → (s.sp q).buf = [] ∧ (s.sp q).rx = none; let idle : Prop := (s.sp ↑p).skip = [] ∧ ∀ (v : Nat), v < 16 → s.qCount (vcQueue (↑p) v) = 0; s.unitOn (domStitch ↑p) = true ∧ s.lstate ↑p = 3 ∧ (s.sp ↑p).busy = false ∧ (s.sp ↑p).linkOut = [] ∧ (s.sp ↑p).own = f :: rest ∧ empty ∧ idle ∧ f.cost ≤ s.get (F.STI_CRED_TXCRED (↑p) 0)) ∧
    (let s := (port 3 3 { Stitch.reset with own := [frm 5 0 1 0 0] }).put (F.STI_CFG_STARVTO 3) 1; let p : Fin 4 := 3; let f : Frame := frm 5 0 1 0 0; let rest : List Frame := .nil; let empty : Prop := ∀ (q : Nat), q < 4 → (s.sp q).buf = [] ∧ (s.sp q).rx = none; let idle : Prop := (s.sp ↑p).skip = [] ∧ ∀ (v : Nat), v < 16 → s.qCount (vcQueue (↑p) v) = 0; s.unitOn (domStitch ↑p) = true ∧ s.lstate ↑p = 3 ∧ (s.sp ↑p).own = f :: rest ∧ empty ∧ idle ∧ s.on (F.STI_CFG_STARVTO ↑p) = true ∧ s.get (F.STI_CRED_TXCRED (↑p) 0) < f.cost) ∧
    (let s := ((port 3 3 { Stitch.reset with own := [] }).put (F.STI_CRED_TXCRED 3 0) 9).setSp 2 { Stitch.reset with buf := [⟨frm 1 8 0 9 0, 4, [3], [], none, false, true, false⟩] }; let p : Fin 4 := 3; let idle : Prop := (s.sp ↑p).skip = [] ∧ ∀ (v : Nat), v < 16 → s.qCount (vcQueue (↑p) v) = 0; let q : Fin 4 := 2; let x : RxEntry := ⟨frm 1 8 0 9 0, 4, [3], [], none, false, true, false⟩; s.unitOn (domStitch ↑p) = true ∧ s.lstate ↑p = 3 ∧ q ≠ p ∧ (s.sp ↑p).busy = false ∧ (s.sp ↑p).linkOut = [] ∧ idle ∧ (s.sp ↑q).buf = [x] ∧ (s.sp ↑q).rx = none ∧ (∀ (r : Nat), r < 4 → r ≠ ↑q → (s.sp r).buf = [] ∧ (s.sp r).rx = none) ∧ x.outs = [↑p] ∧ x.live = [] ∧ x.todo = none ∧ x.ended = true ∧ x.frame.hmode ≠ 2 ∧ ((s.sp ↑p).own = [] ∨ x.frame.vc = 0) ∧ x.frame.cost ≤ s.get (F.STI_CRED_TXCRED (↑p) x.frame.vc)) ∧
    ((let s := port 3 3 { Stitch.reset with busy := true }; let p : Fin 4 := 3; s.unitOn (domStitch ↑p) = true ∧ s.lstate ↑p = 3 ∧ s.on (F.STI_CFG_STARVTO ↑p) = false) ∧
     (let s := port 3 3 { Stitch.reset with linkOut := [frm 6 8 2 0 0] }; let p : Fin 4 := 3; let f : Frame := frm 6 8 2 0 0; let rest : List Frame := .nil; s.unitOn (domStitch ↑p) = true ∧ s.lstate ↑p = 3 ∧ (s.sp ↑p).busy = false ∧ (s.sp ↑p).linkOut = f :: rest)) ∧
    (let s := port 3 2 { Stitch.reset with tx := { LinkTx.reset with alignAt := 5, slot := 3 } }; let p : Fin 4 := 3; let x : Stitch := s.sp ↑p; let at_ : Table Nat → Nat → Nat := fun m v => tget (fun x => 0) m v; let still : Prop := ∀ (v : Nat), v < 16 → at_ x.freed v = at_ x.tx.returned v; s.unitOn (domStitch ↑p) = true ∧ 2 ≤ s.lstate ↑p ∧ x.busy = false ∧ x.linkOut = [] ∧ s.lstate ↑p = 2 ∧ x.tx.dueRsp = none ∧ x.tx.dueReq = false ∧ x.tx.dueBeam = false ∧ still ∧ x.tx.slot < x.tx.alignAt) ∧
    ((let i : Nat := 0; i < 64) ∧
     (let s := port 3 3 { Stitch.reset with tx := { LinkTx.reset with dueRsp := some (0xFFFFFFFF, 3), dueReq := true, dueBeam := true, alignAt := 5 }, freed := [(2, 7), (15, 4095)], busy := true, linkOut := [frm 6 8 2 0 0] }; let p : Fin 4 := 3; let x : Stitch := s.sp ↑p; s.unitOn (domStitch ↑p) = true ∧ 2 ≤ s.lstate ↑p ∧ x.busy = true)) :=
  by refine ⟨?_, ?_, ?_, ?_, ?_, ?_, ?_⟩ <;> decide +kernel

theorem witness_Wall :
    (let s : State := { wall 1 0 with rho := { Rho.reset with walk := some ⟨true, 0, 3, 5⟩ } }; let p : Fin 4 := 3; let w : Walk := ⟨true, 0, 3, 5⟩; let last : Prop := s.rho.walk = some w ∧ w.root = true ∧ w.port = ↑p ∧ ∀ (q : Nat), q < 4 → ↑p < q → s.lstate q ≠ 3; s.portIdle ↑p ∧ s.rhoOn = true ∧ last) ∧
    (let s : State := { wall 1 0 with rho := { Rho.reset with walk := some ⟨true, 0, 3, 5⟩ } }; let p : Fin 4 := 3; let w : Walk := ⟨true, 0, 3, 5⟩; let last : Prop := s.rho.walk = some w ∧ w.root = true ∧ w.port = ↑p ∧ ∀ (q : Nat), q < 4 → ↑p < q → s.lstate q ≠ 3; s.portIdle ↑p ∧ s.rhoOn = true ∧ last ∧ w.next < 2 ^ 16) ∧
    ((let s := wall 0 0; let p : Fin 4 := 3; let epoch : BitVec 16 := 9; s.portIdle ↑p ∧ s.rhoOn = true ∧ s.role ≠ 1 ∧ s.epoch ≠ epoch.toNat) ∧
     (let s : State := { wall 1 0 with rho := { Rho.reset with walk := some ⟨true, 0, 3, 5⟩ } }; let p : Fin 4 := 3; let epoch : BitVec 16 := 7; s.portIdle ↑p ∧ s.rhoOn = true ∧ (s.role = 1 ∨ s.epoch = epoch.toNat)) ∧
     (let s : State := { wall 1 0 with rho := { Rho.reset with walk := some ⟨true, 0, 3, 5⟩ } }; let p : Fin 4 := 3; s.portIdle ↑p ∧ s.rhoOn = true ∧ s.role = 1 ∧ s.upPort = none)) ∧
    ((let s := (State.reset).put F.RHO_STATUS_ROLE 1; s.unitOn domTimer = true ∧ s.role = 1 ∧ s.on F.RHO_STATUS_ENUMBUSY = false) ∧
     (let s := (State.reset).put F.RHO_STATUS_ROLE 1; let b : Bool := s.on F.RHO_CTRL_RHOEN; s.unitOn domTimer = true ∧ s.on F.RHO_CTRL_RHOEN = b) ∧
     (let s := (State.reset).put F.RHO_STATUS_ROLE 1; let value : BitVec 64 := BitVec.ofNat 64 (1 + 1 * 2 ^ 16); let frame : Nat := (s.beam.frame + fld value 32 16) % 2 ^ 32; s.unitOn domTimer = true ∧ (s.role = 1 ∨ s.role = 3) ∧ s.on F.RHO_STATUS_WPARMED = false ∧ s.targetPassed (fld value 0 14) (fld value 16 14) frame = false) ∧
     (let s := State.reset.put F.RHO_CTRL_HEADEN 1; s.unitOn domTimer = true ∧ s.role ≠ 1) ∧
     (let s := State.reset.put F.RHO_CTRL_HEADEN 1; s.unitOn domTimer = true ∧ s.on F.RHO_CTRL_RHOEN = false ∧ s.on F.RHO_CTRL_HEADEN = true) ∧
     (let s := State.reset.put F.RHO_CTRL_HEADEN 1; s.unitOn domTimer = true ∧ s.role ≠ 1 ∧ s.role ≠ 3)) ∧
    ((let s := wall 2 1; s.unitOn domTimer = true ∧ s.on F.RHO_CTRL_RHOEN = true) ∧
     (let s := ((port 3 3 Stitch.reset).put (F.STI_LINKINFO_FREFOK 3) 1); let p : Fin 4 := 3; s.unitOn domTimer = true ∧ s.on F.RHO_CTRL_RHOEN = false ∧ s.on F.RHO_CTRL_HEADEN = false ∧ s.role = 0 ∧ s.lstate ↑p = 3 ∧ s.on (F.STI_LINKINFO_FREFOK ↑p) = true ∧ ∀ (q : Fin 4), q < p → ¬(s.lstate ↑q = 3 ∧ s.on (F.STI_LINKINFO_FREFOK ↑q) = true))) :=
  by refine ⟨?_, ?_, ?_, ?_, ?_⟩ <;> decide +kernel

theorem witness_WallLockAndRoles :
    (let s : State := { wall 2 1 with rho := { Rho.reset with near := 15 } }; let p : Fin 4 := 3; let tick : BitVec 14 := 0; let line : BitVec 14 := 0; let inside : Prop := line.toNat < s.vTotal ∧ tick.toNat < s.hTotal; s.portIdle ↑p ∧ s.rhoOn = true ∧ s.upPort = some p.val ∧ s.role = 2 ∧ inside) ∧
    (let s : State := { wall 2 1 with rho := { Rho.reset with coarseFrame := true } }; let p : Fin 4 := 3; let tick : BitVec 14 := 16; let line : BitVec 14 := 0; let inside : Prop := line.toNat < s.vTotal ∧ tick.toNat < s.hTotal; s.portIdle ↑p ∧ s.rhoOn = true ∧ s.upPort = some p.val ∧ s.role = 2 ∧ ¬inside) ∧
    (let s : State := { wall 2 1 with rho := { Rho.reset with coarseFrame := true } }; let p : Fin 4 := 3; let tick : BitVec 14 := 16; let line : BitVec 14 := 0; let inside : Prop := line.toNat < s.vTotal ∧ tick.toNat < s.hTotal; let q : Fin 4 := 3; s.portIdle ↑p ∧ s.rhoOn = true ∧ s.upPort = some p.val ∧ s.role = 2 ∧ s.unitOn (domStitch ↑q) = true ∧ s.lstate ↑q = 3 ∧ ¬inside) ∧
    (let s : State := { wall 2 1 with rho := { Rho.reset with coarseFrame := true } }; let p : Fin 4 := 3; let w1 : BitVec 64 := BitVec.ofNat 64 (15 + 2 ^ 16); let geom : Prop := fld w1 0 14 = s.get F.BEAM_GEOM_HTOT ∧ fld w1 16 14 = s.get F.BEAM_GEOM_VTOT; s.portIdle ↑p ∧ s.rhoOn = true ∧ s.upPort = some p.val ∧ s.role = 2 ∧ geom ∧ s.rho.coarseFrame = true) ∧
    (let s := (wall 2 1).put F.RHO_STATUS_LOCKED 1; let p : Fin 4 := 3; let w0 : BitVec 64 := 5; let w1 : BitVec 64 := BitVec.ofNat 64 (15 + 2 ^ 16); let geom : Prop := fld w1 0 14 = s.get F.BEAM_GEOM_HTOT ∧ fld w1 16 14 = s.get F.BEAM_GEOM_VTOT; s.portIdle ↑p ∧ s.rhoOn = true ∧ s.upPort = some p.val ∧ s.role = 2 ∧ geom ∧ s.rho.coarseFrame = false ∧ s.on F.RHO_STATUS_LOCKED = true ∧ s.beam.frame ≠ w0.toNat) ∧
    (let s := wall 2 1; let p : Fin 4 := 3; let w1 : BitVec 64 := 0; let geom : Prop := fld w1 0 14 = s.get F.BEAM_GEOM_HTOT ∧ fld w1 16 14 = s.get F.BEAM_GEOM_VTOT; s.portIdle ↑p ∧ s.rhoOn = true ∧ s.upPort = some p.val ∧ s.role = 2 ∧ ¬geom) ∧
    ((let s : State := { wall 2 1 with rho := { Rho.reset with near := 15 } }; let p : Fin 4 := 3; let f : Frame := frm 5 0 1 0 (BitVec.ofNat 64 (3 + 2 ^ 16)); s.portIdle ↑p ∧ s.rhoOn = true ∧ s.upPort = some p.val ∧ s.role = 2 ∧ f.type = 5 ∧ frameSound f ∧ f.hmode = 1) ∧
     (let s : State := { wall 2 1 with rho := { Rho.reset with near := 15 } }; let p : Fin 4 := 3; s.portIdle ↑p ∧ s.rhoOn = true ∧ s.upPort = some p.val ∧ s.role = 2)) ∧
    ((let s := (wall 3 0); let p : Fin 4 := 3; s.rhoOn = true ∧ s.portIdle ↑p ∧ s.role = 3 ∧ s.on F.RHO_STATUS_SLEWING = false ∧ s.rho.reversed = false) ∧
     (let s := (wall 3 0).put F.RHO_STATUS_SLEWING 1; let p : Fin 4 := 3; s.rhoOn = true ∧ s.portIdle ↑p ∧ s.role = 3 ∧ (s.on F.RHO_STATUS_SLEWING = true ∨ s.rho.reversed = true)) ∧
     (let s : State := { wall 2 1 with rho := { Rho.reset with requested := true } }; let p : Fin 4 := 3; s.rhoOn = true ∧ s.portIdle ↑p ∧ s.upPort = some p.val ∧ s.rho.recorded = none ∧ s.rho.requested = true) ∧
     (let s : State := { (wall 3 0).put F.RHO_STATUS_SLEWING 1 with rho := { Rho.reset with slewPort := some 3 } }; let p : Fin 4 := 3; let tick : BitVec 14 := 0; let line : BitVec 14 := 0; let phase : BitVec 13 := 0; s.rhoOn = true ∧ s.unitOn (domStitch ↑p) = true ∧ (s.lstate ↑p = 3 ∨ s.lstate ↑p = 4) ∧ s.role = 3 ∧ s.upPort ≠ some p.val ∧ s.on F.RHO_STATUS_SLEWING = true ∧ s.rho.slewPort = some p.val ∧ line.toNat < s.vTotal ∧ tick.toNat < s.hTotal ∧ (s.markerErr (↑p) tick.toNat line.toNat phase.toNat).natAbs ≤ s.get F.RHO_LOOP_LOCKTH)) :=
  by refine ⟨?_, ?_, ?_, ?_, ?_, ?_, ?_, ?_⟩ <;> decide +kernel

theorem witness_HostWindow :
    ((let s := State.reset; s.bw = []) ∧
     (let s := State.reset; let addr : BitVec 22 := 0; let be : BitVec 4 := 0; let key : Nat := addr.toNat / 2 * 8; let d : Nat := 0; s.pwr.running = true ∧ be = 0 ∧ domOfKey key = some d ∧ s.domState d ≤ 1) ∧
     (let s : State := { State.reset with pwr := { State.reset.pwr with running := false } }; s.pwr.running = false) ∧
     (let s := State.reset.setDom (domDma 0) 2; let addr : BitVec 22 := BitVec.ofNat 22 (R.DMA_SRC 0 0 / 4); let be : BitVec 4 := 15; let key : Nat := addr.toNat / 2 * 8; let d : Nat := 165; s.pwr.running = true ∧ domOfKey key = some d ∧ (be ≠ 0 ∧ be ≠ 15 ∨ 2 ≤ s.domState d)) ∧
     (let s : State := { State.reset with bw := [⟨0x7FFFFF, false, 15, 7, none⟩] }; let waddr : BitVec 23 := 0x7FFFFF; let isWrite : Bool := false; let be : BitVec 4 := 15; let data : BitVec 32 := 7; let waits : BwAccess := { addr := waddr.toNat, write := isWrite, be := be.toNat, data := data, answer := none }; s.bw = [waits]) ∧
     (let s : State := { State.reset with bw := [⟨0, false, 15, 0, none⟩, ⟨0x7FFFFF, true, 15, 7, none⟩] }; let waddr : BitVec 23 := 0x7FFFFF; let isWrite : Bool := true; let be : BitVec 4 := 15; let data : BitVec 32 := 7; let b : BwAccess := ⟨0, false, 15, 0, none⟩; let waits : BwAccess := { addr := waddr.toNat, write := isWrite, be := be.toNat, data := data, answer := none }; s.bw = [b, waits] ∧ b.answer = none ∧ b.addr ≠ waddr.toNat)) ∧
    (let f : FieldSpec := ⟨8, 8, .rw, 0, [(0, 4)]⟩; let h : HostWr := ⟨0, 0, 0, 0x1234567890ABCDEF, 0xFFFFFFFFFFFF04FF, 0xFFFFFFFFFFFF04FF, true, true⟩; let new : Nat := fld h.v f.lo f.width; let good : Prop := f.ok = [] ∨ ∃ r, r ∈ f.ok ∧ r.fst ≤ new ∧ new ≤ r.snd; f.lo + f.width ≤ 64 ∧ h.low = true ∧ h.high = true ∧ h.wr = h.v ∧ f.acc = Access.rw ∧ good) ∧
    (let f : FieldSpec := ⟨8, 8, .rw, 0, [(0, 4)]⟩; let h : HostWr := ⟨0, 0, 0, 0x1234567890ABCDEF, 0xFFFFFFFFFFFF05FF, 0xFFFFFFFFFFFF05FF, true, true⟩; let new : Nat := fld h.v f.lo f.width; let good : Prop := f.ok = [] ∨ ∃ r, r ∈ f.ok ∧ r.fst ≤ new ∧ new ≤ r.snd; f.lo + f.width ≤ 64 ∧ h.low = true ∧ h.high = true ∧ h.wr = h.v ∧ f.acc = Access.rw ∧ ¬good) ∧
    ((let f : FieldSpec := ⟨60, 4, .w1c, 0, []⟩; let h : HostWr := ⟨0, 0, 0, 0xF234567890ABCDEF, 0x5FFFFFFFFFFF05FF, 0x5FFFFFFFFFFF05FF, true, true⟩; let i : Nat := 0; f.lo + f.width ≤ 64 ∧ h.low = true ∧ h.high = true ∧ h.wr = h.v ∧ f.acc = Access.w1c ∧ i < f.width) ∧
     (let f : FieldSpec := ⟨60, 4, .w1s, 0, []⟩; let h : HostWr := ⟨0, 0, 0, 0x8234567890ABCDEF, 0x5FFFFFFFFFFF05FF, 0x5FFFFFFFFFFF05FF, true, true⟩; let i : Nat := 0; f.lo + f.width ≤ 64 ∧ h.low = true ∧ h.high = true ∧ h.wr = h.v ∧ f.acc = Access.w1s ∧ i < f.width) ∧
     (let f : FieldSpec := ⟨60, 4, .ro, 0, []⟩; let h : HostWr := ⟨0, 0, 0, 0x8234567890ABCDEF, 0x5FFFFFFFFFFF05FF, 0x5FFFFFFFFFFF05FF, true, true⟩; f.lo + f.width ≤ 64 ∧ h.low = true ∧ h.high = true ∧ h.wr = h.v ∧ (f.acc = Access.ro ∨ f.acc = Access.wo))) ∧
    ((let s := State.reset.holdLow (R.DMA_SRC 63 0) (some 0xFFFFFFFF); s.pwr.running = true ∧ s.domState 0 = 0) ∧
     (let s := State.reset.holdLow (R.DMA_SRC 63 0) (some 0xFFFFFFFF); let n : Fin 64 := 63; s.pwr.running = true ∧ s.domState (domDma ↑n) ≤ 1) ∧
     (let s := State.reset.holdLow (R.DMA_SRC 63 0) (some 0xFFFFFFFF); let n : Fin 64 := 63; let low : BitVec 32 := 0xFFFFFFFF; let src : Nat := R.DMA_SRC (↑n) 0; s.pwr.running = true ∧ s.domState (domDma ↑n) ≤ 1 ∧ s.dmaState ↑n = 0 ∧ tget (fun x => none) s.held src = some low) ∧
     (let s := State.reset.holdLow (R.DMA_SRC 63 0) (some 0xFFFFFFFF); let addr : BitVec 22 := 0xFFF; let page : Nat := addr.toNat / 1024; s.pwr.running = true ∧ pageListed page = true) ∧
     (let s := State.reset.holdLow (R.DMA_SRC 63 0) (some 0xFFFFFFFF); let addr : BitVec 22 := 0xFFF; let page : Nat := addr.toNat / 1024; let d : Nat := 0; let kind : PageKind := PageKind.col; let u : Nat := 0; s.pwr.running = true ∧ domOfKey (addr.toNat / 2 * 8) = some d ∧ s.domState d ≤ 1 ∧ pageKind page = some (kind, u) ∧ ¬kind ∈ [PageKind.qd, PageKind.pio, PageKind.cst]) ∧
     (let s := State.reset.holdLow (R.DMA_SRC 63 0) (some 0xFFFFFFFF); s.pwr.running = true ∧ s.domState domBnd = 0)) ∧
    (let s := State.reset; let addr : BitVec 22 := 0x3FFFFF; let page : Nat := addr.toNat / 1024; s.pwr.running = true ∧ pageListed page = false) :=
  by refine ⟨?_, ?_, ?_, ?_, ?_, ?_⟩ <;> decide +kernel

theorem witness_BankWindowAndTestRegisters :
    ((let s := State.reset; s.pwr.running = true ∧ s.bw = []) ∧
     (let s := State.reset; let addr : BitVec 23 := 0x7FFFFF; let n : Nat := addr.toNat / 65536; let w : Nat := addr.toNat / 2; s.pwr.running = true ∧ s.bw = [] ∧ s.unitOn (domBank n) = true ∧ s.get (F.BNK_OWN_OWNER n) ≠ 34 ∧ (s.bk n).march = none ∧ s.portBWaits n PortBUser.hostWindow [w] = false) ∧
     (let s := State.reset; let addr : BitVec 23 := 0x7FFFFF; let n : Nat := addr.toNat / 65536; let w : Nat := addr.toNat / 2; s.pwr.running = true ∧ s.bw = [] ∧ s.unitOn (domBank n) = true ∧ s.get (F.BNK_OWN_OWNER n) ≠ 34 ∧ (s.bk n).march = none ∧ s.portBWaits n PortBUser.hostWindow [w] = false ∧ secSyndrome (s.arrWord w) = 0 ∧ s.on (F.BNK_INJ_ARM n) = false) ∧
     (let s := State.reset.setDom (domBank 127) 1; let addr : BitVec 23 := 0x7FFFFF; let n : Nat := addr.toNat / 65536; s.pwr.running = true ∧ s.bw = [] ∧ s.unitOn (domBank n) = false) ∧
     (let s := State.reset.put (F.BNK_OWN_OWNER 127) 0x22; let addr : BitVec 23 := 0x7FFFFF; let n : Nat := addr.toNat / 65536; s.pwr.running = true ∧ s.bw = [] ∧ s.get (F.BNK_OWN_OWNER n) = 34 ∧ s.portAGate n 34 = PortAGate.accepted) ∧
     (let s := State.reset.setBk 127 { Bank.reset with march := some ⟨false, 5, 0, [], false⟩ }; let addr : BitVec 23 := 0x7FFFFF; let n : Nat := addr.toNat / 65536; let m : March := ⟨false, 5, 0, [], false⟩; s.pwr.running = true ∧ s.bw = [] ∧ s.unitOn (domBank n) = true ∧ s.get (F.BNK_OWN_OWNER n) ≠ 34 ∧ (s.bk n).march = some m ∧ m.preserving = false)) ∧
    ((let s : State := { State.reset with pwr := { State.reset.pwr with testMode := true } }; s.pwr.testMode = true) ∧
     (let s := State.reset.setDom (domBank 127) 1; s.pwr.testMode = false) ∧
     (let s := State.reset.setDom (domBank 127) 1; let n : Fin 128 := 127; let value : BitVec 32 := 127; bit value 17 = false ∧ fld value 0 7 = ↑n ∧ s.unitOn (domBank ↑n) = false) ∧
     (let s := State.reset; let n : Fin 128 := 127; let value : BitVec 32 := BitVec.ofNat 32 (127 + 2 * 2 ^ 7); bit value 17 = false ∧ fld value 0 7 = ↑n ∧ fld value 7 2 = 2 ∧ s.unitOn (domBank ↑n) = true ∧ (s.bk ↑n).march = none ∧ s.on (F.BNK_LOCK_MARCH ↑n) = false) ∧
     (let s := (State.reset.put (F.BNK_STATUS_MFAIL 127) 1).setReg (R.BNK_MFAIL 127) 0x7FFFFF; let n : Fin 128 := 127; s.get (F.BNK_STATUS_MFAIL ↑n) = 1 ∧ ∀ (m : Fin 128), m < n → s.get (F.BNK_STATUS_MFAIL ↑m) = 0)) :=
  by refine ⟨?_, ?_⟩ <;> decide +kernel

theorem witness_BoundaryPorts :
    ((let s := State.reset.setLp 15 ⟨0, none, [⟨5, 1, false⟩], none⟩; let p : Fin 16 := 15; let r : LpRecord := ⟨5, 1, false⟩; let rest : List LpRecord := .nil; let x : LpPort := s.lpp ↑p; s.unitOn domBnd = true ∧ x.serve = none ∧ x.next = r :: rest) ∧
     (let s := State.reset.setLp 15 ⟨0, none, [⟨5, 1, false⟩], none⟩; s.unitOn domBnd = true) ∧
     (let s := State.reset; let p : Fin 16 := 15; let x : LpPort := s.lpp ↑p; s.unitOn domBnd = true ∧ x.serve = none ∧ x.next = []) ∧
     (let s := State.reset.setLp 15 ⟨0, some ⟨0, 5, 0, [], false⟩, [], none⟩; let p : Fin 16 := 15; let x : LpPort := s.lpp ↑p; let v : LpServe := ⟨0, 5, 0, [], false⟩; s.unitOn domBnd = true ∧ x.serve = some v ∧ x.next = [] ∧ (s.get F.BND_CTRL_LPEN).testBit ↑p = false) ∧
     (let s := (State.reset.put F.BND_CTRL_LPEN 0x8000).setLp 15 ⟨0, some ⟨0, 5, 0, [], false⟩, [], none⟩; let p : Fin 16 := 15; let x : LpPort := s.lpp ↑p; let v : LpServe := ⟨0, 5, 0, [], false⟩; s.unitOn domBnd = true ∧ x.serve = some v ∧ x.next = [] ∧ x.held = none ∧ v.got = [] ∧ (s.get F.BND_CTRL_LPEN).testBit ↑p = true ∧ (s.qCount (lpQueue ↑p) < s.recw ↑p ∨ 16 ≤ v.drops)) ∧
     (let s := (((qElems 16271 2 0).setReg R.BND_LPCFG 0).put F.BND_CTRL_LPEN 0x8000).setLp 15 ⟨0, some ⟨0, 0, 0, [], false⟩, [], none⟩; let p : Fin 16 := 15; let x : LpPort := s.lpp ↑p; let v : LpServe := ⟨0, 0, 0, [], false⟩; let h : Word := 0; let e : Word := 0; let b : Bool := false; let c : Bool := false; let u := (((((qElems 16271 2 0).setReg R.BND_LPCFG 0).put F.BND_CTRL_LPEN 0x8000).setLp 15 ⟨0, some ⟨0, 0, 0, [], false⟩, [], none⟩).portOp 48 3 16271 0).2; let w := ((((((qElems 16271 2 0).setReg R.BND_LPCFG 0).put F.BND_CTRL_LPEN 0x8000).setLp 15 ⟨0, some ⟨0, 0, 0, [], false⟩, [], none⟩).portOp 48 3 16271 0).2.portOp 48 2 16271 0).2; s.unitOn domBnd = true ∧ x.serve = some v ∧ v.got = [] ∧ v.drops < 16 ∧ (s.get F.BND_CTRL_LPEN).testBit ↑p = true ∧ s.recw ↑p = 1 ∧ 1 ≤ s.qCount (lpQueue ↑p) ∧ s.portOp (33 + ↑p) 3 (lpQueue ↑p) 0 = (QOut.ok h b, u) ∧ u.portOp (33 + ↑p) 2 (lpQueue ↑p) 0 = (QOut.ok e c, w) ∧ fld h 0 14 < u.vTotal ∧ fld h 0 14 = v.line ∧ fld h 16 16 = v.frame ∧ w.recw ↑p = 1 ∧ w.lpp ↑p = { last := x.last, serve := x.serve, next := [], held := none })) ∧
    (let s := State.reset; let k : Fin 8 := 7; let ready : Bool := false; let open_ : Prop := (s.sp8 ↑k).out = none ∨ ready = true; s.unitOn domBnd = true ∧ open_ ∧ ((s.get F.BND_CTRL_SNDEN).testBit ↑k = false ∨ (s.sp8 ↑k).first = none ∧ s.qCount (soundQueue ↑k) < 2)) ∧
    (let s := sndQ 5 5; let k : Fin 8 := 7; let e : Word := 5; let v : Word := 0; let poisoned : Bool := false; let u := ((sndQ 5 5).portOp 56 2 (soundQueue 7) 0).2; let ready : Bool := true; let freed := s.setSnd (↑k) ({ s.sp8 ↑k with out := none }); let open_ : Prop := (s.sp8 ↑k).out = none ∨ ready = true; s.unitOn domBnd = true ∧ open_ ∧ (s.get F.BND_CTRL_SNDEN).testBit ↑k = true ∧ (s.sp8 ↑k).first = some e ∧ freed.portOp (49 + ↑k) 2 (soundQueue ↑k) 0 = (QOut.ok v poisoned, u)) ∧
    (let s := State.reset.setSnd 7 ⟨none, some ⟨60, 5, 9, true⟩⟩; let k : Fin 8 := 7; let ready : Bool := false; let open_ : Prop := (s.sp8 ↑k).out = none ∨ ready = true; s.unitOn domBnd = true ∧ ¬open_) ∧
    (let s := State.reset; s.unitOn domBnd = true) ∧
    (let s := bltHeld true; let r : BlitReq := ⟨1023, 5, 4, false⟩; let rest : List BlitReq := .nil; let held : Prop := ∀ (i : Nat), i < 4 → s.qCount (16280 + i) ≠ 0; s.unitOn domBnd = true ∧ s.on F.BND_CTRL_BLTEN = true ∧ s.blit.out = false ∧ s.blit.words = none ∧ held ∧ s.blit.waiting = r :: rest) ∧
    (let s := bltHeld false; let held : Prop := ∀ (i : Nat), i < 4 → s.qCount (16280 + i) ≠ 0; s.unitOn domBnd = true ∧ (s.on F.BND_CTRL_BLTEN = false ∨ s.blit.out = true ∨ s.blit.words ≠ none ∨ ¬held ∨ s.blit.waiting = [])) ∧
    ((let s := bltHeld true; s.unitOn domBnd = true) ∧
     (let s := bltHeld true; let r : BlitReq := ⟨1023, 5, 4, false⟩; let rest : List BlitReq := .nil; let ctx : Fin 1024 := 1023; s.unitOn domBnd = true ∧ s.blit.waiting = r :: rest ∧ r.ctx = ↑ctx ∧ r.limit ≠ 0) ∧
     (let s : State := { State.reset with blit := { Blit.reset with words := some [1, 2, 3, 0xFFFFFFFFFFFFFFFF] } }; let a : Word := 1; let b : Word := 2; let c : Word := 3; let d : Word := 0xFFFFFFFFFFFFFFFF; s.unitOn domBnd = true ∧ s.blit.words = some [a, b, c, d]) ∧
     (let s : State := { State.reset with blit := { Blit.reset with words := some [1, 2, 3, 0xFFFFFFFFFFFFFFFF] } }; s.unitOn domBnd = true ∧ s.blit.waiting = [])) :=
  by refine ⟨?_, ?_, ?_, ?_, ?_, ?_, ?_, ?_⟩ <;> decide +kernel

theorem witness_ColophonRecords :
    ((let s := State.reset; s.pwr.running = true ∧ s.on F.COL_STATUS_BASED = false) ∧
     (let s := State.reset; s.pwr.running = true ∧ s.col.intake = []) ∧
     (let s := State.reset; s.pwr.running = true) ∧
     (let s := based (2 ^ 48 - 1) (2 ^ 48 - 1) [occ 0x11, occ 0x71]; let o : Occ := occ 0x11; let rest : List Occ := [occ 0x71]; let n : Nat := s.colSeq; s.pwr.running = true ∧ s.on F.COL_STATUS_BASED = true ∧ s.col.intake = o :: rest ∧ o.own = false ∧ n % 2 ^ 32 ≠ 0) ∧
     (let s := based (2 ^ 32) (2 ^ 32) [occ 0x11]; let o : Occ := occ 0x11; let rest : List Occ := .nil; let n : Nat := s.colSeq; s.pwr.running = true ∧ s.on F.COL_STATUS_BASED = true ∧ s.col.intake = o :: rest ∧ o.own = false ∧ o.full = false ∧ n % 2 ^ 32 = 0) ∧
     (let s := based 5 5 [occ 5, occ 0x71]; let o : Occ := occ 5; let rest : List Occ := [occ 0x71]; s.pwr.running = true ∧ s.on F.COL_STATUS_BASED = true ∧ s.col.intake = o :: rest ∧ o.own = true ∧ o.code = 5)) ∧
    ((let s := frozenIn; s.col.freezing = true) ∧
     (let s := frozenIn; let code : BitVec 10 := 0x11; let k : Nat := code.toNat; let limit : Nat := s.get (rateRF k 12 2); limit ≠ 2 ∨ s.get (rateRF k 0 8) ≤ s.tokens k) ∧
     (let s := based 5 5 .nil; let code : BitVec 10 := 0x11; let k : Nat := code.toNat; let waiting : Nat := (List.filter (fun o => !o.own) s.col.intake).length; let limit : Nat := s.get (rateRF k 12 2); s.col.freezing = false ∧ s.on F.COL_STATUS_BASED = true ∧ (limit = 0 ∨ s.tokens k ≠ 0) ∧ s.acceptedNow = 0 ∧ waiting < 16) ∧
     (let s := ((based 5 5 .nil).setReg (R.COL_RATE 255) 0x2008200820082008).setTokens 0x3FF 0; let code : BitVec 10 := 0x3FF; let k : Nat := code.toNat; let limit : Nat := s.get (rateRF k 12 2); s.col.freezing = false ∧ s.on F.COL_STATUS_BASED = true ∧ limit ≠ 0 ∧ s.tokens k = 0) ∧
     (let s := ((based 5 5 .nil).setReg (R.COL_RATE 255) 0x2008200820082008).setTokens 0x3FF 0; let code : BitVec 10 := 0x3FF; let k : Nat := code.toNat; let limit : Nat := s.get (rateRF k 12 2); s.col.freezing = false ∧ s.on F.COL_STATUS_BASED = true ∧ limit ≠ 0 ∧ s.tokens k = 0 ∧ s.get (suppRF k) < 255) ∧
     (let s := ((based 5 5 .nil).setReg (R.COL_RATE 255) 0x2008200820082008).setTokens 0x3FF 0; let code : BitVec 10 := 0x3FF; let k : Nat := code.toNat; let limit : Nat := s.get (rateRF k 12 2); limit = 2 ∧ s.tokens k < s.get (rateRF k 0 8))) ∧
    ((let s := recs ({ (based 5 5 .nil) with col := { (based 5 5 .nil).col with accepted := (0, 1), intake := [occ 9, occ 0x11] } }) 17; let code : BitVec 10 := 17; let source : Nat := 1519; let p : Occ := occ 0x11; let l : List Occ := [occ 9]; let k : Nat := code.toNat; let waiting : Nat := (List.filter (fun o => !o.own) s.col.intake).length; let limit : Nat := s.get (rateRF k 12 2); s.col.freezing = false ∧ s.on F.COL_STATUS_BASED = true ∧ (limit = 0 ∨ s.tokens k ≠ 0) ∧ s.acceptedNow = 1 ∧ waiting < 16 ∧ s.col.intake = l ++ [p] ∧ p.own = false ∧ (source < p.source ∨ source = p.source ∧ k < p.code)) ∧
     (let s := recs ({ (based 5 5 .nil) with col := { (based 5 5 .nil).col with accepted := (0, 1), intake := [occ 0x11] } }) 17; let code : BitVec 10 := 17; let source : Nat := 1520; let p : Occ := occ 0x11; let l : List Occ := .nil; let k : Nat := code.toNat; let waiting : Nat := (List.filter (fun o => !o.own) s.col.intake).length; let limit : Nat := s.get (rateRF k 12 2); s.col.freezing = false ∧ s.on F.COL_STATUS_BASED = true ∧ (limit = 0 ∨ s.tokens k ≠ 0) ∧ s.acceptedNow = 1 ∧ waiting < 16 ∧ s.col.intake = l ++ [p] ∧ p.own = false ∧ ¬(source < p.source ∨ source = p.source ∧ k < p.code)) ∧
     (let s := recs ({ (based 5 5 .nil) with col := { (based 5 5 .nil).col with accepted := (0, 0), intake := List.replicate 16 (occ 0x11) } }) 16; let code : BitVec 10 := 16; let k : Nat := code.toNat; let waiting : Nat := (List.filter (fun o => !o.own) s.col.intake).length; let limit : Nat := s.get (rateRF k 12 2); s.col.freezing = false ∧ s.on F.COL_STATUS_BASED = true ∧ (limit = 0 ∨ s.tokens k ≠ 0) ∧ s.acceptedNow = 0 ∧ waiting = 16) ∧
     (let s := recs ({ (based 5 5 .nil) with col := { (based 5 5 .nil).col with accepted := (0, 0), intake := List.replicate 16 (occ 0x11) } }) 16; let code : BitVec 10 := 16; let k : Nat := code.toNat; let waiting : Nat := (List.filter (fun o => !o.own) s.col.intake).length; let limit : Nat := s.get (rateRF k 12 2); s.col.freezing = false ∧ s.on F.COL_STATUS_BASED = true ∧ (limit = 0 ∨ s.tokens k ≠ 0) ∧ s.acceptedNow = 0 ∧ waiting = 16 ∧ s.get (suppRF k) < 255)) :=
  by refine ⟨?_, ?_, ?_⟩ <;> decide +kernel

theorem witness_ColophonCommandsAndBase :
    (let s := State.reset; let key : BitVec 32 := 0xFFFFFFFF; let right : Prop := s.on F.COL_STATUS_AUTHSET = true ∧ key = BitVec.ofNat 32 s.colSeq ^^^ s.col.auth; s.pwr.running = true ∧ s.domState 0 = 0 ∧ ¬right) ∧
    ((let s := State.reset; s.pwr.running = true ∧ s.domState 0 = 0 ∧ s.col.freezing = false) ∧
     (let s := State.reset; s.pwr.running = true ∧ s.domState 0 = 0) ∧
     (let s := State.reset; s.pwr.running = true ∧ s.domState 0 = 0 ∧ s.on F.COL_STATUS_AUTHSET = false) ∧
     (let s := thawable; s.pwr.running = true ∧ s.domState 0 = 0 ∧ s.col.freezing = true) ∧
     (let s := thawable; s.pwr.running = true ∧ s.domState 0 = 0 ∧ s.on F.COL_STATUS_BASED = true) ∧
     (let s := (based 4097 4097 .nil).put F.COL_STATUS_AUTHSET 1; s.pwr.running = true ∧ s.domState 0 = 0 ∧ s.on F.COL_STATUS_AUTHSET = true)) ∧
    (let s := (based 4097 4097 .nil).put F.COL_STATUS_AUTHSET 1; let key : BitVec 32 := 4097; let right : Prop := s.on F.COL_STATUS_AUTHSET = true ∧ key = BitVec.ofNat 32 s.colSeq ^^^ s.col.auth; s.pwr.running = true ∧ s.domState 0 = 0 ∧ right) ∧
    ((let s := State.reset; s.on F.COL_STATUS_BASED = false ∧ s.pwr.running = true ∧ s.domState 0 = 0) ∧
     (let s := State.reset; s.on F.COL_STATUS_BASED = false) ∧
     (let u := State.reset.put F.COL_STATUS_BASED 1; u.on F.COL_STATUS_BASED = true)) :=
  by refine ⟨?_, ?_, ?_, ?_⟩ <;> decide +kernel

theorem witness_FlushAndPowerFail :
    ((let s := based 5 5 .nil; s.pwr.running = true ∧ s.on F.COL_STATUS_FLBUSY = false) ∧
     (let s := (based 5 5 .nil).put F.COL_STATUS_FLBUSY 1; s.pwr.running = true ∧ s.on F.COL_STATUS_FLBUSY = true ∧ s.col.pushRest = [] ∧ s.get F.COL_PUSHSEQ_PUSHSEQ = s.colSeq) ∧
     (let s := (flQ [7] .nil 0).put F.COL_STATUS_FLBUSY 1; let w : Word := 7; let v : Word := 0#64; let p : Bool := false; let u := (s.portOp 58 4 16348 7).snd; s.pwr.running = true ∧ s.on F.COL_STATUS_FLBUSY = true ∧ s.col.pushRest = [w] ∧ s.portOp 58 4 16348 w = (QOut.ok v p, u)) ∧
     (let s : State := { based 5 5 .nil with col := { Colophon.reset with live := 4096, pfEnd := some 5 } }; let f : Nat := s.get F.COL_FLSEQ_FLSEQ; let last : Nat := 5; s.pwr.running = true ∧ s.col.pfEnd = some last ∧ seqGap f s.colSeq ≤ s.col.live ∧ seqGap f last < 4096) ∧
     (let s : State := { based 5 5 .nil with col := { Colophon.reset with portStop := true } }; s.pwr.running = true ∧ s.col.pfEnd = none ∧ s.col.portStop = true) ∧
     (let s := flQ .nil [1, 2, 3] 1; let a : Word := 1; let b : Word := 2; let c : Word := 3; let d : Word := 0#64; let p : Bool := false; let u := (s.portOp 58 2 16348 0).snd; s.pwr.running = true ∧ s.col.pfEnd = none ∧ s.col.portStop = false ∧ s.col.portPart = [a, b, c] ∧ s.portOp 58 2 16348 0 = (QOut.ok d p, u) ∧ u.col.portPart = [a, b, c])) ∧
    (let s := State.reset; s.unitOn domBnd = true) :=
  by refine ⟨?_, ?_⟩ <;> decide +kernel

theorem witness_Presses :
    ((let s := State.reset; s.pwr.running = true ∧ s.domState 0 = 0) ∧
     (let s := State.reset; s.pwr.running = true ∧ s.domState 0 = 0 ∧ s.prs = []) ∧
     (let s : State := { State.reset.put F.PRS_STATUS_ARMED 1 with prs := [⟨2, 7⟩, ⟨2, 3⟩] }; let a : PressTrig := ⟨2, 7⟩; let b : PressTrig := ⟨2, 3⟩; s.pwr.running = true ∧ s.domState 0 = 0 ∧ s.prs = [a, b] ∧ a.due = b.due ∧ s.on F.PRS_STATUS_ARMED = true) ∧
     (let s : State := { State.reset.put F.PRS_STATUS_ARMED 0 with prs := [⟨2, 7⟩, ⟨2, 3⟩] }; let a : PressTrig := ⟨2, 7⟩; let b : PressTrig := ⟨2, 3⟩; s.pwr.running = true ∧ s.domState 0 = 0 ∧ s.prs = [a, b] ∧ a.due = b.due ∧ s.on F.PRS_STATUS_ARMED = false) ∧
     (let s : State := { State.reset.put F.PRS_STATUS_ARMED 1 with prs := [⟨2, 7⟩] }; let a : PressTrig := ⟨2, 7⟩; let c : Fin 1024 := 0; s.pwr.running = true ∧ s.domState 0 = 0 ∧ s.prs = [a] ∧ s.on F.PRS_STATUS_ARMED = true ∧ s.domState (domQuire (quireOf ↑c)) ≤ 1)) :=
  by decide +kernel

theorem witness_FclkChanges :
    ((let s := State.reset; let value : BitVec 64 := BitVec.ofNat 64 (2 ^ 24 + 160 + 0xC7F * 2 ^ 10 + 3 * 2 ^ 22); let pend : Bool := s.on F.PWR_STATUS_FSWPEND; s.pwr.running = true ∧ s.domState 0 = 0 ∧ bit value 24 = true ∧ bit value 25 = false ∧ pend = false ∧ fmulOk s.fuse.refMhz (fld value 0 10) = true ∧ fld value 10 12 < 3200) ∧
     (let s := State.reset; s.pwr.running = true ∧ s.domState 0 = 0 ∧ s.pwr.idle = none) ∧
     (let s := State.reset; s.pwr.running = true ∧ s.domState 0 = 0 ∧ (s.on F.PWR_STATUS_FLOCKED = false ∨ s.on F.PWR_FSW_NOW = false ∧ s.pwr.swSeen = false)) ∧
     (let s := State.reset; let pend : Bool := s.on F.PWR_STATUS_FSWPEND; s.pwr.running = true ∧ s.domState 0 = 0 ∧ pend = false) ∧
     (let s := State.reset; s.pwr.running = true ∧ s.domState 0 = 0) ∧
     (let s := State.reset; let value : BitVec 64 := BitVec.ofNat 64 (3 * 2 ^ 24 + 160); let pend : Bool := s.on F.PWR_STATUS_FSWPEND; s.pwr.running = true ∧ s.domState 0 = 0 ∧ bit value 24 = true ∧ (bit value 25 = true ∨ pend = true))) ∧
    ((let s := State.reset.put F.PWR_STATUS_FSWPEND 1; let pend : Bool := s.on F.PWR_STATUS_FSWPEND; s.pwr.running = true ∧ s.domState 0 = 0 ∧ pend = true) ∧
     (let s := fsw 1 0; let m : Nat := 160; s.pwr.running = true ∧ s.domState 0 = 0 ∧ s.pwr.idle = some m) ∧
     (let s := fsw 1 1; let m : Nat := 160; s.pwr.running = true ∧ s.domState 0 = 0 ∧ s.pwr.idle = some m ∧ s.on F.PWR_STATUS_FLOCKED = true ∧ (s.on F.PWR_FSW_NOW = true ∨ s.pwr.swSeen = true) ∧ s.unitKept domTimer = true) ∧
     (let s := State.reset; let value : BitVec 64 := BitVec.ofNat 64 (2 ^ 24 + 5 + 0xC7F * 2 ^ 10); let pend : Bool := s.on F.PWR_STATUS_FSWPEND; s.pwr.running = true ∧ s.domState 0 = 0 ∧ bit value 24 = true ∧ bit value 25 = false ∧ pend = false ∧ fmulOk s.fuse.refMhz (fld value 0 10) = false)) :=
  by refine ⟨?_, ?_⟩ <;> decide +kernel

theorem witness_DomainStates :
    (let s := State.reset; let d : Fin 196 := 195; let req : BitVec 2 := 2; let auto : Bool := true; let lowret : Bool := true; let forbidden : Prop := ↑d = 0 ∧ req ≠ 0 ∨ req = 3 ∧ s.offAllowed ↑d = false; let free : Prop := s.on F.PWR_LOCK_DOM = false ∨ s.domChanges (↑d) req.toNat auto lowret = false; s.pwr.running = true ∧ s.domState 0 = 0 ∧ free ∧ ¬forbidden) ∧
    (let s := State.reset; let d : Fin 196 := 0; let req : BitVec 2 := 1; let auto : Bool := true; let lowret : Bool := true; let forbidden : Prop := ↑d = 0 ∧ req ≠ 0 ∨ req = 3 ∧ s.offAllowed ↑d = false; let free : Prop := s.on F.PWR_LOCK_DOM = false ∨ s.domChanges (↑d) req.toNat auto lowret = false; s.pwr.running = true ∧ s.domState 0 = 0 ∧ free ∧ forbidden) ∧
    (let s := State.reset.put F.PWR_LOCK_DOM 1; let d : Fin 196 := 195; let req : BitVec 2 := 2; let auto : Bool := true; let lowret : Bool := true; s.pwr.running = true ∧ s.domState 0 = 0 ∧ s.on F.PWR_LOCK_DOM = true ∧ s.domChanges (↑d) req.toNat auto lowret = true) ∧
    ((let s := State.reset.put (domRF 195 0 2) 1; let d : Fin 196 := 195; let target : Nat := if s.domReq ↑d ≠ 0 then s.domReq ↑d else if s.domAuto ↑d = true then if s.domLowret ↑d = true then 2 else 1 else 0; s.pwr.running = true ∧ s.move ↑d = none ∧ s.isKept ↑d = false ∧ s.domIdle ↑d = true ∧ s.domState ↑d < target ∧ (target = 3 → s.offAllowed ↑d = true)) ∧
     (let s := State.reset.put (domRF 195 0 2) 1; let d : Fin 196 := 195; s.pwr.running = true ∧ s.move ↑d = none) ∧
     (let s := (State.reset.setDom 195 1).setMove 195 (some (.lowering none)); let d : Fin 196 := 195; s.pwr.running = true ∧ s.move ↑d = some (Move.lowering none)) ∧
     (let s := (State.reset.setDom 195 1).setMove 195 (some (.lowering (some 0))); let d : Fin 196 := 195; s.pwr.running = true ∧ s.move ↑d = some (Move.lowering (some 0)) ∧ 0 < s.domState ↑d) ∧
     (let s := (State.reset.setDom 195 2).setMove 195 (some (.exiting 1)); let d : Fin 196 := 195; s.pwr.running = true ∧ s.move ↑d = some (Move.exiting 1) ∧ s.domState ↑d ≠ 3) ∧
     (let s := ((((State.reset.setDom 160 3).setMove 160 (some (.exiting 0))).put (F.BNK_OWN_OWNER 127) 3).setReg (R.QD_CFG 5) 9).setKept 5 true; let d : Fin 196 := 160; s.pwr.running = true ∧ s.move ↑d = some (Move.exiting 0) ∧ s.domState ↑d = 3 ∧ ¬(1 ≤ ↑d ∧ ↑d ≤ 32) ∧ ¬(165 ≤ ↑d ∧ ↑d ≤ 172))) ∧
    ((let s := (State.reset.setKept 195 true); let d : Fin 196 := 195; s.pwr.running = true ∧ (s.domIdle ↑d = false ∨ s.isKept ↑d = true)) ∧
     (let s := ((State.reset.setDom 160 3).setMove 160 (some (.exiting 0))).put (F.BNK_OWN_OWNER 127) 3; let d : Fin 196 := 160; let n : Fin 128 := 127; s.pwr.running = true ∧ ↑d = domBank ↑n ∧ s.move ↑d = some (Move.exiting 0) ∧ s.domState ↑d = 3)) :=
  by refine ⟨?_, ?_, ?_, ?_, ?_⟩ <;> decide +kernel

theorem witness_DomainDemands :
    (let s := State.reset; let d : Fin 196 := 160; let kind : DemandKind := .bankAccess; let fits : Prop := demandFits (↑d) kind = true ∧ (kind = DemandKind.wakeSideband → s.domReq ↑d = 0) ∧ (kind = DemandKind.contextEvent → s.quireDue ↑d = true); s.pwr.running = true ∧ fits ∧ s.move ↑d = none ∧ (s.domState ↑d = 0 ∨ s.domState ↑d = 3)) ∧
    (let s := State.reset.setDom 160 1; let d : Fin 196 := 160; let kind : DemandKind := .bankAccess; let fits : Prop := demandFits (↑d) kind = true ∧ (kind = DemandKind.wakeSideband → s.domReq ↑d = 0) ∧ (kind = DemandKind.contextEvent → s.quireDue ↑d = true); s.pwr.running = true ∧ fits ∧ s.move ↑d = none ∧ s.domState ↑d = 1) ∧
    (let s := State.reset.setDom 160 2; let d : Fin 196 := 160; let kind : DemandKind := .bankAccess; let fits : Prop := demandFits (↑d) kind = true ∧ (kind = DemandKind.wakeSideband → s.domReq ↑d = 0) ∧ (kind = DemandKind.contextEvent → s.quireDue ↑d = true); s.pwr.running = true ∧ fits ∧ s.move ↑d = none ∧ s.domState ↑d = 2) ∧
    (let s := (State.reset.setDom 160 1).setMove 160 (some (.lowering none)); let d : Fin 196 := 160; let kind : DemandKind := .bankAccess; let fits : Prop := demandFits (↑d) kind = true ∧ (kind = DemandKind.wakeSideband → s.domReq ↑d = 0) ∧ (kind = DemandKind.contextEvent → s.quireDue ↑d = true); s.pwr.running = true ∧ fits ∧ s.move ↑d = some (Move.lowering none) ∧ s.domState ↑d = 1) ∧
    (let s := State.reset.setDom 160 1; let d : Fin 196 := 161; let kind : DemandKind := .contextEvent; let fits : Prop := demandFits (↑d) kind = true ∧ (kind = DemandKind.wakeSideband → s.domReq ↑d = 0) ∧ (kind = DemandKind.contextEvent → s.quireDue ↑d = true); s.pwr.running = true ∧ ¬fits) ∧
    (let s := (State.reset.setDom 160 2).setMove 160 (some (.exiting 1)); let d : Fin 196 := 160; let kind : DemandKind := .bankAccess; let fits : Prop := demandFits (↑d) kind = true ∧ (kind = DemandKind.wakeSideband → s.domReq ↑d = 0) ∧ (kind = DemandKind.contextEvent → s.quireDue ↑d = true); s.pwr.running = true ∧ fits ∧ s.move ↑d = some (Move.exiting 1)) ∧
    ((let s := State.reset; s.pwr.running = true) ∧
     (let s := (wk (2 ^ 3 + 2 ^ 4 + 2 ^ 24)).setMove 160 (some (.exiting 1)); let d : Fin 196 := 160; let p : Fin 4 := 3; let i : Fin 64 := 63; s.pwr.running = true ∧ s.pwr.krstLow = false ∧ s.pwr.rstLow = false ∧ (∀ (j : Nat), j < 64 → j ≠ ↑i → s.get (F.PWR_WAKE_KIND j) ≠ 5) ∧ s.domReq (domStitch ↑p) ≠ 0 ∧ s.get (F.PWR_WAKE_KIND ↑i) = 5 ∧ fld (s.reg (R.PWR_WAKE ↑i)) 36 2 = ↑p ∧ s.get (F.PWR_WAKE_FIRST ↑i) = ↑d ∧ s.get (F.PWR_WAKE_COUNT ↑i) = 1 ∧ ↑d ≠ 0 ∧ s.domState ↑d = 2)) :=
  by refine ⟨?_, ?_, ?_, ?_, ?_, ?_, ?_⟩ <;> decide +kernel

theorem witness_FclkStops :
    ((let s := State.reset; s.pwr.krstLow = false ∧ s.pwr.rstLow = false ∧ 8 ≤ s.fuse.refMhz ∧ s.on F.PWR_CTRL_FAUTOSTOP = false) ∧
     (let s := State.reset; let i : Nat := 0; s.pwr.krstLow = false ∧ s.pwr.rstLow = false ∧ 8 ≤ s.fuse.refMhz ∧ i < 195 ∧ (s.domState (i + 1) < 2 ∨ s.move (i + 1) ≠ none)) ∧
     (let s := allRet; s.pwr.krstLow = false ∧ s.pwr.rstLow = false ∧ 8 ≤ s.fuse.refMhz ∧ s.pwr.running = true ∧ s.on F.PWR_CTRL_FAUTOSTOP = true ∧ (∀ (i : Nat), i < 195 → 2 ≤ s.domState (i + 1) ∧ s.move (i + 1) = none) ∧ s.unflushed = 0 ∧ s.col.intake = []) ∧
     (let s := stopped; s.pwr.krstLow = false ∧ s.pwr.rstLow = false ∧ 8 ≤ s.fuse.refMhz ∧ s.pwr.running = false) ∧
     (let s := stopped; s.pwr.krstLow = false ∧ s.pwr.rstLow = false ∧ 8 ≤ s.fuse.refMhz ∧ s.pwr.running = false ∧ s.pwr.starting = true) ∧
     (let s : State := { State.reset with pwr := { State.reset.pwr with pfLatch := true } }; s.pwr.krstLow = false ∧ s.pwr.rstLow = false ∧ 8 ≤ s.fuse.refMhz ∧ s.pwr.running = true ∧ s.pwr.pfLatch = true ∧ s.pwr.pwrfail = false)) ∧
    ((let s : State := { State.reset with pwr := { State.reset.pwr with pfLatch := true, pwrfail := true } }; s.pwr.krstLow = false ∧ s.pwr.rstLow = false ∧ 8 ≤ s.fuse.refMhz ∧ s.pwr.running = true ∧ s.pwr.pfLatch = true ∧ s.pwr.pwrfail = true) ∧
     (let s := recs { allRet with col := { Colophon.reset with live := 4 } } 5 |> (·.put F.COL_SEQ_SEQ 3); s.pwr.krstLow = false ∧ s.pwr.rstLow = false ∧ 8 ≤ s.fuse.refMhz ∧ s.pwr.running = true ∧ s.on F.PWR_CTRL_FAUTOSTOP = true ∧ (∀ (i : Nat), i < 195 → 2 ≤ s.domState (i + 1) ∧ s.move (i + 1) = none) ∧ s.unflushed ≠ 0 ∧ s.on F.COL_STATUS_BASED = true) ∧
     (let s : State := { allRet with col := { Colophon.reset with intake := [occ 5] } }; s.pwr.krstLow = false ∧ s.pwr.rstLow = false ∧ 8 ≤ s.fuse.refMhz ∧ s.pwr.running = true ∧ s.on F.PWR_CTRL_FAUTOSTOP = true ∧ (∀ (i : Nat), i < 195 → 2 ≤ s.domState (i + 1) ∧ s.move (i + 1) = none) ∧ s.unflushed = 0 ∧ s.col.intake ≠ [])) :=
  by refine ⟨?_, ?_⟩ <;> decide +kernel

theorem witness_ResetsAndStartUp :
    ((let s := State.reset; s.pwr.krstLow = false) ∧
     (let s := State.reset; s.pwr.rstLow = false) ∧
     (let s := low true true true; s.pwr.krstLow = true ∧ s.pwr.rstLow = true) ∧
     (let s := low true false true; let c : Instr := Instr.krstRelease; (c = Instr.krstRelease ∧ s.pwr.krstLow = true ∧ s.pwr.rstLow = false ∨ c = Instr.rstRelease ∧ s.pwr.rstLow = true ∧ s.pwr.krstLow = false) ∧ 8 ≤ s.fuse.refMhz ∧ s.fuse.bootSel ≠ 1) ∧
     (let s : State := { low true false true with fuse := ⟨7, 640, 0, true, 0, 0, []⟩ }; let c : Instr := Instr.krstRelease; (c = Instr.krstRelease ∨ c = Instr.rstRelease) ∧ s.fuse.refMhz < 8 ∧ s.pwr.running = false) ∧
     (let s : State := { low true false true with fuse := ⟨50, 160, 1, true, 63, 0x12345678, []⟩ }; let c : Instr := .krstRelease; (c = Instr.krstRelease ∧ s.pwr.krstLow = true ∧ s.pwr.rstLow = false ∨ c = Instr.rstRelease ∧ s.pwr.rstLow = true ∧ s.pwr.krstLow = false) ∧ 8 ≤ s.fuse.refMhz ∧ s.fuse.bootSel = 1)) :=
  by decide +kernel

theorem witness_ModesAndTheWatchdog :
    (let s := State.reset; let mode : BitVec 2 := 1; let cur : Nat := s.get F.BLK_MODE_MODE; let allowed : Prop := mode = 1 ∧ (cur = 0 ∨ cur = 2) ∨ mode = 2 ∧ cur = 1; s.pwr.krstLow = false ∧ s.pwr.rstLow = false ∧ s.pwr.running = true ∧ s.domState 0 = 0 ∧ s.pwr.testMode = false ∧ allowed) ∧
    (let s := State.reset; let mode : BitVec 2 := 2; let cur : Nat := s.get F.BLK_MODE_MODE; let allowed : Prop := mode = 1 ∧ (cur = 0 ∨ cur = 2) ∨ mode = 2 ∧ cur = 1; s.pwr.krstLow = false ∧ s.pwr.rstLow = false ∧ s.pwr.running = true ∧ s.domState 0 = 0 ∧ (s.pwr.testMode = true ∨ mode.toNat ≠ cur ∧ ¬allowed)) ∧
    ((let s := State.reset; s.pwr.krstLow = false ∧ s.pwr.rstLow = false ∧ s.pwr.testMode = false) ∧
     (let s := State.reset; s.pwr.krstLow = false ∧ s.pwr.rstLow = false ∧ s.on F.PWR_WDOG_WDEN = false) ∧
     (let s := State.reset; let mode : BitVec 2 := 0; let cur : Nat := s.get F.BLK_MODE_MODE; s.pwr.krstLow = false ∧ s.pwr.rstLow = false ∧ s.pwr.running = true ∧ s.domState 0 = 0 ∧ s.pwr.testMode = false ∧ mode.toNat = cur) ∧
     (let s := State.reset.put F.PWR_WDOG_WDEN 1; s.pwr.krstLow = false ∧ s.pwr.rstLow = false ∧ s.on F.PWR_WDOG_WDEN = true)) :=
  by refine ⟨?_, ?_, ?_⟩ <;> decide +kernel

theorem witness_StepRunsFrontCommand :
    ((let s := State.reset; let quiet : Nat → Prop := fun n => ¬(s.dPace n = 2 ∧ s.unitOn (domDma n) = true); s.pending = [] ∧ s.pwr.running = true ∧ (∀ (n : Nat), n < 64 → quiet n) ∧ s.bw = []) ∧
     (let s := State.reset; let quiet : Nat → Prop := fun n => ¬(s.dPace n = 2 ∧ s.unitOn (domDma n) = true); s.pending = [] ∧ s.pwr.running = true ∧ ∀ (n : Nat), n < 64 → quiet n) ∧
     (let s := stopped; s.pending = [] ∧ s.pwr.running = false) ∧
     (let s := chan 63 1 4 0 0 0x20001; let quiet : Nat → Prop := fun n => ¬(s.dPace n = 2 ∧ s.unitOn (domDma n) = true); let k : Fin 64 := 63; s.pending = [] ∧ s.pwr.running = true ∧ (∀ (n : Nat), n < 64 → n ≠ ↑k → quiet n) ∧ ¬quiet ↑k ∧ s.bw = [] ∧ (s.stitchTick.dmaPoke ↑k).bw = [])) :=
  by decide +kernel

theorem witness_StepsKeepTablesCanonical :
    (let s : State := { beamAt 0 1 15 with pending := [.beamTick] }; s.wf = true ∧ step s = .next { beamAt 0 1 15 with pending := [] }.beamTick) :=
  ⟨by decide +kernel, rfl⟩

theorem witness_OlupoInstructions :
    ((let i : Nat := 511; i < 512) ∧
     (let s := State.reset; let q : Nat := 31; let i : Nat := 511; i < 512 ∧ s.dispShipped q i = true ∧ i = 511) ∧
     (let i : Nat := 511; let a : BitVec 14 := 0x1000; i < 512 ∧ 4096 ≤ a.toNat) ∧
     (let s := State.reset; let q : Nat := 31; let i : Nat := 510; i < 512 ∧ s.dispShipped q i = true ∧ (i = 510 ∨ 258 < i ∧ i < 510 ∨ i ∈ [29, 30, 31, 166, 167, 189, 190, 191] ∨ 118 ≤ i ∧ i ≤ 127 ∨ 136 ≤ i ∧ i ≤ 159 ∨ 177 ≤ i ∧ i ≤ 183 ∨ 198 ≤ i ∧ i ≤ 207 ∨ 218 ≤ i ∧ i ≤ 255))) ∧
    ((let s := olu 0x300000 0xFFFFFFFFFFFFFFFF 0x8000000000000000; let c : Nat := 0; let n : Nat := 64; let d : Decoded := { word := 3145728#64, imm := 0, addr := 4096, bytes := 287454020 }; (s.cx c).cur = some d ∧ s.guardPasses c d.word = true ∧ dWidth d.word = n ∧ n ∈ [8, 16, 32, 64]) ∧
     (let s := olu 0x300000 0xFFFFFFFFFFFFFFFF 0x8000000000000000; let c : Nat := 0; let n : Nat := 64; let src : Word := (s.cx c).olatch; let y : BitVec n := BitVec.setWidth n src; let wide : Int → Prop := fun i => i < -2 ^ (n - 1) ∨ 2 ^ (n - 1) ≤ i; let d : Decoded := { word := 3145728#64, imm := 0, addr := 4096, bytes := 287454020 }; (s.cx c).cur = some d ∧ s.guardPasses c d.word = true ∧ dWidth d.word = n ∧ n ∈ [8, 16, 32, 64] ∧ wide ((BitVec.setWidth n (s.g c (dRd d.word))).toInt + y.toInt)) ∧
     (let s := olu 0x300000 0xFFFFFFFFFFFFFFFF 0x8000000000000000; let c : Nat := 0; let n : Nat := 64; let src : Word := (s.cx c).olatch; let y : BitVec n := BitVec.setWidth n src; let wide : Int → Prop := fun i => i < -2 ^ (n - 1) ∨ 2 ^ (n - 1) ≤ i; let d : Decoded := { word := 3145728#64, imm := 0, addr := 4096, bytes := 287454020 }; (s.cx c).cur = some d ∧ s.guardPasses c d.word = true ∧ dWidth d.word = n ∧ n ∈ [8, 16, 32, 64] ∧ ¬wide ((BitVec.setWidth n (s.g c (dRd d.word))).toInt - y.toInt)) ∧
     (let s := olu 0x300000 0xFFFFFFFFFFFFFFFF 0x8000000000000000; let c : Nat := 0; let n : Nat := 64; let src : Word := (s.cx c).olatch; let y : BitVec n := BitVec.setWidth n src; let wide : Int → Prop := fun i => i < -2 ^ (n - 1) ∨ 2 ^ (n - 1) ≤ i; let d : Decoded := { word := 3145728#64, imm := 0, addr := 4096, bytes := 287454020 }; (s.cx c).cur = some d ∧ s.guardPasses c d.word = true ∧ dWidth d.word = n ∧ n ∈ [8, 16, 32, 64] ∧ ¬wide (y.toInt - (BitVec.setWidth n (s.g c (dRd d.word))).toInt)) ∧
     (let s := olu 0x300000 0xFFFFFFFFFFFFFFFF 0x8000000000000000; let c : Nat := 0; let n : Nat := 64; let src : Word := (s.cx c).olatch; let y : BitVec n := BitVec.setWidth n src; let d : Decoded := { word := 3145728#64, imm := 0, addr := 4096, bytes := 287454020 }; (s.cx c).cur = some d ∧ s.guardPasses c d.word = true ∧ dWidth d.word = n ∧ n ∈ [8, 16, 32, 64] ∧ 2 ^ n ≤ (BitVec.setWidth n (s.g c (dRd d.word))).toNat + y.toNat) ∧
     (let s := olu 0x300000 0xFFFFFFFFFFFFFFFF 0x8000000000000000; let c : Nat := 0; let n : Nat := 64; let src : Word := (s.cx c).olatch; let y : BitVec n := BitVec.setWidth n src; let d : Decoded := { word := 3145728#64, imm := 0, addr := 4096, bytes := 287454020 }; (s.cx c).cur = some d ∧ s.guardPasses c d.word = true ∧ dWidth d.word = n ∧ n ∈ [8, 16, 32, 64] ∧ (BitVec.setWidth n (s.g c (dRd d.word))).toNat < y.toNat)) ∧
    ((let s := olu 0x300000 0xFFFFFFFFFFFFFFFF 0x8000000000000000; let c : Nat := 0; let n : Nat := 64; let src : Word := (s.cx c).olatch; let y : BitVec n := BitVec.setWidth n src; let d : Decoded := { word := 3145728#64, imm := 0, addr := 4096, bytes := 287454020 }; (s.cx c).cur = some d ∧ s.guardPasses c d.word = true ∧ dWidth d.word = n ∧ n ∈ [8, 16, 32, 64] ∧ ¬y = BitVec.intMin n) ∧
     (let s := olu 0x300000 0xFFFFFFFFFFFFFFFF 0x8000000000000000; let c : Nat := 0; let n : Nat := 64; let d : Decoded := { word := 3145728#64, imm := 0, addr := 4096, bytes := 287454020 }; let i : Nat := 0; (s.cx c).cur = some d ∧ s.guardPasses c d.word = true ∧ dWidth d.word = n ∧ n ∈ [8, 16, 32, 64] ∧ i < 64) ∧
     (let s := olu 0x300000 0xFFFFFFFFFFFFFFFF 0x8000000000000000; let c : Nat := 0; let n : Nat := 64; let src : Word := (s.cx c).olatch; let y : BitVec n := BitVec.setWidth n src; let d : Decoded := { word := 3145728#64, imm := 0, addr := 4096, bytes := 287454020 }; let op : Nat := 4; let v : BitVec n := BitVec.setWidth n (s.g c (dRd d.word)) &&& y; (s.cx c).cur = some d ∧ s.guardPasses c d.word = true ∧ dWidth d.word = n ∧ n ∈ [8, 16, 32, 64] ∧ (op, v) ∈ [(4, BitVec.setWidth n (s.g c (dRd d.word)) &&& y), (5, BitVec.setWidth n (s.g c (dRd d.word)) ||| y), (6, BitVec.setWidth n (s.g c (dRd d.word)) ^^^ y), (7, BitVec.setWidth n (s.g c (dRd d.word)) &&& ~~~y), (8, BitVec.setWidth n (s.g c (dRd d.word)) ||| ~~~y), (9, ~~~(BitVec.setWidth n (s.g c (dRd d.word)) ^^^ y)), (208, BitVec.setWidth n (s.g c (dRd d.word)) * y), (209, BitVec.ofInt n ((BitVec.setWidth n (s.g c (dRd d.word))).toInt * y.toInt / 2 ^ n)), (210, BitVec.ofNat n ((BitVec.setWidth n (s.g c (dRd d.word))).toNat * y.toNat / 2 ^ n))]) ∧
     (let s := olu 0x300000 0xFFFFFFFFFFFFFFFF 0x8000000000000000; let c : Nat := 0; let n : Nat := 64; let d : Decoded := { word := 3145728#64, imm := 0, addr := 4096, bytes := 287454020 }; let i : Nat := 0; (s.cx c).cur = some d ∧ s.guardPasses c d.word = true ∧ dWidth d.word = n ∧ n ∈ [8, 16, 32, 64] ∧ i < 8) ∧
     (let s := olu 0x300000 0xFFFFFFFFFFFFFFFF 0x8000000000000000; let c : Nat := 0; let n : Nat := 64; let src : Word := (s.cx c).olatch; let y : BitVec n := BitVec.setWidth n src; let d : Decoded := { word := 3145728#64, imm := 0, addr := 4096, bytes := 287454020 }; let op : Nat := 211; let signed : Bool := true; (s.cx c).cur = some d ∧ s.guardPasses c d.word = true ∧ dWidth d.word = n ∧ n ∈ [8, 16, 32, 64] ∧ (op, signed) ∈ [(211, true), (212, false), (213, true), (214, false)] ∧ (y ≠ 0 ∨ s.opt c 5 = false)) ∧
     (let s := olu 0x300000 0 0x8000000000000000; let c : Nat := 0; let n : Nat := 64; let src : Word := (s.cx c).olatch; let y : BitVec n := BitVec.setWidth n src; let wide : Int → Prop := fun i => i < -2 ^ (n - 1) ∨ 2 ^ (n - 1) ≤ i; let d : Decoded := { word := 3145728#64, imm := 0, addr := 4096, bytes := 287454020 }; (s.cx c).cur = some d ∧ s.guardPasses c d.word = true ∧ dWidth d.word = n ∧ n ∈ [8, 16, 32, 64] ∧ ¬wide ((BitVec.setWidth n (s.g c (dRd d.word))).toInt + y.toInt))) ∧
    ((let s := olu 0x300000 0 0x8000000000000000; let c : Nat := 0; let n : Nat := 64; let src : Word := (s.cx c).olatch; let y : BitVec n := BitVec.setWidth n src; let wide : Int → Prop := fun i => i < -2 ^ (n - 1) ∨ 2 ^ (n - 1) ≤ i; let d : Decoded := { word := 3145728#64, imm := 0, addr := 4096, bytes := 287454020 }; (s.cx c).cur = some d ∧ s.guardPasses c d.word = true ∧ dWidth d.word = n ∧ n ∈ [8, 16, 32, 64] ∧ wide (y.toInt - (BitVec.setWidth n (s.g c (dRd d.word))).toInt)) ∧
     (let s := olu 0x300000 0 0x8000000000000000; let c : Nat := 0; let n : Nat := 64; let src : Word := (s.cx c).olatch; let y : BitVec n := BitVec.setWidth n src; let d : Decoded := { word := 3145728#64, imm := 0, addr := 4096, bytes := 287454020 }; (s.cx c).cur = some d ∧ s.guardPasses c d.word = true ∧ dWidth d.word = n ∧ n ∈ [8, 16, 32, 64] ∧ ¬2 ^ n ≤ (BitVec.setWidth n (s.g c (dRd d.word))).toNat + y.toNat) ∧
     (let s := olu 0x300000 0 0x8000000000000000; let c : Nat := 0; let n : Nat := 64; let src : Word := (s.cx c).olatch; let y : BitVec n := BitVec.setWidth n src; let d : Decoded := { word := 3145728#64, imm := 0, addr := 4096, bytes := 287454020 }; (s.cx c).cur = some d ∧ s.guardPasses c d.word = true ∧ dWidth d.word = n ∧ n ∈ [8, 16, 32, 64] ∧ ¬(BitVec.setWidth n (s.g c (dRd d.word))).toNat < y.toNat) ∧
     (let s := olu 0x300000 0x8000000000000000 0x7FFFFFFFFFFFFFFF; let c : Nat := 0; let n : Nat := 64; let src : Word := (s.cx c).olatch; let y : BitVec n := BitVec.setWidth n src; let wide : Int → Prop := fun i => i < -2 ^ (n - 1) ∨ 2 ^ (n - 1) ≤ i; let d : Decoded := { word := 3145728#64, imm := 0, addr := 4096, bytes := 287454020 }; (s.cx c).cur = some d ∧ s.guardPasses c d.word = true ∧ dWidth d.word = n ∧ n ∈ [8, 16, 32, 64] ∧ wide ((BitVec.setWidth n (s.g c (dRd d.word))).toInt - y.toInt)) ∧
     (let s := olu 0x300000 0x8000000000000000 0x7FFFFFFFFFFFFFFF; let c : Nat := 0; let n : Nat := 64; let src : Word := (s.cx c).olatch; let y : BitVec n := BitVec.setWidth n src; let d : Decoded := { word := 3145728#64, imm := 0, addr := 4096, bytes := 287454020 }; (s.cx c).cur = some d ∧ s.guardPasses c d.word = true ∧ dWidth d.word = n ∧ n ∈ [8, 16, 32, 64] ∧ y = BitVec.intMin n) ∧
     (let s := (olu 0x300000 0 0x8000000000000000).put (F.CTX_CTXCFG_DZTRAP 0) 1; let c : Nat := 0; let n : Nat := 64; let src : Word := (s.cx c).olatch; let y : BitVec n := BitVec.setWidth n src; let d : Decoded := { word := 3145728#64, imm := 0, addr := 4096, bytes := 287454020 }; let op : Nat := 211; (s.cx c).cur = some d ∧ s.guardPasses c d.word = true ∧ dWidth d.word = n ∧ n ∈ [8, 16, 32, 64] ∧ op ∈ [211, 212, 213, 214] ∧ y = 0 ∧ s.opt c 5 = true)) ∧
    ((let s := (olu 0x1B300000 5 9).setReg (R.CTX_LC 0) 0x100000000; let c : Nat := 0; let d : Decoded := { word := 456130560#64, imm := 0, addr := 4096, bytes := 287454020 }; (s.cx c).cur = some d ∧ s.guardPasses c d.word = true) ∧
     (let s := (olu 0x1B300000 5 9).setReg (R.CTX_LC 0) 0x100000000; let c : Nat := 0; let d : Decoded := { word := 456130560#64, imm := 0, addr := 4096, bytes := 287454020 }; let an : Nat := 0; let mode : Nat := 0; (s.cx c).cur = some d ∧ s.guardPasses c d.word = true ∧ an < 4 ∧ mode < 4) ∧
     (let s := (olu 0x1B300000 5 9).setReg (R.CTX_LC 0) 0x100000000; let c : Nat := 0; let d : Decoded := { word := 456130560#64, imm := 0, addr := 4096, bytes := 287454020 }; let p : Nat := 0; (s.cx c).cur = some d ∧ s.guardPasses c d.word = true ∧ p < 8) ∧
     (let s := (olu 0x1B300000 5 9).setReg (R.CTX_LC 0) 0x100000000; let c : Nat := 0; let d : Decoded := { word := 456130560#64, imm := 0, addr := 4096, bytes := 287454020 }; (s.cx c).cur = some d ∧ s.guardPasses c d.word = true ∧ s.get (lcRF c 1) ≤ 1) ∧
     (let s := (olu 0x1B300000 5 9).setReg (R.CTX_LC 0) 0x100000000; let c : Nat := 0; let src : Word := (s.cx c).olatch; let d : Decoded := { word := 456130560#64, imm := 0, addr := 4096, bytes := 287454020 }; let p : Bool := false; (s.cx c).cur = some d ∧ s.guardPasses c d.word = true ∧ (dT1 d.word / 16, p) ∈ [(0, BitVec.setWidth (dWidth d.word) (s.g c (dRd d.word)) == BitVec.setWidth (dWidth d.word) src), (1, BitVec.setWidth (dWidth d.word) (s.g c (dRd d.word)) != BitVec.setWidth (dWidth d.word) src), (2, (BitVec.setWidth (dWidth d.word) (s.g c (dRd d.word))).slt (BitVec.setWidth (dWidth d.word) src)), (3, (BitVec.setWidth (dWidth d.word) src).sle (BitVec.setWidth (dWidth d.word) (s.g c (dRd d.word)))), (4, (BitVec.setWidth (dWidth d.word) (s.g c (dRd d.word))).sle (BitVec.setWidth (dWidth d.word) src)), (5, (BitVec.setWidth (dWidth d.word) src).slt (BitVec.setWidth (dWidth d.word) (s.g c (dRd d.word)))), (6, (BitVec.setWidth (dWidth d.word) (s.g c (dRd d.word))).ult (BitVec.setWidth (dWidth d.word) src)), (7, (BitVec.setWidth (dWidth d.word) src).ule (BitVec.setWidth (dWidth d.word) (s.g c (dRd d.word)))), (8, (BitVec.setWidth (dWidth d.word) (s.g c (dRd d.word))).ule (BitVec.setWidth (dWidth d.word) src)), (9, (BitVec.setWidth (dWidth d.word) src).ult (BitVec.setWidth (dWidth d.word) (s.g c (dRd d.word)))), (10, BitVec.setWidth (dWidth d.word) (s.g c (dRd d.word) &&& src) == 0), (11, BitVec.setWidth (dWidth d.word) (s.g c (dRd d.word) &&& src) != 0)]) ∧
     (let s := (olu 0x1B300000 5 9).setReg (R.CTX_LC 0) 0x100000000; let c : Nat := 0; let d : Decoded := { word := 456130560#64, imm := 0, addr := 4096, bytes := 287454020 }; let i : Nat := 0; (s.cx c).cur = some d ∧ s.guardPasses c d.word = true ∧ i < 64)) ∧
    ((let s := (olu 0x1B300000 5 9).setReg (R.CTX_LC 0) 0x200000000; let c : Nat := 0; let d : Decoded := { word := 456130560#64, imm := 0, addr := 4096, bytes := 287454020 }; (s.cx c).cur = some d ∧ s.guardPasses c d.word = true ∧ 1 < s.get (lcRF c 1)) ∧
     (let s := (olu 0xC009300000 5 9).setReg (R.CTX_LC 0) 0x100000000; let c : Nat := 0; let d : Decoded := { word := 824787861504#64, imm := 0, addr := 4096, bytes := 287454020 }; (s.cx c).cur = some d ∧ s.guardPasses c d.word = true ∧ 12 ≤ dT1 d.word / 16)) ∧
    ((let s := olu 0x31E000 5 9; let c : Nat := 0; let d : Decoded := { word := 3268608#64, imm := 0, addr := 4096, bytes := 287454020 }; (s.cx c).cur = some d ∧ s.guardPasses c d.word = false) ∧
     (let s := olu 0x31E000 5 9; let c : Nat := 0; let d : Decoded := { word := 3268608#64, imm := 0, addr := 4096, bytes := 287454020 }; (s.cx c).cur = some d) ∧
     (let s := olu 0x300000 5 9; let c : Nat := 0; let d : Decoded := { word := 3145728#64, imm := 0, addr := 4096, bytes := 287454020 }; let cls : Nat := 2; (s.cx c).cur = some d ∧ s.guardPasses c d.word = true ∧ (cls = 2 ∨ cls = 3)) ∧
     (let s := olu 0x300000 5 9; let c : Nat := 0; let d : Decoded := { word := 3145728#64, imm := 0, addr := 4096, bytes := 287454020 }; (s.cx c).cur = some d ∧ s.guardPasses c d.word = true) ∧
     (let s := recs (olu 0x300000 5 9) 0x12; let c : Nat := 0; let d : Decoded := { word := 3145728#64, imm := 0, addr := 4096, bytes := 287454020 }; let cls : Nat := 2; (s.cx c).cur = some d ∧ s.guardPasses c d.word = true ∧ (cls = 2 ∨ cls = 3) ∧ s.records (16 + cls))) ∧
    ((let s := ((olu 0xE00000 5 9).setReg (R.CTX_LC 0) 0).setG 0 0 0x0010000800020002; let c : Nat := 0; let d : Decoded := { word := 14680064#64, imm := 0, addr := 4096, bytes := 287454020 }; let op : Nat := 128; (s.cx c).cur = some d ∧ s.guardPasses c d.word = true ∧ dRep d.word = false ∧ op ∈ [128, 129, 130, 131, 132, 133, 135]) ∧
     (let s := ((olu 0xE00000 5 9).setReg (R.CTX_LC 0) 0).setG 0 0 0x0010000800020002; let c : Nat := 0; let d : Decoded := { word := 14680064#64, imm := 0, addr := 4096, bytes := 287454020 }; let op : Nat := 128; (s.cx c).cur = some d ∧ op ∈ [128, 129, 132, 133]) ∧
     (let s := ((olu 0xE00000 5 9).setReg (R.CTX_LC 0) 0).setG 0 0 0x0010000800020002; let c : Nat := 0; let d : Decoded := { word := 14680064#64, imm := 0, addr := 4096, bytes := 287454020 }; (s.cx c).cur = some d) ∧
     (let s := ((olu 0xE00000 5 9).setReg (R.CTX_LC 0) 0).setG 0 0 0x0010000800020002; let c : Nat := 0; let d : Decoded := { word := 14680064#64, imm := 0, addr := 4096, bytes := 287454020 }; (s.cx c).cur = some d ∧ dRd d.word % 2 = 0) ∧
     (let s := ((olu 0xE00000 5 9).setReg (R.CTX_LC 0) 0).setG 0 0 0x0010000800020002; let c : Nat := 0; let lc : Nat := s.get (lcRF c 0); let d : Decoded := { word := 14680064#64, imm := 0, addr := 4096, bytes := 287454020 }; (s.cx c).cur = some d ∧ ¬(dRep d.word = true ∧ 1 < lc)) ∧
     (let s := ((olu 0xE00000 5 9).setReg (R.CTX_LC 0) 0).setG 0 0 0x0010000800020002; let c : Nat := 0; let lc : Nat := s.get (lcRF c 0); let d : Decoded := { word := 14680064#64, imm := 0, addr := 4096, bytes := 287454020 }; (s.cx c).cur = some d ∧ s.guardPasses c d.word = true ∧ (fld (s.g c (dRd d.word)) 0 16 * fld (s.g c (dRd d.word)) 16 16 = 0 ∨ lc = 0))) ∧
    ((let s := ((olu 0x1E00000 5 9).setReg (R.CTX_LC 0) 0).setG 0 1 0x0010000800020002; let c : Nat := 0; let d : Decoded := { word := 31457280#64, imm := 0, addr := 4096, bytes := 287454020 }; (s.cx c).cur = some d ∧ dRd d.word % 2 = 1) ∧
     (let s := ((olu 0xE00000 5 9).setReg (R.CTX_LC 0) 5).setG 0 0 0x0010000800020002; let c : Nat := 0; let lc : Nat := s.get (lcRF c 0); let d : Decoded := { word := 14680064#64, imm := 0, addr := 4096, bytes := 287454020 }; (s.cx c).cur = some d ∧ s.guardPasses c d.word = true ∧ fld (s.g c (dRd d.word)) 0 16 * fld (s.g c (dRd d.word)) 16 16 ≠ 0 ∧ fld (s.g c (dRd d.word)) 0 16 * fld (s.g c (dRd d.word)) 16 16 < lc) ∧
     (let s := ((olu 0xE00200 5 9).setReg (R.CTX_LC 0) 0).setG 0 0 0x0010000800020002; let c : Nat := 0; let lc : Nat := s.get (lcRF c 0); let d : Decoded := { word := 14680576#64, imm := 0, addr := 4096, bytes := 287454020 }; let op : Nat := 128; (s.cx c).cur = some d ∧ s.guardPasses c d.word = true ∧ dRep d.word = true ∧ lc = 0 ∧ op ∈ [128, 129, 130, 131]) ∧
     (let s := ((olu 0xE00200 5 9).setReg (R.CTX_LC 0) 0).setG 0 0 0x0010000800020002; let c : Nat := 0; let lc : Nat := s.get (lcRF c 0); let d : Decoded := { word := 14680576#64, imm := 0, addr := 4096, bytes := 287454020 }; (s.cx c).cur = some d ∧ s.guardPasses c d.word = true ∧ dRep d.word = true ∧ lc = 0) ∧
     (let s := ((olu 0xE00200 5 9).setReg (R.CTX_LC 0) 1).setG 0 0 0x0010000800020002; let c : Nat := 0; let lc : Nat := s.get (lcRF c 0); let d : Decoded := { word := 14680576#64, imm := 0, addr := 4096, bytes := 287454020 }; let op : Nat := 128; (s.cx c).cur = some d ∧ s.guardPasses c d.word = true ∧ dRep d.word = true ∧ lc ≠ 0 ∧ op ∈ [128, 129, 130, 131, 132, 133, 135]) ∧
     (let s := ((olu 0xE00200 5 9).setReg (R.CTX_LC 0) 5).setG 0 0 0x0010000800020002; let c : Nat := 0; let lc : Nat := s.get (lcRF c 0); let d : Decoded := { word := 14680576#64, imm := 0, addr := 4096, bytes := 287454020 }; (s.cx c).cur = some d ∧ dRep d.word = true ∧ 1 < lc)) ∧
    ((let s := rdy 33 { Ctx.reset with cur := some ⟨0x03000401, 0, 0x1000, 5⟩, word := .shipped (.olupo 0x80 1 0 0) }; let q : Fin 32 := 1; let c : Fin 1024 := 33; let r : Routine := .olupo 0x80 1 0 0; s.unitOn (domQuire q) = true ∧ s.chooseCtx q (s.qu q).slotPos = some c.val ∧ s.ctxFree c ∧ (s.cx c).word = .shipped r ∧ s.liveRoutine c r = r ∧ (s.cx c).urgentMet = false ∧ r.disp = false) ∧
     (let s := rdy 33 { Ctx.reset with nxt := some ⟨0x0C300038, 9, 0xFFFFFFFF, 5⟩, word := .shipped .start }; let q : Fin 32 := 1; let c : Fin 1024 := 33; let d : Decoded := ⟨0x0C300038, 9, 0xFFFFFFFF, 5⟩; s.unitOn (domQuire q) = true ∧ s.chooseCtx q (s.qu q).slotPos = some c.val ∧ s.ctxFree c ∧ (s.cx c).word = .shipped .start ∧ s.liveRoutine c .start = .start ∧ (s.cx c).urgentMet = false ∧ (s.cx c).nxt = some d ∧ isCall d.word = false ∧ isRet d.word = false) ∧
     (let r : Routine := .olupo 0xA0 0 0 0; let i : Issued := ⟨5, .shipped r, 0, 0, false, none, true, 7, some .start, [], false, false, none, false⟩; let s := (rdy 33 .reset).setCx 33 { Ctx.reset with st := .run, cur := some ⟨0x03000401, 0, 0x1000, 5⟩, inflight := some i }; let c : Fin 1024 := 33; let step := s.routineStep c r i.addr i.guardOk; s.unitOn (domQuire (quireOf c)) = true ∧ s.noStrict c ∧ (s.cx c).inflight = some i ∧ i.word = .shipped r ∧ i.handover = false ∧ i.divert = none ∧ i.pushes = [] ∧ i.popped = false ∧ i.underflow = false ∧ r.disp = false ∧ step.2 = .to (.olupo 0xA0 1 0 0) ∧ (step.1.cx c).st = .run ∧ (step.1.cx c).word = .empty ∧ (step.1.cx c).pend9 = none ∧ (step.1.cx c).stopPend = false)) :=
  by refine ⟨?_, ?_, ?_, ?_, ?_, ?_, ?_, ?_, ?_, ?_⟩ <;> decide +kernel

end Sys2Proof.Tests
end

section
/-! PROOFS. The context commands and the writes of the Olupo return stack (R88-R92, R151, R168): what clearing valid bits does to the
registers, what the stack's depth says about its entries, what each command does in each state of the context; then O17. -/

namespace Sys2Proof.Machine

/-! Clearing valid bits of the Olupo return stack. -/

/-- A bit of a register after one register bit is cleared. -/
theorem bit_reg_put_zero (s : State) (k i key b : Nat) (hi : i < 64) :
    bit ((s.put ⟨k, i, 1⟩ 0).reg key) b = true ↔ bit (s.reg key) b = true ∧ ¬ (key = k ∧ b = i) := by
  by_cases hk : key = k
  · subst hk
    rw [show (s.put ⟨key, i, 1⟩ 0).reg key = setFld (s.reg key) i 1 0 from reg_put_self s ⟨key, i, 1⟩ 0]
    by_cases hb : b = i
    · subst hb; simp [hi]
    · rw [bit_setFld_other _ _ _ _ _ (by omega)]; simp [hb]
  · rw [reg_put_ne _ _ _ _ hk]; simp [hk]

/-- A register bit stays set exactly if it is not the valid bit of an entry that is cleared. -/
theorem bit_reg_clearOstkFrom (s : State) (c n key b : Nat) :
    bit ((s.clearOstkFrom c n).reg key) b = true ↔
      bit (s.reg key) b = true ∧ ∀ i, i < 16 → n ≤ i → ¬ (key = R.CTX_OSTK c (i / 2) ∧ b = 32 * (i % 2) + 31) := by
  simp only [State.clearOstkFrom, ← List.mem_range (n := 16)]
  generalize List.range 16 = l
  induction l generalizing s with
  | nil => simp
  | cons e l ih =>
    rw [List.foldl_cons, ih]
    split
    · next he => rw [bit_reg_put_zero _ _ _ _ _ (by omega), List.forall_mem_cons]; simp [he, and_assoc]
    · next he => simp [he]

/-- Clearing valid bits writes registers and nothing else. -/
theorem clearOstkFrom_eq (s : State) (c n : Nat) : s.clearOstkFrom c n = { s with regs := (s.clearOstkFrom c n).regs } := by
  simp only [State.clearOstkFrom]
  generalize List.range 16 = l
  induction l generalizing s with
  | nil => rfl
  | cons e l ih =>
    rw [List.foldl_cons, ih]
    split <;> rfl

@[simp] theorem clearOstkFrom_ctx (s : State) (c n : Nat) : (s.clearOstkFrom c n).ctx = s.ctx := by rw [clearOstkFrom_eq]

@[simp] theorem clearOstkFrom_resp (s : State) (c n : Nat) : (s.clearOstkFrom c n).resp = s.resp := by rw [clearOstkFrom_eq]

@[simp] theorem clearOstkFrom_cx (s : State) (c n j : Nat) : (s.clearOstkFrom c n).cx j = s.cx j := by
  simp only [State.cx, clearOstkFrom_ctx]

/-- A register that is not one of the stack's keeps its value. -/
theorem reg_clearOstkFrom_other (s : State) (c n : Nat) {key : Nat} (h : ∀ j, j < 8 → key ≠ R.CTX_OSTK c j) :
    (s.clearOstkFrom c n).reg key = s.reg key := by
  refine BitVec.eq_of_getLsbD_eq fun b _ => Bool.eq_iff_iff.2 ((bit_reg_clearOstkFrom s c n key b).trans ?_)
  exact and_iff_left fun i hi _ hk => h (i / 2) (by omega) hk.1

/-- A field below the valid bit of an entry keeps its value. -/
theorem fld_reg_clearOstkFrom (s : State) (c n key half : Nat) {w : Nat} (hw : w ≤ 31) :
    fld ((s.clearOstkFrom c n).reg key) (32 * half) w = fld (s.reg key) (32 * half) w := by
  refine Nat.eq_of_testBit_eq fun i => ?_
  rw [testBit_fld, testBit_fld]
  by_cases hi : i < w
  · congr 1
    refine Bool.eq_iff_iff.2 ((bit_reg_clearOstkFrom s c n key (32 * half + i)).trans ?_)
    exact and_iff_left fun j _ _ hj => by omega
  · simp [hi]

/-! The valid bits and the depth of the stack (R151). -/

/-- Whether an entry's valid bit is set. -/
def State.ostkValid (s : State) (c i : Nat) : Bool := bit (s.reg (R.CTX_OSTK c (i / 2))) (32 * (i % 2) + 31)

/-- The stack's registers lie at different offsets. -/
theorem ctx_ostk_inj {c i j : Nat} : R.CTX_OSTK c i = R.CTX_OSTK c j ↔ i = j := by simp only [R.CTX_OSTK]; omega

/-- An entry stays valid exactly if it stands before the entries that are cleared. -/
theorem ostkValid_clearOstkFrom (s : State) (c n : Nat) {i : Nat} (hi : i < 16) :
    (s.clearOstkFrom c n).ostkValid c i = true ↔ s.ostkValid c i = true ∧ i < n := by
  simp only [State.ostkValid, bit_reg_clearOstkFrom, ctx_ostk_inj]
  refine and_congr_right fun _ => ⟨fun h => ?_, fun h j _ hj => by omega⟩
  exact Nat.lt_of_not_le fun hn => h i hi hn ⟨rfl, rfl⟩

/-- The depth is the number of valid entries counted from entry 0: an entry lies within it exactly if it and all before it are valid. -/
theorem lt_length_ostk (s : State) (c i : Nat) : i < (s.ostk c).length ↔ i < 16 ∧ ∀ j, j ≤ i → s.ostkValid c j = true := by
  have hbit : ∀ x : Word, ∀ h, (fld x (32 * h) 32).testBit 31 = bit x (32 * h + 31) := fun x h => by simp [testBit_fld, bit]
  have hle : ∀ l : List Nat, ∀ p : Nat → Bool, min (l.findIdx p) l.length = l.findIdx p := fun l p =>
    Nat.min_eq_left List.findIdx_le_length
  rw [State.ostk, List.length_map, List.takeWhile_eq_take_findIdx_not, List.length_take, hle, List.lt_findIdx_iff]
  simp [State.ostkValid, hbit]

/-- Entries past the first invalid one cleared: what is left valid is what stands after valid entries only. -/
theorem ostkValid_clear_past_depth (s : State) (c : Nat) {i : Nat} (hi : i < 16) :
    (s.clearOstkFrom c ((s.ostk c).length + 1)).ostkValid c i = true ↔ ∀ j, j ≤ i → s.ostkValid c j = true := by
  have hlt := lt_length_ostk s c i
  rw [ostkValid_clearOstkFrom _ _ _ hi]
  constructor
  · rintro ⟨hv, hd⟩ j hj
    obtain rfl | hj := Nat.eq_or_lt_of_le hj
    · exact hv
    · exact ((lt_length_ostk s c j).1 (by omega)).2 j (Nat.le_refl j)
  · intro h
    exact ⟨h i (Nat.le_refl i), by have := hlt.2 ⟨hi, h⟩; omega⟩

/-- With every valid bit cleared the stack is empty. -/
theorem ostk_clearOstkFrom_zero (s : State) (c : Nat) : (s.clearOstkFrom c 0).ostk c = [] := by
  refine List.eq_nil_of_length_eq_zero (Nat.eq_zero_of_not_pos fun h => ?_)
  have hv := ((lt_length_ostk (s.clearOstkFrom c 0) c 0).1 h).2 0 (Nat.le_refl 0)
  exact absurd ((ostkValid_clearOstkFrom s c 0 (by decide)).1 hv).2 (Nat.lt_irrefl 0)

@[simp] theorem setCx_ostk (s : State) (c : Nat) (x : Ctx) (j : Nat) : (s.setCx c x).ostk j = s.ostk j := by
  simp only [State.ostk, setCx_reg]

@[simp] theorem okResponse_ostk (s : State) (x : BitVec 32) (j : Nat) : (s.okResponse x).ostk j = s.ostk j := by
  simp only [State.ostk, okResponse_reg]

/-! A host write of a context's page. -/

/-- A write is served while the domain's pages are up (R330). -/
theorem hostWrite_up {s : State} {d : Nat} (h : s.pageUp d = true) (key : Nat) (f : State → State) :
    s.hostWrite d key f = (f s).okResponse 0 := by
  simp only [State.pageUp, Bool.and_eq_true, decide_eq_true_eq] at h
  simp [State.hostWrite, State.hostAccess, h]

theorem exec_ctxStart_up {s : State} {c : Fin 1024} (h : s.pageUp (domQuire (quireOf c)) = true) :
    exec (.ctxStart c) s = .next ((s.ctxStart c).okResponse 0) := congrArg _ (hostWrite_up h ..)

theorem exec_ctxResume_up {s : State} {c : Fin 1024} (h : s.pageUp (domQuire (quireOf c)) = true) :
    exec (.ctxResume c) s = .next ((s.ctxResume c).okResponse 0) := congrArg _ (hostWrite_up h ..)

theorem exec_ctxStop_up {s : State} {c : Fin 1024} (h : s.pageUp (domQuire (quireOf c)) = true) :
    exec (.ctxStop c) s = .next ((s.ctxStop c).okResponse 0) := congrArg _ (hostWrite_up h ..)

theorem exec_ostkWrite_up {s : State} {c : Fin 1024} (h : s.pageUp (domQuire (quireOf c)) = true) (k : Fin 8) (v : Word) :
    exec (.ostkWrite c k v) s = .next ((s.ostkWrite c k v).okResponse 0) := congrArg _ (hostWrite_up h ..)

/-! The commands, state by state. -/

/-- The context as START leaves it (R89). -/
def State.started (s : State) (c : Nat) : Ctx :=
  { s.cx c with
    st := .stall, word := .empty, inflight := none, stopPend := false, hold := none, pend9 := none, mstk := [], et := [], urg := false,
    pollcnt := 0, starved := false, blatch := 0, bEmpty := false, qlatch := 0, qEmpty := false, routine := none, cur := none,
    maddr := BitVec.ofNat 14 (s.get (F.CTX_ENTRY_ENTRY c)) }

/-- ENTRY is not one of the stack's registers. -/
theorem entry_clearOstkFrom (s : State) (c n : Nat) :
    (s.clearOstkFrom c n).get (F.CTX_ENTRY_ENTRY c) = s.get (F.CTX_ENTRY_ENTRY c) := by
  have h : (s.clearOstkFrom c n).reg (R.CTX_ENTRY c) = s.reg (R.CTX_ENTRY c) :=
    reg_clearOstkFrom_other s c n fun j _ => by simp only [R.CTX_ENTRY, R.CTX_OSTK]; omega
  simp only [State.get, F.CTX_ENTRY_ENTRY, h]

theorem ctxStart_idle {s : State} {c : Nat} (h : (s.cx c).st = .idle) :
    s.ctxStart c = (s.clearOstkFrom c 0).setCx c (s.started c) := by
  simp [State.ctxStart, h, entry_clearOstkFrom, State.started]

theorem ctxStart_not_idle {s : State} {c : Nat} (h : (s.cx c).st ≠ .idle) : s.ctxStart c = s.rej (ctxPage c) := if_pos h

theorem ctxStop_run {s : State} {c : Nat} (h : (s.cx c).st = .run) :
    s.ctxStop c = s.setCx c { s.cx c with stopPend := true } := by simp [State.ctxStop, h]

theorem ctxStop_idle {s : State} {c : Nat} (h : (s.cx c).st = .idle) : s.ctxStop c = s.rej (ctxPage c) := by
  simp [State.ctxStop, h]

/-- A context with no word in RUN goes to IDLE at once (R90). -/
theorem ctxStop_goIdle {s : State} {c : Nat} (hr : (s.cx c).st ≠ .run) (hi : (s.cx c).st ≠ .idle) : s.ctxStop c = s.goIdle c := by
  cases h : (s.cx c).st with
  | idle => exact absurd h hi
  | run => exact absurd h hr
  | ready | stall | wait | parked | faulted => simp only [State.ctxStop, h]

/-- START from IDLE (R89): the context begins at ENTRY with an empty stack; no other context and no register but the stack's changes. -/
theorem ctxStart_effect {s : State} {c : Nat} (h : (s.cx c).st = .idle) :
    (s.ctxStart c).cx c = s.started c ∧ (s.ctxStart c).ostk c = [] ∧ (s.ctxStart c).resp = s.resp ∧
      (∀ d, d ≠ c → (s.ctxStart c).cx d = s.cx d) ∧
      ∀ key, (∀ j, j < 8 → key ≠ R.CTX_OSTK c j) → (s.ctxStart c).reg key = s.reg key := by
  rw [ctxStart_idle h]
  refine ⟨cx_setCx_self .., ?_, ?_, fun d hd => ?_, fun key hkey => ?_⟩
  · rw [setCx_ostk, ostk_clearOstkFrom_zero]
  · rw [setCx_resp, clearOstkFrom_resp]
  · rw [cx_setCx_ne _ _ hd, clearOstkFrom_cx]
  · rw [setCx_reg, reg_clearOstkFrom_other s c 0 hkey]

/-! A write of the Olupo stack (R92, R151). -/

/-- What a stack register stores of a written value: the two addresses and valid bits, zero in the reserved bits. -/
def ostkWord (v : Word) : Word :=
  BitVec.ofNat 64 (fld v 0 25 + fld v 31 1 * 2 ^ 31 + fld v 32 25 * 2 ^ 32 + fld v 63 1 * 2 ^ 63)

/-- The stored word as a sum below 2^64. -/
theorem toNat_ostkWord (v : Word) :
    (ostkWord v).toNat = fld v 0 25 + fld v 31 1 * 2 ^ 31 + fld v 32 25 * 2 ^ 32 + fld v 63 1 * 2 ^ 63 := by
  have h0 := fld_lt v 0 25
  have h1 := fld_lt v 31 1
  have h2 := fld_lt v 32 25
  have h3 := fld_lt v 63 1
  rw [ostkWord, BitVec.toNat_ofNat, Nat.mod_eq_of_lt (by omega)]

/-- The addresses and the valid bits are stored as written. -/
theorem fld_ostkWord (v : Word) :
    fld (ostkWord v) 0 25 = fld v 0 25 ∧ fld (ostkWord v) 32 25 = fld v 32 25 ∧
      fld (ostkWord v) 31 1 = fld v 31 1 ∧ fld (ostkWord v) 63 1 = fld v 63 1 := by
  have h0 := fld_lt v 0 25
  have h1 := fld_lt v 31 1
  have h2 := fld_lt v 32 25
  have h3 := fld_lt v 63 1
  have e : ∀ lo w, fld (ostkWord v) lo w = (ostkWord v).toNat / 2 ^ lo % 2 ^ w := fun lo w => by
    rw [fld, nfld, Nat.shiftRight_eq_div_pow]
  simp only [e, toNat_ostkWord]
  omega

/-- A bit is its one-bit field. -/
theorem bit_eq_testBit_fld {n : Nat} (x : BitVec n) (i : Nat) : bit x i = (fld x i 1).testBit 0 := by
  rw [testBit_fld]; rfl

theorem bit_ostkWord (v : Word) (i : Nat) : bit (ostkWord v) (32 * (i % 2) + 31) = bit v (32 * (i % 2) + 31) := by
  obtain ⟨-, -, h0, h1⟩ := fld_ostkWord v
  rw [bit_eq_testBit_fld, bit_eq_testBit_fld]
  obtain h | h := Nat.mod_two_eq_zero_or_one i
  · rw [h, h0]
  · rw [h, h1]

/-- The valid bits that a write asks for: its own two entries as written, the others as they stand. -/
theorem ostkValid_setReg (s : State) (c k i : Nat) (v : Word) :
    (s.setReg (R.CTX_OSTK c k) (ostkWord v)).ostkValid c i = true ↔
      if i / 2 = k then bit v (32 * (i % 2) + 31) = true else s.ostkValid c i = true := by
  simp only [State.ostkValid, reg_setReg, ctx_ostk_inj]
  split
  · rw [bit_ostkWord]
  · rfl

theorem ostkWrite_writable {s : State} {c : Nat} (h : s.ctxWritable c = true) (k : Nat) (v : Word) :
    s.ostkWrite c k v = (s.setReg (R.CTX_OSTK c k) (ostkWord v)).clearOstkFrom c
      (((s.setReg (R.CTX_OSTK c k) (ostkWord v)).ostk c).length + 1) := if_pos h

theorem ostkWrite_not_writable {s : State} {c : Nat} (h : s.ctxWritable c = false) (k : Nat) (v : Word) :
    s.ostkWrite c k v = s.rej (ctxPage c) := by simp [State.ostkWrite, h]

/-- A write of the stack while the context's registers may be written (R151): the addresses written are stored, an entry is valid exactly
if a valid bit is asked for it and every entry before, and every other address and register keeps its value. -/
theorem ostkWrite_effect {s : State} {c : Nat} (h : s.ctxWritable c = true) (k : Nat) (v : Word) :
    fld ((s.ostkWrite c k v).reg (R.CTX_OSTK c k)) 0 25 = fld v 0 25 ∧
      fld ((s.ostkWrite c k v).reg (R.CTX_OSTK c k)) 32 25 = fld v 32 25 ∧
      (∀ i, i < 16 → ((s.ostkWrite c k v).ostkValid c i = true ↔
        ∀ j, j ≤ i → if j / 2 = k then bit v (32 * (j % 2) + 31) = true else s.ostkValid c j = true)) ∧
      (∀ i half, i ≠ k → fld ((s.ostkWrite c k v).reg (R.CTX_OSTK c i)) (32 * half) 31 = fld (s.reg (R.CTX_OSTK c i)) (32 * half) 31) ∧
      (s.ostkWrite c k v).ctx = s.ctx ∧
      ∀ key, (∀ j, j < 8 → key ≠ R.CTX_OSTK c j) → key ≠ R.CTX_OSTK c k → (s.ostkWrite c k v).reg key = s.reg key := by
  obtain ⟨h0, h32, -, -⟩ := fld_ostkWord v
  rw [ostkWrite_writable h]
  refine ⟨?_, ?_, fun i hi => ?_, fun i half hi => ?_, ?_, fun key hkey hk => ?_⟩
  · exact (fld_reg_clearOstkFrom _ _ _ _ 0 (by decide)).trans (by rw [reg_setReg_self, h0])
  · exact (fld_reg_clearOstkFrom _ _ _ _ 1 (by decide)).trans (by rw [reg_setReg_self, h32])
  · exact (ostkValid_clear_past_depth _ c hi).trans (forall₂_congr fun j _ => ostkValid_setReg s c k j v)
  · rw [fld_reg_clearOstkFrom _ _ _ _ _ (Nat.le_refl 31), reg_setReg_ne _ _ _ _ (by rwa [Ne, ctx_ostk_inj])]
  · rw [clearOstkFrom_ctx, setReg_ctx]
  · rw [reg_clearOstkFrom_other _ _ _ hkey, reg_setReg_ne _ _ _ _ hk]

/-- Settles O17: START, RESUME, STOP and OSTK_WRITE by the state of the context. The states after START and OSTK_WRITE are generalized to
what the effect lemmas say of them: the kernel would otherwise compute the sixteen clears of `clearOstkFrom` to compare a field. -/
theorem contextCommands : Obligations.ContextCommands := by
  unfold Obligations.ContextCommands
  refine ⟨fun s c hup => ⟨fun hi => ?_, fun hi => ?_⟩,
    fun s c hup => ⟨fun hx => ?_, fun hp hf => ?_, fun hr => ?_, fun hr hi => ?_, fun hi => ?_⟩,
    fun s c k v hup => ⟨fun hw => ?_, fun hw => ?_⟩⟩
  · refine ⟨_, exec_ctxStart_up hup, ?_⟩
    have he := ctxStart_effect hi
    generalize s.ctxStart c = u at he
    obtain ⟨hcx, hostk, hresp, hother, hreg⟩ := he
    exact ⟨hcx, (okResponse_ostk ..).trans hostk, by simp [State.okResponse, hresp], hother, hreg⟩
  · rw [exec_ctxStart_up hup, ctxStart_not_idle hi]
  · rw [exec_ctxResume_up hup, State.ctxResume, if_pos hx]
  · rw [exec_ctxResume_up hup, State.ctxResume, if_neg (not_or.2 ⟨hp, hf⟩)]
  · rw [exec_ctxStop_up hup, ctxStop_run hr]
  · rw [exec_ctxStop_up hup, ctxStop_goIdle hr hi]; rfl
  · rw [exec_ctxStop_up hup, ctxStop_idle hi]
  · rw [exec_ostkWrite_up hup, ostkWrite_not_writable hw]
  · refine ⟨_, exec_ostkWrite_up hup k v, ?_⟩
    have he := ostkWrite_effect hw k v
    generalize s.ostkWrite c k v = u at he
    obtain ⟨h0, h32, hvalid, haddr, hctx, hreg⟩ := he
    exact ⟨h0, h32, hvalid, fun i _ hi => haddr _ _ hi, hctx, fun r hr => hreg r hr (hr k k.isLt)⟩

end Sys2Proof.Machine
end

section
/-! PROOFS. O60 fails in one clause: a trapped divide by zero need not leave DZ set (R69, R155). Its fault record reaches the colophon, where an
entry of the intake may have to give way; the count of suppressed occurrences of that entry's code is then written (R389, R392). The
statement lets the entry's code be any number, and the register of a large enough one is the context's FLAGPRED. -/

namespace Sys2Proof.Machine

/-- An occurrence code far above the ten bits of the manual's codes. -/
def strayCode : Nat := R.CTX_FLAGPRED 0 - R.COL_SUPP 0

/-- The suppressed count of the stray code is the low byte of context 0's FLAGPRED, in which bit 4 is DZ. -/
theorem suppRF_strayCode : suppRF strayCode = ⟨R.CTX_FLAGPRED 0, 0, 8⟩ := rfl

/-- A colophon that has accepted the four occurrences of this FCLK, the newest of them from source 1 with the stray code and a suppressed
count of 16: an occurrence of context 0 comes before it (R389). -/
def strayColophon : Colophon := { Colophon.reset with intake := [⟨strayCode, 1, false, 0, 0, 0, 16, false⟩], accepted := (0, 4) }

/-- DIVS at 64 bits, three bytes long, without a guard. -/
def plainDivide : Decoded := ⟨0x3000D3, 0, 0, 0⟩

/-- The reset state with the stray colophon based, and context 0 in a divide whose divisor is zero, DZTRAP set (R85). -/
def trappedDivide : State :=
  (({ State.reset with col := strayColophon }.setCx 0 { Ctx.reset with cur := some plainDivide }).put (F.CTX_CTXCFG_DZTRAP 0) 1).put
    F.COL_STATUS_BASED 1

/-- Its tables are canonical: the invariant of the model does not exclude it. -/
theorem trappedDivide_wf : trappedDivide.wf = true := by decide +kernel

/-- The displaced entry gives 16 + 16 back to the low byte of FLAGPRED and is then counted once itself: 33, in which bit 4 is clear. -/
theorem trappedDivide_flagpred :
    fld ((trappedDivide.routineStep 0 (.olupo 0xD3 0 0 0) 0 true).1.reg (R.CTX_FLAGPRED 0)) 0 8 = 33 := by decide +kernel

/-- DZ is clear after the trapped divide. -/
theorem trappedDivide_dz : (trappedDivide.routineStep 0 (.olupo 0xD3 0 0 0) 0 true).1.get (flagRF 0 4) = 0 := by
  have hbit : ∀ w : Word, fld w 4 1 = fld w 0 8 / 2 ^ 4 % 2 := fun w => by
    simp only [fld, nfld, Nat.shiftRight_eq_div_pow]
    omega
  exact (hbit _).trans (congrArg (fun v => v / 2 ^ 4 % 2) trappedDivide_flagpred)

/-- Refutes O60: the clause of ComputingInstructions about DZTRAP says of every state that a divide by zero that faults leaves DZ at 1; from
`trappedDivide`, where the fault record displaces an entry of the stray code, it leaves 0. -/
theorem not_olupoInstructions : ¬ Obligations.OlupoInstructions := by
  unfold Obligations.OlupoInstructions
  rintro ⟨-, hcompute, -⟩
  have hclauses := hcompute trappedDivide 0 64 plainDivide 0 (by decide +kernel) (by decide) (by decide) (by decide)
  obtain ⟨-, -, -, -, -, -, -, -, -, -, -, -, -, -, -, -, -, -, -, -, -, -, -, -, -, -, htrap, -⟩ := hclauses
  obtain ⟨-, -, hdz⟩ := htrap 0xD3 (by decide) (by decide +kernel) (by decide +kernel)
  rw [trappedDivide_dz] at hdz
  exact absurd hdz (by decide)

end Sys2Proof.Machine
end

section
/-! PROOFS. Grants and decisions of a queue slice: which request a grant takes and what it changes (R204, R205, R212), what a granted operation
that is accepted leaves (R199, R200), what WMARM does (R207, R208); then O23. -/

namespace Sys2Proof.Machine

/-! Grants (R204, R205, R212). -/

/-- The request that a grant of a slice takes: the first one of the port next in rotation, requests of port `skip` left out (R204, R205). -/
def Slice.nextRequest (sl : Slice) (skip : Nat) : Option QReq :=
  let reqs := sl.reqs.filter (fun r => r.port != skip)
  reqs.find? (fun r => turnsAfter sl.lastPort r.port == minD 64 (reqs.map (fun r => turnsAfter sl.lastPort r.port)))

theorem nextRequest_nil {sl : Slice} (h : sl.reqs = []) (skip : Nat) : sl.nextRequest skip = none := by
  simp [Slice.nextRequest, h]

theorem nextRequest_singleton {sl : Slice} {r : QReq} {skip : Nat} (h : sl.reqs = [r]) (hr : r.port ≠ skip) :
    sl.nextRequest skip = some r := by
  simp [Slice.nextRequest, h, hr, minD]

/-- Of two requests the one of the port that comes first after the last served is taken (R205). -/
theorem nextRequest_pair {sl : Slice} {a b : QReq} {skip : Nat} (h : sl.reqs = [a, b] ∨ sl.reqs = [b, a]) (ha : a.port ≠ skip)
    (hb : b.port ≠ skip) (hlt : turnsAfter sl.lastPort a.port < turnsAfter sl.lastPort b.port) : sl.nextRequest skip = some a := by
  rcases h with h | h
  · simp [Slice.nextRequest, h, ha, hb, minD, Nat.min_eq_left (Nat.le_of_lt hlt)]
  · simp [Slice.nextRequest, h, ha, hb, minD, Nat.min_eq_right (Nat.le_of_lt hlt), Nat.ne_of_gt hlt]

/-- A wait noted in MAXWAIT changes registers alone. -/
theorem noteWait_eq (s : State) (k w : Nat) : s.noteWait k w = { s with regs := (s.noteWait k w).regs } := by
  simp only [State.noteWait]
  split <;> rfl

@[simp] theorem noteWait_sl (s : State) (k w j : Nat) : (s.noteWait k w).sl j = s.sl j := by rw [noteWait_eq]; rfl

/-- MAXWAIT takes a longer wait (R212). -/
theorem get_noteWait (s : State) (k w : Nat) :
    (s.noteWait k w).get (F.QSL_MAXWAIT_MAXWAIT k) = Nat.max (s.get (F.QSL_MAXWAIT_MAXWAIT k)) (Nat.min w 65535) := by
  have hw : Nat.min w 65535 ≤ 65535 := Nat.min_le_right _ _
  simp only [State.noteWait]
  split
  · next h =>
    rw [get_put_self _ _ _ (by simp [F.QSL_MAXWAIT_MAXWAIT]), Nat.mod_eq_of_lt (by simp only [F.QSL_MAXWAIT_MAXWAIT]; omega)]
    exact (Nat.max_eq_right (Nat.le_of_lt h)).symm
  · next h => exact (Nat.max_eq_left (Nat.le_of_not_lt h)).symm

theorem reg_noteWait_ne (s : State) (k w : Nat) {f : Nat} (hf : f ≠ R.QSL_MAXWAIT k) : (s.noteWait k w).reg f = s.reg f := by
  simp only [State.noteWait]
  split
  · exact reg_put_ne _ _ _ _ hf
  · rfl

/-- A descriptor word without an error pattern is read as it stands (R198). -/
theorem qdTouch_clean {s : State} {n word : Nat} (h : s.qdPattern n word = 0) : s.qdTouch n word = s := if_pos h

/-- The slice after request `r` is granted, `reqs` being left: `en` is EN of its queue (R196, R204, R205). -/
def Slice.grant (sl : Slice) (r : QReq) (en : Bool) (reqs : List QReq) : Slice :=
  { sl with reqs := reqs, lastPort := r.port, granted := sl.granted ++ [(r, en)] }

/-- What a grant of request `r` by slice `k` changes, `reqs` being left (R204, R205, R212): the slice, and MAXWAIT. -/
structure Granted (s t : State) (k : Nat) (r : QReq) (reqs : List QReq) : Prop where
  slice : t.sl k = { (s.sl k).grant r (s.on (F.QD_CFG_EN r.queue)) reqs with grants := (s.fclk, s.grantsNow k + 1) }
  rest : t = { s with regs := t.regs, qsl := t.qsl }
  maxwait : t.get (F.QSL_MAXWAIT_MAXWAIT k) = Nat.max (s.get (F.QSL_MAXWAIT_MAXWAIT k)) (Nat.min (s.fclk - r.since) 65535)
  regs : ∀ f, f ≠ R.QSL_MAXWAIT k → t.reg f = s.reg f

/-- Without a request there is no grant, and none is counted (R205). -/
theorem grantCounted_none {s : State} {k skip : Nat} (h : (s.sl k).nextRequest skip = none) : s.grantCounted k skip = s := by
  have hs : s.grantOne k skip = s := by
    simp only [Slice.nextRequest] at h
    simp only [State.grantOne, h]
  simp [State.grantCounted, hs]

/-- One grant, counted (R204, R205, R212): the slice's next request `r`, the only one of its port, moves to the granted operations. -/
theorem grantCounted_some {s : State} {k skip : Nat} {r : QReq} {reqs : List QReq} (h : (s.sl k).nextRequest skip = some r)
    (hrest : dropFirst (fun o => o.port == r.port) (s.sl k).reqs = reqs) (hone : reqs.find? (fun o => o.port == r.port) = none)
    (hlt : reqs.length < (s.sl k).reqs.length) (h0 : s.qdPattern r.queue 0 = 0) (h1 : s.qdPattern r.queue 1 = 0) :
    Granted s (s.grantCounted k skip) k r reqs := by
  have ht : s.grantOne k skip =
      ((s.setSl k { s.sl k with reqs := reqs, lastPort := r.port }).setSl k
        ((s.sl k).grant r (s.on (F.QD_CFG_EN r.queue)) reqs)).noteWait k (s.fclk - r.since) := by
    simp only [Slice.nextRequest] at h
    simp only [State.grantOne, h, hrest, hone]
    rw [qdTouch_clean (s := State.setSl ..) (word := 0) h0, qdTouch_clean (s := State.setSl ..) (word := 1) h1, sl_setSl_self]
    rfl
  rw [State.grantCounted, ht, if_pos (by rw [noteWait_sl, sl_setSl_self]; exact hlt), noteWait_sl, sl_setSl_self]
  exact
    { slice := sl_setSl_self _ _ _
      rest := by rw [noteWait_eq]; rfl
      maxwait := get_noteWait _ k _
      regs := fun f hf => reg_noteWait_ne _ k _ hf }

/-- QUEUE_GRANT's first grant of an FCLK, and its second, to another port (R205). -/
theorem queueGrant_two {s u : State} {k : Nat} {r : QReq} {reqs : List QReq} (hon : s.unitOn (domSlice k) = true)
    (hnew : (s.sl k).grants.1 ≠ s.fclk) (hu : s.grantCounted k 64 = u) (hg : Granted s u k r reqs) :
    s.queueGrant k = u.grantCounted k r.port := by
  have hs : s.grantsNow k = 0 := if_neg hnew
  have hfclk : u.fclk = s.fclk := by rw [hg.rest]
  have h1 : u.grantsNow k = 1 := by simp [State.grantsNow, hg.slice, hfclk, hnew]
  have hlast : (u.sl k).lastPort = r.port := by rw [hg.slice]; rfl
  simp only [State.queueGrant, hon, if_true, hs, hu, h1, hlast]

/-- Two grants of an FCLK and no third (R205). -/
theorem queueGrant_done {s : State} {k : Nat} (h : (s.sl k).grants = (s.fclk, 2)) : s.queueGrant k = s := by
  have h2 : s.grantsNow k = 2 := by simp [State.grantsNow, h]
  simp only [State.queueGrant, h2, ite_self]

/-- A grant of the slice's one request leaves nothing to grant (R204, R205). -/
theorem queueGrant_one {s : State} {k : Nat} {r : QReq} (hon : s.unitOn (domSlice k) = true) (hnew : (s.sl k).grants.1 ≠ s.fclk)
    (hreqs : (s.sl k).reqs = [r]) (hport : r.port < 64) (h0 : s.qdPattern r.queue 0 = 0) (h1 : s.qdPattern r.queue 1 = 0) :
    Granted s (s.queueGrant k) k r [] := by
  have hg : Granted s (s.grantCounted k 64) k r [] :=
    grantCounted_some (nextRequest_singleton hreqs (Nat.ne_of_lt hport)) (by simp [hreqs, dropFirst]) rfl (by simp [hreqs]) h0 h1
  rw [queueGrant_two hon hnew rfl hg, grantCounted_none (nextRequest_nil (by rw [hg.slice]; rfl) _)]
  exact hg

/-- Requests of two ports are both granted, the one first whose port comes first after the last served (R204, R205). -/
theorem queueGrant_pair {s : State} {k : Nat} {a b : QReq} (hon : s.unitOn (domSlice k) = true) (hnew : (s.sl k).grants.1 ≠ s.fclk)
    (hreqs : (s.sl k).reqs = [a, b] ∨ (s.sl k).reqs = [b, a]) (ha : a.port < 64) (hb : b.port < 64)
    (hlt : turnsAfter (s.sl k).lastPort a.port < turnsAfter (s.sl k).lastPort b.port)
    (ha0 : s.qdPattern a.queue 0 = 0) (ha1 : s.qdPattern a.queue 1 = 0) (hb0 : s.qdPattern b.queue 0 = 0) (hb1 : s.qdPattern b.queue 1 = 0) :
    ∃ u, Granted s u k a [b] ∧ Granted u (s.queueGrant k) k b [] := by
  have hne : b.port ≠ a.port := fun h => by rw [h] at hlt; exact Nat.lt_irrefl _ hlt
  have hdrop : dropFirst (fun o => o.port == a.port) (s.sl k).reqs = [b] := by
    rcases hreqs with h | h <;> simp [h, dropFirst, hne]
  have hg : Granted s (s.grantCounted k 64) k a [b] :=
    grantCounted_some (nextRequest_pair hreqs (Nat.ne_of_lt ha) (Nat.ne_of_lt hb) hlt) hdrop (by simp [hne])
      (by rcases hreqs with h | h <;> simp [h]) ha0 ha1
  have hqdErr : (s.grantCounted k 64).qdErr = s.qdErr := by rw [hg.rest]
  have hleft : ((s.grantCounted k 64).sl k).reqs = [b] := by rw [hg.slice]; rfl
  refine ⟨_, hg, ?_⟩
  rw [queueGrant_two hon hnew rfl hg]
  exact grantCounted_some (nextRequest_singleton hleft hne) (by simp [hleft, dropFirst]) rfl (by simp [hleft])
    (by rwa [State.qdPattern, hqdErr]) (by rwa [State.qdPattern, hqdErr])

/-- A grant leaves EN of every queue (R196). -/
theorem Granted.on_en {s t : State} {k : Nat} {r : QReq} {reqs : List QReq} (h : Granted s t k r reqs) (_ : k < 16) (n : Nat) :
    t.on (F.QD_CFG_EN n) = s.on (F.QD_CFG_EN n) := by
  have hkey : R.QD_CFG n ≠ R.QSL_MAXWAIT k := by simp only [R.QD_CFG, R.QSL_MAXWAIT]; omega
  simp only [State.on, State.get, F.QD_CFG_EN, h.regs _ hkey]

/-! Decisions (R199, R200). -/

/-- A hold that is not there is not released (R115). -/
theorem releaseHold_none {s : State} {c : Nat} (h : (s.cx c).hold = none) (bank queue : Bool) : s.releaseHold c bank queue = s := by
  simp only [State.releaseHold, h]

/-- Answers delivered leave the hold as it is (R40). -/
@[simp] theorem deliverQ_hold (x : Ctx) (l : List CtxQop) : (deliverQ x l).hold = x.hold := by
  induction l generalizing x with
  | nil => rfl
  | cons o l ih =>
    obtain ⟨id, qop, _ | ⟨v, ok⟩⟩ := o
    · rfl
    · simp only [deliverQ]
      rw [ih]
      split <;> rfl

/-- A context that waits for this one answer has it (R40, R50). -/
theorem answerQ_only {s : State} {c : Nat} {o : CtxQop} (h : (s.cx c).qops = [o]) (v : Word) (ok : Bool) :
    ((s.answerQ c o.id v ok).cx c).qok = ok ∧ ((s.answerQ c o.id v ok).cx c).qops = [] := by
  by_cases hf : qopFills o.qop.toNat = true <;> simp [State.answerQ, h, deliverQ, hf]

/-- What a slice has granted does not bear on its accepted operations (R199). -/
theorem accesses_setSl_granted (s : State) (k j : Nat) (l : List (QReq × Bool)) :
    ((s.setSl k { s.sl k with granted := l }).sl j).accesses = (s.sl j).accesses := by
  by_cases h : j = k
  · subst h; rw [sl_setSl_self]
  · rw [sl_setSl_ne _ _ h]

/-- Nor on the reserved pointers, and with them on a decision (R199, R200). -/
theorem verdict_setSl_granted (s : State) (k port qop n : Nat) (l : List (QReq × Bool)) (en : Bool) :
    (s.setSl k { s.sl k with granted := l }).verdict port qop n en = s.verdict port qop n en := by
  have htail : (s.setSl k { s.sl k with granted := l }).rtail n = s.rtail n := by
    simp only [State.rtail, State.qPending, accesses_setSl_granted, setSl_get]
  have hhead : (s.setSl k { s.sl k with granted := l }).rhead n = s.rhead n := by
    simp only [State.rhead, State.qPending, accesses_setSl_granted, setSl_get]
  rw [State.verdict, htail, hhead]
  rfl

/-- A push that finds room takes the slot at RTAIL (R199, R200). -/
theorem verdict_push {s : State} {port qop n : Nat} {en : Bool} (hc : s.refusalCause port qop n en = 0) (hq : qop = 1 ∨ qop = 4)
    (hroom : (s.rtail n + 2 ^ 18 - s.get (F.QD_PTR_HEAD n)) % 2 ^ 18 < s.qCap n) : s.verdict port qop n en = .slot (s.rtail n) := by
  rcases hq with rfl | rfl <;> simp [State.verdict, hc, qopPushes, hroom, -Nat.reducePow]

/-- An operation that takes an element and finds one takes the one at RHEAD (R199, R200). -/
theorem verdict_take {s : State} {port qop n : Nat} {en : Bool} (hc : s.refusalCause port qop n en = 0) (hq : qop = 2 ∨ qop = 3 ∨ qop = 5)
    (hsome : (s.get (F.QD_PTR_TAIL n) + 2 ^ 18 - s.rhead n) % 2 ^ 18 ≠ 0) : s.verdict port qop n en = .slot (s.rhead n) := by
  rcases hq with rfl | rfl | rfl <;> simp [State.verdict, hc, qopPushes, hsome, -Nat.reducePow]

/-- WMARM that is not refused is accepted (R200). -/
theorem verdict_wmarm {s : State} {port n : Nat} {en : Bool} (hc : s.refusalCause port 6 n en = 0) : s.verdict port 6 n en = .armed := by
  simp only [State.verdict, hc]; rfl

/-! WMARM and the watermark (R200, R207, R208). -/

/-- The watermark's condition: the count has fallen to WM under WMDIR, or has reached WM (R207, R208). -/
abbrev State.atWatermark (s : State) (n : Nat) : Prop :=
  if s.on (F.QD_PTR_WMDIR n) = true then s.qCount n ≤ s.get (F.QD_PTR_WM n) else s.get (F.QD_PTR_WM n) ≤ s.qCount n

/-- An armed watermark whose condition holds is disarmed, and the notification line posted (R207, R208). -/
theorem watermark_eq (s : State) (n : Nat) :
    s.watermark n = if s.on (F.QD_PTR_ARMED n) = true ∧ s.atWatermark n
      then (s.put (F.QD_PTR_ARMED n) 0).post (0x800 + s.get (F.QD_CFG_NOTIFY n)) else s := by
  by_cases h : s.on (F.QD_PTR_WMDIR n) = true <;> simp [State.watermark, State.atWatermark, h]

/-- Posting a line changes `posted` alone (R98, R99). -/
theorem post_eq (s : State) (line : Nat) : s.post line = { s with posted := (s.post line).posted } := by
  simp only [State.post]
  split <;> rfl

/-- A line that is not reserved is posted, now or by an earlier post of this FCLK (R98, R99). -/
theorem mem_posted_post {s : State} {line : Nat} (h : line < 0xC80) : (s.fclk, line) ∈ (s.post line).posted := by
  by_cases hm : (s.fclk, line) ∈ s.posted <;> simp [State.post, h, hm]

/-- A field of PTR below ARMED keeps its value when ARMED is written. -/
theorem get_put_armed (s : State) (n v : Nat) {f : RF} (hk : f.key = R.QD_PTR n) (hw : f.lo + f.width ≤ 55) :
    (s.put (F.QD_PTR_ARMED n) v).get f = s.get f := get_put_beside s _ f v hk (.inr hw)

/-- ARMED has no part in the watermark's condition. -/
theorem atWatermark_put_armed (s : State) (n v : Nat) : (s.put (F.QD_PTR_ARMED n) v).atWatermark n ↔ s.atWatermark n := by
  have hdir : (s.put (F.QD_PTR_ARMED n) v).on (F.QD_PTR_WMDIR n) = s.on (F.QD_PTR_WMDIR n) := by
    simp only [State.on]; rw [get_put_armed s n v rfl (by simp [F.QD_PTR_WMDIR])]
  have hcount : (s.put (F.QD_PTR_ARMED n) v).qCount n = s.qCount n := by
    simp only [State.qCount]
    rw [get_put_armed s n v (f := F.QD_PTR_TAIL n) rfl (by simp [F.QD_PTR_TAIL]),
      get_put_armed s n v (f := F.QD_PTR_HEAD n) rfl (by simp [F.QD_PTR_HEAD])]
  rw [State.atWatermark, State.atWatermark, hdir, hcount, get_put_armed s n v (f := F.QD_PTR_WM n) rfl (by simp [F.QD_PTR_WM])]

/-- WMARM below the watermark sets ARMED (R208). -/
theorem arm_not_met {s : State} {n : Nat} (h : ¬ s.atWatermark n) : s.arm n = s.put (F.QD_PTR_ARMED n) 1 := by
  rw [State.arm, watermark_eq, if_neg fun hm => h ((atWatermark_put_armed s n 1).1 hm.2)]

/-- WMARM at the watermark disarms it at once and posts the notification line (R207, R208). -/
theorem arm_met {s : State} {n : Nat} (h : s.atWatermark n) :
    s.arm n = ((s.put (F.QD_PTR_ARMED n) 1).put (F.QD_PTR_ARMED n) 0).post (0x800 + s.get (F.QD_CFG_NOTIFY n)) := by
  have hkey : R.QD_CFG n ≠ R.QD_PTR n := by simp only [R.QD_CFG, R.QD_PTR]; omega
  have hon : (s.put (F.QD_PTR_ARMED n) 1).on (F.QD_PTR_ARMED n) = true := by
    rw [on_iff, get_put_self _ _ _ (by simp [F.QD_PTR_ARMED])]; simp [F.QD_PTR_ARMED]
  rw [State.arm, watermark_eq, if_pos ⟨hon, (atWatermark_put_armed s n 1).2 h⟩, get_put_key _ (F.QD_PTR_ARMED n) (F.QD_CFG_NOTIFY n) _ hkey]

/-- WMARM accepted changes PTR and the spine alone. -/
theorem arm_eq (s : State) (n : Nat) : s.arm n = { s with regs := (s.arm n).regs, posted := (s.arm n).posted } := by
  by_cases h : s.atWatermark n
  · rw [arm_met h, post_eq]; rfl
  · rw [arm_not_met h]; rfl

/-- What WMARM does to PTR and the spine (R200, R207, R208). -/
theorem arm_effect (s : State) (n : Nat) :
    (¬ s.atWatermark n → (s.arm n).get (F.QD_PTR_ARMED n) = 1) ∧
    (s.atWatermark n → (s.arm n).get (F.QD_PTR_ARMED n) = 0 ∧
      (s.get (F.QD_CFG_NOTIFY n) < 0x480 → (s.fclk, 0x800 + s.get (F.QD_CFG_NOTIFY n)) ∈ (s.arm n).posted)) ∧
    ∀ f, f ≠ R.QD_PTR n → (s.arm n).reg f = s.reg f := by
  have hput : ∀ (u : State) (v : Nat), (u.put (F.QD_PTR_ARMED n) v).get (F.QD_PTR_ARMED n) = v % 2 := fun u v =>
    get_put_self u _ v (by simp [F.QD_PTR_ARMED])
  have hreg : ∀ (u : State) (v f : Nat), f ≠ R.QD_PTR n → (u.put (F.QD_PTR_ARMED n) v).reg f = u.reg f := fun u v f hf =>
    reg_put_ne u _ f v hf
  by_cases h : s.atWatermark n
  · rw [arm_met h]
    refine ⟨fun hn => absurd h hn, fun _ => ⟨?_, fun hl => mem_posted_post (by omega)⟩, fun f hf => ?_⟩
    · rw [post_eq]; exact hput _ 0
    · rw [post_eq]; exact (hreg _ 0 f hf).trans (hreg s 1 f hf)
  · rw [arm_not_met h]
    exact ⟨fun _ => hput s 1, fun hm => absurd hm h, hreg s 1⟩

/-! The rows of a granted operation (R199, R200). -/

section
variable {s : State} {n : Nat} {r : QReq} {en : Bool} {rest : List (QReq × Bool)} (hon : s.unitOn (domSlice (n % 16)) = true)
  (hgr : (s.sl (n % 16)).granted = (r, en) :: rest) (hn : r.queue = n)
include hon hgr hn

/-- The slice's oldest granted operation is the one of the row: it is decided (R200). -/
theorem decideRow_front {qop : Nat} (hq : r.qop = qop) :
    s.decideRow n qop = (s.setSl (n % 16) { s.sl (n % 16) with granted := rest }).qDecide r en := by
  simp only [State.decideRow, State.decideNext, hgr, hn, hq, hon, and_self, if_true]

variable {c id : Nat} (htag : r.tag = .ctx c id) (hhold : (s.cx c).hold = none)
include htag hhold

/-- An accepted operation of a context in no hold waits for its element access at its slot (R199). -/
theorem decideRow_slot {qop i : Nat} (hq : r.qop = qop) (hv : s.verdict r.port r.qop n en = .slot i) :
    s.decideRow n qop = (s.setSl (n % 16) { s.sl (n % 16) with granted := rest }).setSl (n % 16)
      { s.sl (n % 16) with granted := rest, accesses := (s.sl (n % 16)).accesses ++ [⟨r, i⟩] } := by
  rw [decideRow_front hon hgr hn hq, State.qDecide, hn, verdict_setSl_granted, hv]
  simp only [htag, sl_setSl_self]
  rw [releaseHold_none (by rw [setSl_cx, setSl_cx]; exact hhold)]

/-- WMARM of a context in no hold is accepted and answered at its decision (R200). -/
theorem decideRow_wmarm (hq : r.qop = 6) (hc : s.refusalCause r.port r.qop n en = 0) :
    s.decideRow n 6 = ((s.setSl (n % 16) { s.sl (n % 16) with granted := rest }).arm n).answerQ c id 0 true := by
  rw [hq] at hc
  rw [decideRow_front hon hgr hn hq, State.qDecide, hn, hq, verdict_setSl_granted, verdict_wmarm hc]
  simp only [State.answerOp, htag]
  rw [releaseHold_none]
  rw [State.answerQ, cx_setCx_self, deliverQ_hold, arm_eq]
  exact hhold

end

/-- Settles O23: a grant by the rotation, a second one from the state after the first, and the decision of a granted operation by its kind. -/
theorem queueRequests : Obligations.QueueRequests := by
  unfold Obligations.QueueRequests
  refine ⟨fun s k r hon => ⟨fun hdone => congrArg _ (queueGrant_done hdone), fun hnew hreqs hport h0 h1 => ?_⟩,
    fun s k a b hon hnew hreqs _ ha hb hlt ha0 ha1 hb0 hb1 => ?_, fun s n r en rest c id => ?_⟩
  · have hg := queueGrant_one hon hnew hreqs hport h0 h1
    exact ⟨_, rfl, by rw [hg.slice]; rfl, by rw [hg.slice]; rfl, by rw [hg.slice]; rfl, by rw [hg.rest], by rw [hg.rest], hg.maxwait, hg.regs⟩
  · obtain ⟨u, hu, ht⟩ := queueGrant_pair hon hnew hreqs ha hb hlt ha0 ha1 hb0 hb1
    refine ⟨_, rfl, by rw [ht.slice]; rfl, by rw [ht.slice]; rfl, ?_⟩
    rw [ht.slice, ← hu.on_en k.isLt b.queue]
    simp [hu.slice, Slice.grant]
  · intro k hon hgr hn htag hhold hc room some_ taken
    have hslot : ∀ {qop i}, r.qop = qop → s.verdict r.port r.qop n.toNat en = .slot i → taken (s.decideRow n.toNat qop) i := fun hq hv => by
      rw [decideRow_slot hon hgr hn htag hhold hq hv]
      exact ⟨sl_setSl_self _ _ _, rfl, rfl, rfl⟩
    have hpush : ∀ qop, qop = 1 ∨ qop = 4 → room → r.qop = qop → taken (s.decideRow n.toNat qop) (s.rtail n.toNat) :=
      fun _ hp h hq => hslot hq (verdict_push hc (hq ▸ hp) h)
    have htake : ∀ qop, qop = 2 ∨ qop = 3 ∨ qop = 5 → some_ → r.qop = qop → taken (s.decideRow n.toNat qop) (s.rhead n.toNat) :=
      fun _ hp h hq => hslot hq (verdict_take hc (hq ▸ hp) h)
    refine ⟨fun h hq => ⟨_, rfl, hpush 1 (by decide) h hq⟩, fun h hq => ⟨_, rfl, hpush 4 (by decide) h hq⟩,
      fun h hq => ⟨_, rfl, htake 2 (by decide) h hq⟩, fun h hq => ⟨_, rfl, htake 3 (by decide) h hq⟩,
      fun h hq => ⟨_, rfl, htake 5 (by decide) h hq⟩, fun hq => ⟨s.decideRow n.toNat 6, rfl, ?_⟩⟩
    rw [decideRow_wmarm hon hgr hn htag hhold hq hc]
    obtain ⟨hset, hmet, hregs⟩ := arm_effect (s.setSl k { s.sl k with granted := rest }) n.toNat
    have hsl : (((s.setSl k { s.sl k with granted := rest }).arm n.toNat).answerQ c id 0 true).sl k = { s.sl k with granted := rest } := by
      rw [arm_eq]; exact sl_setSl_self _ _ _
    refine ⟨by rw [hsl], by rw [hsl], ⟨hset, hmet⟩, hregs, fun o ho hqops => ?_⟩
    subst ho
    exact answerQ_only (by rw [arm_eq]; exact hqops) 0 true

end Sys2Proof.Machine
end

section
/-! PROOFS. O24 and O25 fail where the record that closes a counted event meets a full intake. The newest entry of this FCLK may then have to
give way, and the count of suppressed occurrences of its code is written (R389, R392). The statements let that code be any number: the
count of a ten-bit code stands in the colophon's page, that of a large enough one is the low byte of the register the event has just written. -/

namespace Sys2Proof.Machine

/-- An occurrence code, above the ten bits of the manual's codes, whose suppressed count stands in the register at `key`. -/
def strayCodeAt (key : Nat) : Nat := key - R.COL_SUPP 0

/-- Its suppressed count is the low byte of that register. -/
theorem suppRF_strayCodeAt {key : Nat} (h : R.COL_SUPP 0 ≤ key) (h8 : key % 8 = 0) : suppRF (strayCodeAt key) = ⟨key, 0, 8⟩ := by
  simp only [R.COL_SUPP] at h
  simp only [suppRF, strayCodeAt, R.COL_SUPP, RF.mk.injEq, and_true]
  omega

/-- A colophon that has accepted the four occurrences of this FCLK, the newest of them with the stray code and from a source above every
unit's: any other occurrence of this FCLK comes before it (R389). -/
def strayIntake (key : Nat) : Colophon :=
  { Colophon.reset with intake := [⟨strayCodeAt key, 0x1000, false, 0, 0, 0, 0, false⟩], accepted := (0, 4) }

/-- The reset state, based, with the stray entry for the register at `key`. -/
def strayAt (key : Nat) : State := { State.reset with col := strayIntake key }.put F.COL_STATUS_BASED 1

/-! O24: the record of an underflow. -/

/-- A POP of queue 0 by context 0. -/
def popRequest : QReq := ⟨0, 2, 0, 0, .ctx 0 0, 0, false, 0⟩

/-- The POP granted, its queue enabled and empty, the stray entry standing for LAST of slice 0. -/
def emptyPop : State :=
  ((strayAt (R.QSL_LAST 0)).setSl 0 { Slice.reset with granted := [(popRequest, true)] }).setCx 0
    { Ctx.reset with qEmpty := true, qops := [⟨0, 2, none⟩] }

/-- Its tables are canonical: the invariant of the model does not exclude it. -/
theorem emptyPop_wf : emptyPop.wf = true := by decide +kernel

/-- LAST has taken queue 0; then the entry that gives way is counted there, and LAST names queue 1. -/
theorem emptyPop_last : (emptyPop.decideRow 0 2).get (F.QSL_LAST_QUEUE 0) = 1 := by decide +kernel

/-- Refutes O24: the clause of QueueOverflowAndUnderflow about POP says of every state that LAST names the queue; from `emptyPop`, an underflow
of queue 0, it names queue 1. -/
theorem not_queueOutcomes : ¬ Obligations.QueueOutcomes := by
  unfold Obligations.QueueOutcomes
  rintro ⟨hfull, -⟩
  obtain ⟨-, -, hpop, -⟩ := hfull emptyPop 0 popRequest true [] 0 ⟨0, 2, none⟩ (by decide +kernel) (by decide +kernel) rfl rfl
    (by decide +kernel) (by decide +kernel) rfl rfl rfl (by decide) (by decide +kernel)
  obtain ⟨t, ht, -, ⟨-, -, hlast, -⟩, -⟩ := hpop (by decide +kernel) rfl
  cases ht
  exact absurd (emptyPop_last.symm.trans hlast) (by decide)

/-! O25: the record of an uncorrectable descriptor word. -/

/-- CFG of queue 0 stored with two wrong bits, the stray entry standing for QMG.DLOG. -/
def poisonedCfg : State := { strayAt R.QMG_DLOG with qdErr := [(0, 3)] }

/-- Its tables are canonical. -/
theorem poisonedCfg_wf : poisonedCfg.wf = true := by decide +kernel

/-- DLOG has taken queue 0; then the entry that gives way is counted there, and DLOG names queue 1. -/
theorem poisonedCfg_dlog : (poisonedCfg.qdReadHalf 0 0 false).get F.QMG_DLOG_QUEUE = 1 := by decide +kernel

/-- A host access is served while the domain's pages are up (R330). -/
theorem hostAccess_up {s : State} {d : Nat} (h : s.pageUp d = true) (key : Nat) (isWrite : Bool) (f : State → State) :
    s.hostAccess d key isWrite f = f s := by
  simp only [State.pageUp, Bool.and_eq_true, decide_eq_true_eq] at h
  simp [State.hostAccess, h]

theorem exec_qdLowHalfRead_up {s : State} {n : BitVec 14} (h : s.pageUp (domSlice (n.toNat % 16)) = true) (ptr : Bool) :
    exec (.qdLowHalfRead n ptr) s = .next (s.qdReadHalf n.toNat (b2n ptr) false) := congrArg _ (hostAccess_up h ..)

/-- Refutes O25: the clause of DescriptorLowHalfReads about an uncorrectable word says of every state that DLOG names its queue; from
`poisonedCfg`, a read of queue 0, it names queue 1. -/
theorem not_queueDescriptors : ¬ Obligations.QueueDescriptors := by
  unfold Obligations.QueueDescriptors
  rintro ⟨-, hreads, -⟩
  have hup : poisonedCfg.pageUp (domSlice 0) = true := by decide +kernel
  obtain ⟨-, -, hpoisoned⟩ := hreads poisonedCfg 0 false hup (by decide +kernel) (by decide +kernel)
  obtain ⟨t, ht, -, -, hdlog, -⟩ := hpoisoned (by decide +kernel)
  rw [exec_qdLowHalfRead_up hup] at ht
  cases ht
  exact absurd (poisonedCfg_dlog.symm.trans hdlog) (by decide)

end Sys2Proof.Machine
end
